-- ==== Sys2Proof/Config.lean ====
section
/-! DEFINITION. What the spec leaves to the implementation or to the world outside, as constants without a body: nothing in
Lean can evaluate one or prove a value of it, so a statement about one holds whatever it is. -/

namespace Sys2Proof

/-- The signed configuration record (04 R67): partition map entries (05 Table 5.1), device number, time slice in nanoseconds, enabled
Drexon links, feed count, handler tables (partition × 8 + entry), device authority, CXL capacity of each port. -/
structure ConfigRecord where
  map : List (Nat × List Nat)
  device : Nat
  sliceNs : Nat
  links : List Nat
  feeds : Nat
  handlers : List (Nat × Nat)
  authority : Bool
  cxl0 : Nat
  cxl1 : Nat
  deriving DecidableEq, Repr, Inhabited

def ConfigRecord.none : ConfigRecord :=
  { map := [], device := 0, sliceNs := 2000000, links := [], feeds := 1, handlers := [], authority := false, cxl0 := 0, cxl1 := 0 }

end Sys2Proof

namespace Sys2Proof.Config

/-- Whether an image's RSASSA-PSS signature verifies under the vendor key of the ROM (04 R65 step 2; log 4). -/
opaque imageSigned : List Byte → Bool

/-- Whether the configuration record's bytes verify under the configuration key that an image carries: the image, then the record (04 R67; log 4). -/
opaque recordSigned : List Byte → List Byte → Bool

/-- What the bytes of a configuration record say: the spec lists what the record holds and gives no byte layout (04 R67; log 4). -/
opaque recordOf : List Byte → ConfigRecord

/-- The version word carried in an image's signed header (04 Table 4.2a; log 4). -/
opaque imageVersion : List Byte → W32

/-- The quote signature made under a measurement over the quote's fields (04 R69; log 4). -/
opaque quoteSignature : BitVec 256 → List Nat → Nat

/-- The candidate launch id: ids are nonzero and unique and their values are otherwise not architectural (01 R332; log 5). -/
opaque launchId : Nat → W64

/-- The result an approximating point gives where the spec gives only a bound (10 R156): point number, then the operand. The
machine keeps it only where it meets the bound (log 6). -/
opaque approx : Nat → W32 → W32

/-- How the fields of an image section that Table 21.4 lists without a byte layout are packed: the section, then its fields in the table's order
(21 R295; log 7). -/
opaque packing : Nat → List Nat → List Byte

/-- The beats of a packet in a flit's payload, from what the packet carries: the spec gives them no layout (14 Table 14.8; log 15). -/
opaque beats : List Nat → BitVec 512

/-- A value software finds where the spec leaves a read open: a counter, then the value (log 8). -/
opaque freeValue : Nat → W64

end Sys2Proof.Config
end

