-- ==== Sys2Proof/Machine/Flags.lean ====
section
/-! DEFINITION. The bits of fpflags (04 Table 4.5) and the flag computations of the integer classes (08 R130). -/

namespace Sys2Proof.Machine

abbrev Flags := BitVec 9

def flagNX : Flags := 0x001
def flagUF : Flags := 0x002
def flagOF : Flags := 0x004
def flagDZ : Flags := 0x008
def flagNV : Flags := 0x010
def flagIDZ : Flags := 0x020
def flagIOV : Flags := 0x040
def flagOOB : Flags := 0x080
def flagFMT : Flags := 0x100

/-- A flag when a condition holds. -/
def flagIf (b : Bool) (f : Flags) : Flags := if b then f else 0

/-- The least and the greatest signed value of a width. -/
def minS (w : Nat) : Int := -(2 ^ (w - 1) : Nat)
def maxS (w : Nat) : Int := (2 ^ (w - 1) : Nat) - 1

/-- A value clamped to a range. -/
def clampInt (x lo hi : Int) : Int := if x < lo then lo else if hi < x then hi else x

/-- SatS of a width: the code of the clamped value, and IOV when the clamp changes it (08 R130). -/
def satS (w : Nat) (r : Int) : Nat × Flags :=
  let c := clampInt r (minS w) (maxS w)
  (ofSigned w c, flagIf (c != r) flagIOV)

/-- An exact result wrapped, or clamped in the .sat form (08 R130). -/
def narrow (w : Nat) (sat : Bool) (r : Int) : Nat × Flags := if sat then satS w r else (ofSigned w r, 0)

/-- The condition codes of 08 Table 8.2 over integers. -/
def condInt (code : Nat) (x y : Int) : Bool :=
  match code with
  | 0 => x == y
  | 1 => x != y
  | 2 => x < y
  | 3 => x ≤ y
  | 4 => y < x
  | _ => y ≤ x

end Sys2Proof.Machine
end

