-- ==== Sys2Proof/Machine/Float.lean ====
section
/-! DEFINITION. Floating point (10): the three formats, exact values, one rounding, and the operations of FALU and FSPC on encoded elements. A value is
formed exactly and rounded once (10 R145). -/

namespace Sys2Proof.Machine

/-- A format: exponent and fraction widths (10 Tables 10.1 to 10.3). -/
structure Fmt where
  ebits : Nat
  fbits : Nat
  deriving DecidableEq, Repr

def f32 : Fmt := ⟨8, 23⟩
def f16 : Fmt := ⟨5, 10⟩
def bf16 : Fmt := ⟨8, 7⟩

def Fmt.width (f : Fmt) : Nat := 1 + f.ebits + f.fbits
def Fmt.bias (f : Fmt) : Int := (2 ^ (f.ebits - 1) : Nat) - 1
def Fmt.emin (f : Fmt) : Int := 1 - f.bias
/-- The exponent of the least significant bit of a subnormal. -/
def Fmt.qmin (f : Fmt) : Int := f.emin - f.fbits
/-- The magnitude code of infinity. -/
def Fmt.infMag (f : Fmt) : Nat := (2 ^ f.ebits - 1) * 2 ^ f.fbits
/-- The canonical NaN (10 Table 10.4). -/
def Fmt.nan (f : Fmt) : Nat := f.infMag + 2 ^ (f.fbits - 1)
def Fmt.signed (f : Fmt) (neg : Bool) (mag : Nat) : Nat := mag + b2n neg * 2 ^ (f.ebits + f.fbits)
def Fmt.inf (f : Fmt) (neg : Bool) : Nat := f.signed neg f.infMag
def Fmt.zero (f : Fmt) (neg : Bool) : Nat := f.signed neg 0
/-- 1.0 in the format. -/
def Fmt.one (f : Fmt) : Nat := (2 ^ (f.ebits - 1) - 1) * 2 ^ f.fbits

/-- What an encoding stands for (10 R143): a finite value is m × 2^e with a sign, zero having m = 0. -/
inductive FVal where
  | nan (signalling : Bool)
  | inf (neg : Bool)
  | fin (neg : Bool) (m : Nat) (e : Int)
  deriving DecidableEq, Repr

def Fmt.decode (f : Fmt) (x : Nat) : FVal :=
  let frac := x % 2 ^ f.fbits
  let ex := x / 2 ^ f.fbits % 2 ^ f.ebits
  let neg := x / 2 ^ (f.ebits + f.fbits) % 2 == 1
  if ex = 2 ^ f.ebits - 1 then
    (if frac = 0 then .inf neg else .nan (frac / 2 ^ (f.fbits - 1) == 0))
  else if ex = 0 then .fin neg frac f.qmin
  else .fin neg (2 ^ f.fbits + frac) (f.qmin + (ex - 1))

def FVal.isNan : FVal → Bool | .nan _ => true | _ => false
def FVal.isSig : FVal → Bool | .nan b => b | _ => false
def FVal.isZero : FVal → Bool | .fin _ m _ => m == 0 | _ => false
def FVal.neg : FVal → Bool | .nan _ => false | .inf n => n | .fin n _ _ => n
def FVal.flip : FVal → FVal | .nan b => .nan b | .inf n => .inf (!n) | .fin n m e => .fin (!n) m e

/-- NV for a signalling NaN among the operands (10 R146). -/
def sigNV (xs : List FVal) : Flags := flagIf (xs.any FVal.isSig) flagNV

/-- num × 2^e as a fraction over den. -/
def scale2 (num den : Nat) (e : Int) : Nat × Nat := if 0 ≤ e then (num * 2 ^ e.toNat, den) else (num, den * 2 ^ (-e).toNat)

/-- Whether a quotient with remainder rounds up in magnitude (10 R145): modes 1 rne, 2 rtz, 3 rdn, 4 rup, 5 rna. -/
def roundsUp (mode : Nat) (neg : Bool) (q r d : Nat) : Bool :=
  match mode with
  | 1 => d < 2 * r || (2 * r == d && q % 2 == 1)
  | 2 => false
  | 3 => neg && r != 0
  | 4 => !neg && r != 0
  | _ => d ≤ 2 * r

/-- A magnitude n / d rounded to an integer. -/
def roundDiv (mode : Nat) (neg : Bool) (n d : Nat) : Nat :=
  let q := n / d
  let r := n % d
  if roundsUp mode neg q r d then q + 1 else q

/-- floor(log2 (n / d)) for positive n and d. -/
def floorLog2 (n d : Nat) : Int :=
  let k : Int := (n.log2 : Int) - (d.log2 : Int)
  let (a, b) := scale2 n d (-k)
  if a < b then k - 1 else if 2 * b ≤ a then k + 1 else k

/-- The rounding of 10 R145 to R147: the magnitude num / den × 2^e, not zero, rounded to a format in a mode, with OF, UF and NX. Tininess is
decided after rounding with unbounded exponent. -/
def Fmt.round (f : Fmt) (mode : Nat) (neg : Bool) (num den : Nat) (e : Int) : Nat × Flags :=
  let (n, d) := scale2 num den e
  let k := floorLog2 n d
  let qu : Int := k - f.fbits
  let q : Int := if qu < f.qmin then f.qmin else qu
  let (a, b) := scale2 n d (-q)
  let r := roundDiv mode neg a b
  let inexact := r * b != a
  let (au, bu) := scale2 n d (-qu)
  let ru := roundDiv mode neg au bu
  let tiny := (if f.emin ≤ qu then false else ru < 2 ^ (f.emin - qu).toNat)
  let mag := (q - f.qmin).toNat * 2 ^ f.fbits + r
  if f.infMag ≤ mag then
    let toInf := mode = 1 || mode = 5 || (mode = 4 && !neg) || (mode = 3 && neg)
    (f.signed neg (if toInf then f.infMag else f.infMag - 1), flagOF ||| flagNX)
  else (f.signed neg mag, flagIf (tiny && inexact) flagUF ||| flagIf inexact flagNX)

/-- A finite term as a signed integer at an exponent. -/
def FVal.atExp (e : Int) : FVal → Int
  | .fin n m x => (if n then -1 else 1) * ((m * 2 ^ (x - e).toNat : Nat) : Int)
  | _ => 0

def FVal.exp : FVal → Int | .fin _ _ e => e | _ => 0

/-- The exact product of two elements (10 R150): invalid for zero times infinity. -/
def FVal.times (x y : FVal) : FVal × Bool :=
  match x, y with
  | .nan _, _ => (.nan false, false)
  | _, .nan _ => (.nan false, false)
  | .inf a, .inf b => (.inf (xor a b), false)
  | .inf a, .fin b m _ => if m = 0 then (.nan false, true) else (.inf (xor a b), false)
  | .fin b m _, .inf a => if m = 0 then (.nan false, true) else (.inf (xor a b), false)
  | .fin a m e, .fin b n g => (.fin (xor a b) (m * n) (e + g), false)

/-- The exact sum of finite terms, rounded once. An exact zero is +0, or −0 under rdn; terms that are all zeros of one sign keep it (10 R146). -/
def Fmt.sumFin (f : Fmt) (mode : Nat) (ts : List FVal) : Nat × Flags :=
  let e := ts.foldl (fun m t => if t.exp < m then t.exp else m) (ts.headD (.fin false 0 0)).exp
  let total := ts.foldl (fun acc t => acc + t.atExp e) (0 : Int)
  if total = 0 then
    let allNeg := ts.all FVal.neg
    let allPos := ts.all (fun t => !t.neg)
    let zeros := ts.all FVal.isZero
    (f.zero (if zeros && allNeg then true else if zeros && allPos then false else mode == 3), 0)
  else f.round mode (total < 0) total.natAbs 1 e

/-- The sum of terms with infinities and NaNs (10 R146, R150, R153): infinities of opposite sign are invalid, beside a NaN too; a NaN gives the
canonical NaN. -/
def Fmt.sum (f : Fmt) (mode : Nat) (ts : List FVal) : Nat × Flags :=
  match ts.filter (fun t => match t with | .inf _ => true | _ => false) with
  | [] => if ts.any FVal.isNan then (f.nan, 0) else f.sumFin mode ts
  | t :: r =>
    if r.any (fun u => u.neg != t.neg) then (f.nan, flagNV)
    else if ts.any FVal.isNan then (f.nan, 0) else (f.inf t.neg, 0)

def Fmt.add (f : Fmt) (mode x y : Nat) : Nat × Flags :=
  let a := f.decode x
  let b := f.decode y
  let r := f.sum mode [a, b]
  (r.1, r.2 ||| sigNV [a, b])

def Fmt.sub (f : Fmt) (mode x y : Nat) : Nat × Flags :=
  let a := f.decode x
  let b := f.decode y
  let r := f.sum mode [a, b.flip]
  (r.1, r.2 ||| sigNV [a, b])

def Fmt.mul (f : Fmt) (mode x y : Nat) : Nat × Flags :=
  let a := f.decode x
  let b := f.decode y
  match a.times b with
  | (.fin n m e, _) => if m = 0 then (f.zero n, 0) else f.round mode n m 1 e
  | (.inf n, _) => (f.inf n, 0)
  | (.nan _, bad) => (f.nan, flagIf bad flagNV ||| sigNV [a, b])

/-- x × y + z with one rounding (10 R150); 0 × ∞ is invalid even beside a quiet NaN. -/
def Fmt.fma (f : Fmt) (mode x y z : Nat) : Nat × Flags :=
  let a := f.decode x
  let b := f.decode y
  let c := f.decode z
  let p := a.times b
  let r := f.sum mode [p.1, c]
  (r.1, r.2 ||| flagIf p.2 flagNV ||| sigNV [a, b, c])

/-- c + a.0 × b.0 + a.1 × b.1 (10 R153): products in the packed format, c and the result in binary32. -/
def dot2 (f : Fmt) (mode x y z : Nat) : Nat × Flags :=
  let a0 := f.decode (x % 2 ^ 16)
  let a1 := f.decode (x / 2 ^ 16)
  let b0 := f.decode (y % 2 ^ 16)
  let b1 := f.decode (y / 2 ^ 16)
  let c := f32.decode z
  let p := a0.times b0
  let q := a1.times b1
  let r := f32.sum mode [c, p.1, q.1]
  (r.1, r.2 ||| flagIf (p.2 || q.2) flagNV ||| sigNV [a0, a1, b0, b1, c])

/-- The order of two values that are not NaN; zeros compare equal. -/
def FVal.cmpNum (x y : FVal) : Ordering :=
  match x, y with
  | .inf a, .inf b => if a = b then .eq else if a then .lt else .gt
  | .inf a, _ => if a then .lt else .gt
  | _, .inf b => if b then .gt else .lt
  | a, b =>
    let e := if a.exp < b.exp then a.exp else b.exp
    compare (a.atExp e) (b.atExp e)

/-- The conditions of 10 Table 10.6, with the NV they raise. -/
def Fmt.cond (f : Fmt) (code x y : Nat) : Bool × Flags :=
  let a := f.decode x
  let b := f.decode y
  let un := a.isNan || b.isNan
  let o := a.cmpNum b
  let r := match code with
    | 0 => !un && o == .eq
    | 1 => un || o != .eq
    | 2 => !un && o == .lt
    | 3 => !un && o != .gt
    | 4 => !un && o == .gt
    | 5 => !un && o != .lt
    | 6 => un
    | _ => !un
  let nv := if 2 ≤ code && code ≤ 5 then flagIf un flagNV else sigNV [a, b]
  (r, nv)

/-- minimumNumber and maximumNumber (10 R152); −0 is less than +0. -/
def Fmt.minMax (f : Fmt) (max : Bool) (x y : Nat) : Nat × Flags :=
  let a := f.decode x
  let b := f.decode y
  let nv := sigNV [a, b]
  if a.isNan && b.isNan then (f.nan, nv)
  else if a.isNan then (y, nv)
  else if b.isNan then (x, nv)
  else
    let less := match a.cmpNum b with
      | .lt => true
      | .gt => false
      | .eq => a.neg && !b.neg
    (if xor less max then x else y, nv)

/-- The class mask of 10 Table 10.7. -/
def Fmt.classMask (f : Fmt) (x : Nat) : Nat :=
  match f.decode x with
  | .nan s => if s then 2 ^ 8 else 2 ^ 9
  | .inf n => if n then 2 ^ 0 else 2 ^ 7
  | .fin n m _ =>
    if m = 0 then (if n then 2 ^ 3 else 2 ^ 4)
    else if m < 2 ^ f.fbits then (if n then 2 ^ 2 else 2 ^ 5)
    else (if n then 2 ^ 1 else 2 ^ 6)

/-- a × 2^k (10 R153). -/
def fscl (mode x : Nat) (k : Int) : Nat × Flags :=
  let a := f32.decode x
  match a with
  | .nan s => (f32.nan, flagIf s flagNV)
  | .inf n => (f32.inf n, 0)
  | .fin n m e => if m = 0 then (f32.zero n, 0)
    -- beyond these shifts every result overflows or is tiny alike
    else f32.round mode n m 1 (e + clampInt k (-1000) 1000)

/-- a − floor(a) (10 R153). -/
def ffrc (mode x : Nat) : Nat × Flags :=
  match f32.decode x with
  | .nan s => (f32.nan, flagIf s flagNV)
  | .inf _ => (f32.nan, flagNV)
  | .fin n m e =>
    if 0 ≤ e then (0, 0)
    else
      let d : Nat := 2 ^ (-e).toNat
      let r := (if n then -(m : Int) else (m : Int)) % (d : Int)
      if r = 0 then (0, 0) else f32.round mode false r.toNat d 0

/-- Correctly rounded division (10 R155). -/
def Fmt.div (f : Fmt) (mode x y : Nat) : Nat × Flags :=
  let a := f.decode x
  let b := f.decode y
  match a, b with
  | .nan _, _ => (f.nan, sigNV [a, b])
  | _, .nan _ => (f.nan, sigNV [a, b])
  | .inf _, .inf _ => (f.nan, flagNV)
  | .inf n, .fin k _ _ => (f.inf (xor n k), 0)
  | .fin n _ _, .inf k => (f.zero (xor n k), 0)
  | .fin n m e, .fin k l g =>
    if l = 0 then (if m = 0 then (f.nan, flagNV) else (f.inf (xor n k), flagDZ))
    else if m = 0 then (f.zero (xor n k), 0)
    else f.round mode (xor n k) m l (e - g)

/-- The square root's magnitude with a sticky last bit, as (numerator, exponent): far more bits than any format keeps, so the one rounding is right. -/
def sqrtExact (m : Nat) (e : Int) : Nat × Int :=
  let (m, e) := if e % 2 = 0 then (m, e) else (2 * m, e - 1)
  let big := m * 2 ^ 120
  let r := Nat.sqrt big
  (2 * r + (if r * r = big then 0 else 1), (e - 120) / 2 - 1)

/-- Correctly rounded square root (10 R155). -/
def Fmt.sqrt (f : Fmt) (mode x : Nat) : Nat × Flags :=
  match f.decode x with
  | .nan s => (f.nan, flagIf s flagNV)
  | .inf n => if n then (f.nan, flagNV) else (f.inf false, 0)
  | .fin n m e =>
    if m = 0 then (f.zero n, 0)
    else if n then (f.nan, flagNV)
    else
      let r := sqrtExact m e
      f.round mode false r.1 1 r.2

/-- A finite value rounded to an integer (10 R157, R158). -/
def toInteger (mode : Nat) (n : Bool) (m : Nat) (e : Int) : Int × Bool :=
  let (a, b) := scale2 m 1 e
  let r := roundDiv mode n a b
  ((if n then -(r : Int) else (r : Int)), r * b != a)

/-- FRND (10 R157). -/
def Fmt.integral (f : Fmt) (mode x : Nat) : Nat × Flags :=
  match f.decode x with
  | .nan s => (f.nan, flagIf s flagNV)
  | .inf n => (f.inf n, 0)
  | .fin n m e =>
    let r := (toInteger mode n m e).1.natAbs
    if r = 0 then (f.zero n, 0) else ((f.round 2 n r 1 0).1, 0)

/-- An integer rounded to a format (10 R158). -/
def Fmt.ofInt (f : Fmt) (mode : Nat) (x : Int) : Nat × Flags := if x = 0 then (0, 0) else f.round mode (x < 0) x.natAbs 1 0

/-- Between formats (10 R158). -/
def Fmt.convert (dst src : Fmt) (mode x : Nat) : Nat × Flags :=
  match src.decode x with
  | .nan s => (dst.nan, flagIf s flagNV)
  | .inf n => (dst.inf n, 0)
  | .fin n m e => if m = 0 then (dst.zero n, 0) else dst.round mode n m 1 e

/-- binary32 to an integer of a range (10 R158): saturated with NV outside it, 0 with NV for a NaN. -/
def toInt (mode x : Nat) (lo hi : Int) : Int × Flags :=
  match f32.decode x with
  | .nan _ => (0, flagNV)
  | .inf n => (if n then lo else hi, flagNV)
  | .fin n m e =>
    let (r, inexact) := toInteger mode n m e
    if r < lo then (lo, flagNV) else if hi < r then (hi, flagNV) else (r, flagIf inexact flagNX)

/-! ## The approximating points (10 R156). A result outside the exact cases is the free value of log 6 where that meets the bound, and the nearest
value otherwise. Bounds are tested in fixed point with 2^-fp units. -/

/-- The fixed-point scale of the tests. -/
def fp : Nat := 160

/-- 2^(n / 2^fp) × 2^fp for 0 ≤ n < 2^fp, by its binary digits. -/
def exp2Frac (n : Nat) : Nat :=
  ((List.range 100).foldl
    (fun (st : Nat × Nat) i =>
      -- the second component is 2^(2^-(i+1)) in fixed point
      let root := Nat.sqrt (st.2 * 2 ^ fp)
      (if n.testBit (fp - 1 - i) then st.1 * root / 2 ^ fp else st.1, root))
    (2 ^ fp, 2 * 2 ^ fp)).1

/-- log2 of y / 2^fp in [1, 2), in units of 2^-100, by repeated squaring. -/
def log2Frac (y : Nat) : Nat :=
  ((List.range 100).foldl
    (fun (st : Nat × Nat) i =>
      let z := st.1 * st.1 / 2 ^ fp
      if 2 * 2 ^ fp ≤ z then (z / 2, st.2 + 2 ^ (99 - i)) else (z, st.2))
    (y, 0)).2

/-- π in fixed point of 2^-160 units. -/
def piFixed : Nat := 4591442807048218921384805199743311128454155024418

/-- sin of x / 2^fp radians, 0 ≤ x ≤ π / 2, in fixed point. -/
def sinFixed (x : Nat) : Int :=
  ((List.range 40).foldl
    (fun (st : Int × Int) k =>
      let t := -(st.2 * (x : Int) * (x : Int)) / (((2 * k + 2) * (2 * k + 3) * 2 ^ (2 * fp) : Nat) : Int)
      (st.1 + t, t))
    ((x : Int), (x : Int))).1

/-- sin (2π r / 2^fp) in fixed point, for a fraction r of a turn. -/
def sinTurn (r : Nat) : Int :=
  let q := 2 ^ fp / 4
  let r := r % 2 ^ fp
  let rad (t : Nat) : Nat := 2 * piFixed * t / 2 ^ fp
  if r ≤ q then sinFixed (rad r)
  else if r ≤ 2 * q then sinFixed (rad (2 * q - r))
  else if r ≤ 3 * q then -sinFixed (rad (r - 2 * q))
  else -sinFixed (rad (4 * q - r))

/-- Whether a finite binary32 `y` lies within `ulps` ulp of the exact magnitude n / d of sign `neg`. -/
def withinUlps (y : Nat) (neg : Bool) (n d ulps : Nat) : Bool :=
  match f32.decode y with
  | .fin yn m e =>
    let k := floorLog2 n d
    let q : Int := if k - 23 < f32.qmin then f32.qmin else k - 23
    -- |y − x| in units of 2^q, over d
    let (a, b) := scale2 n d (-q)
    let (c, g) := scale2 m 1 (e - q)
    let x : Int := (if neg then -1 else 1) * ((a * g : Nat) : Int)
    let z : Int := (if yn then -1 else 1) * ((c * b : Nat) : Int)
    (z - x).natAbs ≤ ulps * (b * g)
  | _ => false

/-- The result where the exact magnitude is n / d (not zero): the free value if it meets the bound, else the nearest. NX as 10 R156 gives;
UF where the delivered value is below the smallest normal (DESIGN CHOICE, log 82). -/
def approxBy (point x : Nat) (neg : Bool) (n d ulps : Nat) : Nat × Flags :=
  let y := (Config.approx point (BitVec.ofNat 32 x)).toNat
  let near := f32.round 1 neg n d 0
  let r := if withinUlps y neg n d ulps then y else near.1
  let tiny := (r % 2 ^ 31 < 2 ^ 23)
  (r, flagNX ||| flagIf tiny flagUF)

/-- Whether m is a power of two. -/
def isPow2 (m : Nat) : Bool := m != 0 && m == 2 ^ m.log2

def frcp (x : Nat) : Nat × Flags :=
  match f32.decode x with
  | .nan s => (f32.nan, flagIf s flagNV)
  | .inf n => (f32.zero n, 0)
  | .fin n m e =>
    if m = 0 then (f32.inf n, flagDZ)
    else
      let (a, b) := scale2 m 1 e
      if a * 2 ^ 128 ≤ b then (f32.inf n, flagOF ||| flagNX)
      else
        let exact := f32.round 1 n b a 0
        if isPow2 m && exact.2 = 0 then (exact.1, 0) else approxBy 0 x n b a 1

def frsq (x : Nat) : Nat × Flags :=
  match f32.decode x with
  | .nan s => (f32.nan, flagIf s flagNV)
  | .inf n => if n then (f32.nan, flagNV) else (0, 0)
  | .fin n m e =>
    if m = 0 then (f32.inf n, flagDZ)
    else if n then (f32.nan, flagNV)
    else
      let k : Int := m.log2 + e
      if isPow2 m && k % 2 = 0 && f32.emin ≤ k then f32.round 1 false 1 1 (-(k / 2))
      else
        let r := sqrtExact m e
        let (a, b) := scale2 r.1 1 r.2
        approxBy 1 x false b a 1

def fexp2 (x : Nat) : Nat × Flags :=
  match f32.decode x with
  | .nan s => (f32.nan, flagIf s flagNV)
  | .inf n => (if n then 0 else f32.inf false, 0)
  | .fin n m e =>
    if m = 0 then (f32.one, 0)
    else
      let (a, b) := scale2 m 1 e
      if !n && 128 * b ≤ a then (f32.inf false, flagOF ||| flagNX)
      else if n && 200 * b ≤ a then
        -- far below the smallest subnormal: zero is within the bound, and so is a value of at most two units
        let y := (Config.approx 2 (BitVec.ofNat 32 x)).toNat
        (if y ≤ 2 then y else 0, flagUF ||| flagNX)
      else
        let t : Int := (if n then -1 else 1) * ((a * 2 ^ fp / b : Nat) : Int)
        let k := t / ((2 ^ fp : Nat) : Int)
        let frac := (t % ((2 ^ fp : Nat) : Int)).toNat
        if a % b = 0 && (!n || a ≤ 149 * b) then f32.round 1 false 1 1 k
        else
          let (p, q) := scale2 (exp2Frac frac) (2 ^ fp) k
          approxBy 2 x false p q 2

def flog2 (x : Nat) : Nat × Flags :=
  match f32.decode x with
  | .nan s => (f32.nan, flagIf s flagNV)
  | .inf n => if n then (f32.nan, flagNV) else (f32.inf false, 0)
  | .fin n m e =>
    if m = 0 then (f32.inf true, flagDZ)
    else if n then (f32.nan, flagNV)
    else
      let k : Int := m.log2 + e
      if isPow2 m then f32.ofInt 1 k
      else
        let y := m * 2 ^ fp / 2 ^ m.log2
        let t : Int := k * ((2 ^ 100 : Nat) : Int) + (log2Frac y : Int)
        let r := approxBy 3 x (t < 0) t.natAbs (2 ^ 100) 2
        (r.1, flagNX)

/-- FSIN and FCOS: cos(2πx) is sin(2π(x + 1/4)). The bound is 2^-22, absolute. -/
def fsinCos (cosine : Bool) (x : Nat) : Nat × Flags :=
  match f32.decode x with
  | .nan s => (f32.nan, flagIf s flagNV)
  | .inf _ => (f32.nan, flagNV)
  | .fin n m e =>
    let (a, b) := scale2 m 1 e
    let turn : Int := (if n then -1 else 1) * (a : Int)
    let t4 := (4 * turn) % ((4 * b : Nat) : Int)
    let t4 := if cosine then (t4 + b) % ((4 * b : Nat) : Int) else t4
    if t4 = 0 || t4 = 2 * b then (0, 0)
    else if t4 = b then (f32.one, 0)
    else if t4 = 3 * b then (f32.signed true f32.one, 0)
    else
      let r := t4.toNat * 2 ^ fp / (4 * b)
      let v := sinTurn r
      let point := if cosine then 5 else 4
      let y := (Config.approx point (BitVec.ofNat 32 x)).toNat
      let near := if v = 0 then 0 else (f32.round 1 (v < 0) v.natAbs (2 ^ fp) 0).1
      let ok : Bool := match f32.decode y with
        | .fin yn ym ye =>
          let (c, g) := scale2 ym 1 ye
          let z : Int := (if yn then -1 else 1) * ((c * 2 ^ fp : Nat) : Int)
          (z - v * (g : Int)).natAbs * 2 ^ 22 ≤ g * 2 ^ fp
        | _ => false
      (if ok then y else near, flagNX)

end Sys2Proof.Machine
end

