-- ==== Sys2Proof/Syntax.lean ====
section
/-! DEFINITION. The instruction words of the part by format (02 Tables 2.2 to 2.13), and the one type of every row of the table of operations
and events. -/

namespace Sys2Proof

/-- An operand (02 R44): a v register, a chute, or z. A field that holds a plain number carries it as `v`. -/
inductive Operand where
  | v (n : Fin 256)
  | q (n : Fin 8)
  | z
  deriving DecidableEq, Repr

/-- The guard (02 Table 2.2). -/
structure Guard where
  pg : Fin 8
  neg : Bool
  deriving DecidableEq, Repr

/-- Format RRR (02 Table 2.4). -/
structure RRR where
  g : Guard
  d : Operand
  a : Operand
  b : Operand
  c : Operand
  fsel : Fin 4
  rm : Fin 8
  sat : Bool
  pd : Fin 8
  mod : Fin 64
  deriving DecidableEq, Repr

/-- Format RI (02 Table 2.5). -/
structure RI where
  g : Guard
  d : Operand
  a : Operand
  imm : W32
  deriving DecidableEq, Repr

/-- Format M (02 Table 2.6). -/
structure MF where
  g : Guard
  d : Operand
  slot : Fin 64
  idx : Operand
  off : BitVec 24
  fsel : Fin 4
  deriving DecidableEq, Repr

/-- Format M of the atomic points (02 Table 2.7). -/
structure AF where
  g : Guard
  d : Operand
  slot : Fin 64
  idx : Operand
  a : Operand
  aop : Fin 16
  scope : Fin 8
  ord : Fin 4
  aoff : Fin 64
  fsel : Fin 4
  deriving DecidableEq, Repr

/-- Format G (02 Table 2.8). -/
structure GF where
  g : Guard
  d : Operand
  tag : Fin 64
  a : Operand
  b : Operand
  c : Operand
  pd : Fin 8
  imm : Fin 64
  deriving DecidableEq, Repr

/-- Format E (02 Table 2.9). -/
structure EF where
  g : Guard
  d : Operand
  sd : Fin 64
  ss : Fin 64
  sx : Fin 64
  cnt : Operand
  aux : Operand
  chan : Fin 16
  oclass : Fin 4
  deriving DecidableEq, Repr

/-- Format X (02 Table 2.10). -/
structure XF where
  g : Guard
  d : Operand
  xc : Fin 8
  a : Operand
  b : Operand
  pd : Fin 8
  slot : Fin 64
  toff : Fin 1024
  fsel : Fin 4
  deriving DecidableEq, Repr

/-- Format B (02 Table 2.11). -/
structure BF where
  g : Guard
  disp : W32
  reg : Operand
  link : Bool
  deriving DecidableEq, Repr

/-- Format S (02 Table 2.12). -/
structure SF where
  g : Guard
  d : Operand
  sr : BitVec 12
  a : Operand
  b : Operand
  imm : BitVec 12
  deriving DecidableEq, Repr

/-- Format MS (02 Table 2.13). -/
structure MSF where
  acc : Fin 4
  oslot : Fin 8
  tt : BitVec 8
  nb : Fin 16
  k0 : BitVec 8
  kn : BitVec 8
  ti : BitVec 8
  tj : BitVec 8
  mode : Fin 4
  deriving DecidableEq, Repr

/-- A unit that can be retired (25 Table 25.7). -/
inductive UnitId where
  | core (core : Nat)
  | port (core port : Nat)
  | bank (core bank : Nat)
  | channel (die chan : Nat)
  | lane (link lane : Nat)
  deriving DecidableEq, Repr

/-- What the boot finds (04 R65 to R67, 05 R93, 00 R12): whether the flash reads, DRAM trains and memory clears, the units whose
self-test fails (25 R328), and the counter of a device already in the domain. -/
structure BootIn where
  flashReads : Bool
  dramTrained : Bool
  cleared : Bool
  failed : List UnitId
  domainClock : Option Nat
  deriving DecidableEq, Repr

/-- Where an active message comes from: a core's outbound buffer on this part, or another part of the domain, with its target core,
handler, source word, partition, whether it is a reply, and payload (04 R88 to R90). -/
inductive MsgSource where
  | core (core : Nat)
  | remote (core handler src part : Nat) (reply : Bool) (payload : List W32)
  deriving DecidableEq, Repr

/-- What answers an element's request when its owner is another part, CXL memory or the host: the data, or a fabric fault. A request to
this part's own dies is answered by the part itself, and the answer's data is then not used. -/
inductive Answer where
  | data (bytes : List Byte)
  | fault (code : Nat)
  deriving DecidableEq, Repr

/-- A request arriving at an owner die (14 R199). The requester is a die of this part or another part; the host over CXL.mem and Ethernet
ingress are the other sources of 14 R204. -/
inductive Requester where
  | die (d : Nat)
  | part (n : Nat)
  | host
  | ethernet
  deriving DecidableEq, Repr

/-- What a request asks at its owner: bytes read or written (14 R199), a binary32 added to an element (15 R223), a signal added to, set or waited on
(15 R225), a contribution to a
collective with its contributor number and the bytes of its elements, a collective's end, its abandonment or its state (15 R227, R228), a PROBE (15 R231), or the
registration of a sealed range and its end (14 R204). -/
inductive OwnerAct where
  | read (len : Nat)
  | write (bytes : List Byte)
  | fadd (x : Nat)
  | add (x : Nat)
  | set (x : Nat)
  | wait (value : Nat)
  | coll (r : Nat) (bytes : List Byte)
  | ccan
  | cabandon (r : Nat)
  | cstat
  | probe
  | register (len : Nat)
  | unregister (len : Nat)
  deriving DecidableEq, Repr

/-- The request itself: who asks, on which link where that is another part, the owner die, the partition, the offset, what it asks, and whether CXL
memory returns poisoned data. -/
structure OwnerReq where
  src : Requester
  link : Nat
  owner : Nat
  part : Nat
  off : Nat
  act : OwnerAct
  poisoned : Bool
  deriving DecidableEq, Repr

/-- Whose purge a receiver answers: one of this part's pager, or one that comes on a link from another part's owner, of a partition's page and as many
pages as its leaf covers (14 R203). -/
inductive PurgeSource where
  | own (id : Nat)
  | far (link from_ part page span : Nat)
  deriving DecidableEq, Repr

/-- What Fiaris reads of a die's junction (25 R326). -/
structure JunctionReading where
  die : Nat
  temp : Nat
  deriving DecidableEq, Repr

/-- Whose read meets an ECC error: nobody's, a lane's, that of an element of an engine command, or that of a request that arrives at its owner here, whose
table walk meets it or whose read does. -/
inductive EccReader where
  | nobody
  | lane (lk : Nat)
  | engine (cmd ord : Nat)
  | request (r : OwnerReq) (walk : Bool)
  deriving DecidableEq, Repr

/-- Where an ECC event strikes (25 R327): a register row of a group, a scratchpad word, the cavern or a DRAM channel, and whose read meets it. -/
inductive EccAt where
  | row (core gk reg : Nat) (reader : EccReader)
  | scratch (core off : Nat) (reader : EccReader)
  | cavern (die off : Nat) (reader : EccReader)
  | dram (die chan : Nat) (reader : EccReader)
  deriving DecidableEq, Repr

/-- One constructor for each row of the table of operations and events, in its order. Word points carry their decoded fields; events carry
what arrives from outside the part or which of its units acts. -/
inductive Instr where
  | powerOn (b : BootIn)
  | coldReset
  | thermalAlarm (die temp : Nat)
  | thermalShutdown (die temp : Nat)
  | fwStage
  | fwStageComplete (readOk : Bool)
  | fwCommit
  | fwCommitPoint
  | fwDiscard
  | attestationQuote
  | gtsRead (half : Nat)
  | registerWrite (off bytes val : Nat)
  | feedEnable (f ctl : Nat)
  | feedDisable (f : Nat)
  | feedTailWrite (f t readable : Nat)
  | feedTailRead (f : Nat)
  | feedRestart (f : Nat)
  | feedEntryDispatch (f : Nat)
  | workRecordAppend (f : Nat)
  | commandLinkCommand (leaf : Nat) (down take : Bool) (cmd : List Byte)
  | teamPlace (cluster grid : Nat)
  | clusterSteal (cluster grid : Nat)
  | dieSteal (die grid : Nat)
  | grantServe (core : Nat)
  | windowTimeout (w : Nat)
  | taskRun (core : Nat)
  | taskSteal (core : Nat)
  | messageArrive (src : MsgSource)
  | handlerRun (core : Nat)
  | messageRetry (core : Nat)
  | chuteRemotePushArrive (t q : Nat)
  | chuteFreeNotice (t q : Nat)
  | chuteForward (t q : Nat)
  | chutePopNotice (t q : Nat)
  | chuteWithdraw (t q : Nat)
  | chuteCloseNotice (t q : Nat)
  | clauseFetchComplete (gk lane : Nat)
  | issueOpportunity (core port : Nat)
  | parkExpire (gk lane : Nat)
  | yieldExpire (gk lane : Nat)
  | divideComplete (gk op : Nat)
  | fspcComplete (gk op : Nat)
  | memsComplete (gk op : Nat)
  | waitsWake (gk op : Nat)
  | xtldComplete (gk op core : Nat)
  | fenceiComplete (gk op : Nat)
  | sealComplete (gk op : Nat)
  | engineRequestResponse (cmd ord : Nat) (a : Answer)
  | signalUpdate (cmd : Nat) (a : Answer)
  | collContribution (cmd : Nat) (a : Answer)
  | ownerTranslate (r : OwnerReq)
  | requestTimeout (cmd ord : Nat)
  | pageUnmap (die part off : Nat) (pte : W64)
  | purge (id : PurgeSource) (receiver : Nat)
  | purgeComplete (id : Nat)
  | flitReceive (link : Nat) (flit : List Byte)
  | replayRequest (link seq : Nat)
  | linkDown (link : Nat)
  | haltReceive (gk : Nat)
  | handlerStart (t : Nat)
  | launchEnd (grid : Nat)
  | teamSave (t : Nat)
  | pageMapped (page : Nat) (served : Bool)
  | teamRestore (t : Nat)
  | timeSliceExpire (grid : Nat)
  | spatialPreempt (cores : List Nat)
  | spatialWindowExpire
  | groupRetire (gk : Nat)
  | launchComplete (grid : Nat)
  | reportRingControl (off bytes val : Nat)
  | dbgAttachWrite (val : Nat)
  | dbgStopTeam (word : W64)
  | dbgStopCluster (word : W64)
  | dbgStopDie (word : W64)
  | dbgStopDevice (word : W64)
  | dbgResumeTeam (word : W64)
  | dbgResumeCluster (word : W64)
  | dbgResumeDie (word : W64)
  | dbgResumeDevice (word : W64)
  | dbgStep (n : Nat)
  | dbgStepCancel
  | dbgDump (addr : Nat)
  | dumpComplete (ok : Bool)
  | breakpointSet (k half val : Nat)
  | watchpointSet (k val : Nat)
  | dbgTrcWrite (val : Nat)
  | traceSample (core port : Nat)
  | roceRequestWhileHalted (req : Nat)
  | nvmeofKeepAlive (conn : Nat)
  | mailboxWhileHalted (req : Nat)
  | eccCorrected (u : EccAt)
  | eccUncorrectable (u : EccAt)
  | channelMigrate (die chan : Nat)
  | scrub
  | healthRecordUpdate (die : JunctionReading)
  | nop (f : BF)
  | bra (f : BF)
  | brp (f : BF)
  | brrZ (f : BF)
  | brrNz (f : BF)
  | brrLt (f : BF)
  | brrGe (f : BF)
  | loop (f : BF)
  | call (f : BF)
  | calli (f : BF)
  | ret (f : BF)
  | jmpi (f : BF)
  | brt (f : BF)
  | exit (f : BF)
  | park (f : BF)
  | yield (f : BF)
  | add (f : RRR)
  | sub (f : RRR)
  | addc (f : RRR)
  | subb (f : RRR)
  | neg (f : RRR)
  | abs (f : RRR)
  | minS (f : RRR)
  | minN (f : RRR)
  | maxS (f : RRR)
  | maxN (f : RRR)
  | and (f : RRR)
  | or (f : RRR)
  | xor (f : RRR)
  | andn (f : RRR)
  | not (f : RRR)
  | shl (f : RRR)
  | shr (f : RRR)
  | sar (f : RRR)
  | rol (f : RRR)
  | clz (f : RRR)
  | popc (f : RRR)
  | brev (f : RRR)
  | sel (f : RRR)
  | mov (f : RRR)
  | movi (f : RI)
  | lea (f : RI)
  | cmpS (f : RRR)
  | cmpN (f : RRR)
  | iset (f : RRR)
  | plog (f : RRR)
  | add64 (f : RRR)
  | sub64 (f : RRR)
  | mul (f : RRR)
  | mulhS (f : RRR)
  | mulhN (f : RRR)
  | mad (f : RRR)
  | madhS (f : RRR)
  | madhN (f : RRR)
  | mul64S (f : RRR)
  | mul64N (f : RRR)
  | mad64S (f : RRR)
  | mad64N (f : RRR)
  | dot4Ss (f : RRR)
  | dot4Nn (f : RRR)
  | dot4Sn (f : RRR)
  | dot2 (f : RRR)
  | divS (f : RRR)
  | divN (f : RRR)
  | remS (f : RRR)
  | remN (f : RRR)
  | divrS (f : RRR)
  | divrN (f : RRR)
  | div64S (f : RRR)
  | div64N (f : RRR)
  | bfxS (f : RRR)
  | bfxN (f : RRR)
  | bfi (f : RRR)
  | prmb (f : RRR)
  | unpk3 (f : RRR)
  | pack3 (f : RRR)
  | tacc (f : RRR)
  | satnS (f : RRR)
  | satnN (f : RRR)
  | pk16 (f : RRR)
  | upk8S (f : RRR)
  | upk8N (f : RRR)
  | upk4S (f : RRR)
  | upk4N (f : RRR)
  | pkb (f : RRR)
  | msk (f : RRR)
  | faddF32 (f : RRR)
  | faddF16x2 (f : RRR)
  | faddBf16x2 (f : RRR)
  | fsubF32 (f : RRR)
  | fsubF16x2 (f : RRR)
  | fsubBf16x2 (f : RRR)
  | fmulF32 (f : RRR)
  | fmulF16x2 (f : RRR)
  | fmulBf16x2 (f : RRR)
  | fmaF32 (f : RRR)
  | fmaF16x2 (f : RRR)
  | fmaBf16x2 (f : RRR)
  | fminF32 (f : RRR)
  | fminF16x2 (f : RRR)
  | fminBf16x2 (f : RRR)
  | fmaxF32 (f : RRR)
  | fmaxF16x2 (f : RRR)
  | fmaxBf16x2 (f : RRR)
  | fcmpF32 (f : RRR)
  | fcmpF16x2 (f : RRR)
  | fcmpBf16x2 (f : RRR)
  | fsetF32 (f : RRR)
  | fsetF16x2 (f : RRR)
  | fsetBf16x2 (f : RRR)
  | fclsF32 (f : RRR)
  | fclsF16x2 (f : RRR)
  | fclsBf16x2 (f : RRR)
  | fsel (f : RRR)
  | fdot2F16 (f : RRR)
  | fdot2Bf16 (f : RRR)
  | fscl (f : RRR)
  | ffrc (f : RRR)
  | fdivF32 (f : RRR)
  | fdivF16 (f : RRR)
  | fsqrtF32 (f : RRR)
  | fsqrtF16 (f : RRR)
  | frcp (f : RRR)
  | frsq (f : RRR)
  | fexp2 (f : RRR)
  | flog2 (f : RRR)
  | fsin (f : RRR)
  | fcos (f : RRR)
  | frndF32 (f : RRR)
  | frndF16x2 (f : RRR)
  | frndBf16x2 (f : RRR)
  | cvtF32S32 (f : RRR)
  | cvtF32N32 (f : RRR)
  | cvtS32F32 (f : RRR)
  | cvtN32F32 (f : RRR)
  | cvtF16F32 (f : RRR)
  | cvtF32F16 (f : RRR)
  | cvtBf16F32 (f : RRR)
  | cvtF32Bf16 (f : RRR)
  | cvtF16x2F32 (f : RRR)
  | cvtBf16x2F32 (f : RRR)
  | cvtF32S64 (f : RRR)
  | cvtS64F32 (f : RRR)
  | cvtF16Bf16 (f : RRR)
  | cvtBf16F16 (f : RRR)
  | cvtF16S32 (f : RRR)
  | xtld (f : XF)
  | xtrl (f : XF)
  | xrst (f : XF)
  | xdg (f : XF)
  | xdg2 (f : XF)
  | xdu (f : XF)
  | xfin (f : XF)
  | xcmp (f : XF)
  | xstr (f : XF)
  | xstw (f : XF)
  | xlen (f : XF)
  | xqry (f : XF)
  | gsumI32 (f : GF)
  | gsumF32 (f : GF)
  | gsumS64 (f : GF)
  | gminS (f : GF)
  | gminN (f : GF)
  | gminF (f : GF)
  | gmaxS (f : GF)
  | gmaxN (f : GF)
  | gmaxF (f : GF)
  | gand (f : GF)
  | gor (f : GF)
  | gxor (f : GF)
  | gscanI32Inc (f : GF)
  | gscanI32Exc (f : GF)
  | gscanF32Inc (f : GF)
  | gscanF32Exc (f : GF)
  | gsegI32 (f : GF)
  | gsegF32 (f : GF)
  | gbcast (f : GF)
  | gshuf (f : GF)
  | gshufx (f : GF)
  | gvote (f : GF)
  | gcnt (f : GF)
  | gelect (f : GF)
  | grank (f : GF)
  | gsync (f : GF)
  | grow (f : GF)
  | shrink (f : GF)
  | ld8s (f : MF)
  | ld8n (f : MF)
  | ld16s (f : MF)
  | ld16n (f : MF)
  | ld32 (f : MF)
  | ld64 (f : MF)
  | ld128 (f : MF)
  | st8 (f : MF)
  | st16 (f : MF)
  | st32 (f : MF)
  | st64 (f : MF)
  | st128 (f : MF)
  | atom (f : AF)
  | atom64 (f : AF)
  | cas (f : AF)
  | cas64 (f : AF)
  | red (f : AF)
  | red64 (f : AF)
  | ldsp (f : MF)
  | stsp (f : MF)
  | brld (f : MF)
  | chcfg (f : MF)
  | chrd (f : MF)
  | chwr (f : MF)
  | chcnt (f : MF)
  | chcls (f : MF)
  | cpy (f : EF)
  | cpy2 (f : EF)
  | cpyx (f : EF)
  | cpyt (f : EF)
  | mcast (f : EF)
  | fill (f : EF)
  | gath (f : EF)
  | gath64 (f : EF)
  | scat (f : EF)
  | scata (f : EF)
  | scata64 (f : EF)
  | sump (f : EF)
  | sumpw (f : EF)
  | sigAdd (f : EF)
  | sigSet (f : EF)
  | swait (f : EF)
  | coll (f : EF)
  | ccan (f : EF)
  | cstat (f : EF)
  | waitc (f : EF)
  | rdc (f : EF)
  | probe (f : EF)
  | ecan (f : EF)
  | fencee (f : EF)
  | ttset (f : SF)
  | ttget (f : SF)
  | mstart (f : SF)
  | mstop (f : SF)
  | mstat (f : SF)
  | mmac (f : MSF)
  | mzero (f : MSF)
  | mdrain (f : MSF)
  | mbara (f : MSF)
  | mbarw (f : MSF)
  | mloop (f : MSF)
  | mloopEnd (f : MSF)
  | mjmp (f : MSF)
  | mend (f : MSF)
  | mred (f : MSF)
  | mldacc (f : MSF)
  | mstacc (f : MSF)
  | msel (f : MSF)
  | mscl (f : MSF)
  | mwaitc (f : MSF)
  | mnop (f : MSF)
  | fence (f : SF)
  | bar (f : SF)
  | bara (f : SF)
  | barw (f : SF)
  | bari (f : SF)
  | gbara (f : SF)
  | gbarw (f : SF)
  | sealRange (f : SF)
  | unsealEntry (f : SF)
  | waits (f : MF)
  | fencei (f : SF)
  | srd (f : SF)
  | swr (f : SF)
  | trap (f : SF)
  | brk (f : SF)
  | reth (f : SF)
  | launch (f : SF)
  | launchw (f : SF)
  | task (f : SF)
  | taskp (f : SF)
  | tasks (f : SF)
  | amsg (f : SF)
  | amsgr (f : SF)
  | region (f : RI)
  | perf (f : SF)
  | stamp (f : SF)
  | wpset (f : SF)
  | wpclr (f : SF)
  | hint (f : SF)
  | pswr (f : SF)
  | pctx (f : SF)
  | linkRetrainComplete (link : Nat) (lane : Option Nat)
  | partReportedAbsent (n : Nat)
  deriving DecidableEq, Repr

end Sys2Proof
end

