-- ==== Sys2Proof/Machine/Rows.lean ====
section
/-! DEFINITION. What the spec lets each point hold in each of its fields: one row per point, written from the encoding tables of the class
chapters (06 Table 6.1, 08, 10, 12, 07 Table 7.5, 11 Table 11.2, 15 Table 15.2, 17, 18 Table 18.3, 04, 05, 21, 22). The decoder, the encoder,
the well-formedness check and the list of operands a word uses all read these rows. -/

namespace Sys2Proof

/-- How an operand field is used. -/
inductive Dir where
  | src | dst | both
  deriving DecidableEq, Repr

/-- What an operand field of a point may hold (02 R44 to R46): nothing; a plain number; an operand of `w` registers, with the
directions it moves and whether a chute and z are defined in it; a chute number; an even v register; a REGION base (05 R103); an operand
whose alignment the point's own trap decides (04 R80, R90). -/
inductive Slot where
  | unused
  | num (max : Nat)
  | reg (w : Nat) (dir : Dir) (chuteOk zOk : Bool)
  | chute
  | evenV
  | mult32
  | lax (dir : Dir)
  deriving DecidableEq, Repr

/-- The number an operand stands at in the operand space (02 Table 2.3). -/
def Operand.code : Operand → Nat
  | .v n => n.val
  | .q n => 256 + n.val
  | .z => 264

/-- The operand a 9-bit field names (02 Table 2.3); 265 and above are refused before this is used. -/
def Operand.ofCode (n : Nat) : Operand :=
  if h : n < 256 then .v ⟨n, h⟩ else if h : n - 256 < 8 then .q ⟨n - 256, h⟩ else .z

/-- Whether a field value is defined for the slot (02 R46, trap order 2). -/
def Slot.ok2 (s : Slot) (n : Nat) : Bool :=
  match s with
  | .unused => n == 0
  | .num m => n ≤ m
  | .reg _ _ chuteOk zOk => (chuteOk || !(256 ≤ n && n < 264)) && (zOk || n != 264)
  | .chute => 256 ≤ n && n < 264
  | .evenV => n < 256 && n % 2 == 0
  | .mult32 => n % 32 == 0 && (n < 256 || 265 ≤ n)
  | .lax _ => true

/-- Whether a field value names a legal operand for the slot (02 R44, R45, trap order 3). -/
def Slot.ok3 (s : Slot) (n : Nat) : Bool :=
  match s with
  | .reg w _ _ _ => n ≤ 264 && (n == 264 || (256 ≤ n && w != 4) || (n < 256 && n % w == 0))
  | .mult32 => n ≤ 264
  | .lax _ => n ≤ 264
  | _ => true

/-- A legal operand of the slot. -/
def Slot.ok (s : Slot) (o : Operand) : Bool := s.ok2 o.code && s.ok3 o.code

/-- One use of an operand by a word: the operand, its width in registers and its direction. -/
structure Use where
  o : Operand
  w : Nat
  dir : Dir
  deriving DecidableEq, Repr

/-- The use a slot makes of its operand, if it makes one under 02 R44 at all. -/
def Slot.use (s : Slot) (o : Operand) : List Use :=
  match s with
  | .reg w d _ _ => [⟨o, w, d⟩]
  | .lax d => [⟨o, 1, d⟩]
  | .evenV => [⟨o, 2, .src⟩]
  | _ => []

/-- Which predicate destinations a point accepts (02 Table 2.4, 10 R149, 12 R186). -/
inductive PdRule where
  | none | any | even | pair
  deriving DecidableEq, Repr

def PdRule.ok (r : PdRule) (n : Nat) : Bool :=
  match r with
  | .none => n == 0
  | .any => true
  | .even => n == 0 || n == 2 || n == 4 || n == 7
  | .pair => n == 0 || n == 2 || n == 4

/-- Which modifiers a point accepts (08 R132, R138, 10 R149). -/
inductive ModRule where
  | zero | pred | cc | ccn | upto (n : Nat)
  deriving DecidableEq, Repr

def ModRule.ok (r : ModRule) (n : Nat) : Bool :=
  match r with
  | .zero => n == 0
  | .pred => n < 16
  | .cc => n ≤ 5
  | .ccn => n < 16 && n % 8 ≤ 5
  | .upto m => n ≤ m

/-- The number of one bits of a mask. -/
def popCount (n : Nat) : Nat := ((List.range 32).filter (fun i => n.testBit i)).length

/-- Which immediates an RI point accepts (05 R103). -/
inductive ImmRule where
  | any | mask16
  deriving DecidableEq, Repr

def ImmRule.ok (r : ImmRule) (n : Nat) : Bool :=
  match r with
  | .any => true
  | .mask16 => popCount n ≤ 16

/-- Which immediates an S point accepts (18 Table 18.3, 22 R306, and the imm limits of the other S points). -/
inductive SImm where
  | zero | any | upto (n : Nat) | fence | bari | sealKind | wpset
  deriving DecidableEq, Repr

def SImm.ok (r : SImm) (n : Nat) : Bool :=
  match r with
  | .zero => n == 0
  | .any => true
  | .upto m => n ≤ m
  | .fence => n % 4 != 0 && n / 4 ≤ 5
  | .bari => 1 ≤ n / 16 && n / 16 ≤ 129
  | .sealKind => n == 0 || n == 1 || n == 3
  | .wpset => n < 32 && n / 4 % 4 != 0

/-- The special registers of 04 Table 4.4: whether a number stands in the table. -/
def specialKnown (n : Nat) : Bool :=
  [0x000, 0x001, 0x002, 0x003, 0x004, 0x005, 0x006, 0x008, 0x009, 0x00A, 0x00C, 0x010, 0x011, 0x012, 0x014, 0x018, 0x019, 0x01A, 0x01B,
    0x01C, 0x020, 0x021, 0x022].contains n

/-- The 64-bit special registers of 04 Table 4.4. -/
def special64 (n : Nat) : Bool := [0x014, 0x018, 0x019, 0x01A, 0x01C].contains n

/-- Which special-register numbers an S point accepts (04 R79, 21 R298). -/
inductive SrRule where
  | zero | special | priv
  deriving DecidableEq, Repr

def SrRule.ok (r : SrRule) (n : Nat) : Bool :=
  match r with
  | .zero => n == 0
  | .special => specialKnown n
  | .priv => n == 0x800 || n == 0x801

/-- The row of an RRR point. -/
structure RRRRow where
  d : Slot
  a : Slot
  b : Slot
  c : Slot
  pd : PdRule
  sat : Bool
  rm : Bool
  fsel : Bool
  mod : ModRule
  deriving DecidableEq, Repr

structure RIRow where
  d : Slot
  a : Slot
  imm : ImmRule
  deriving DecidableEq, Repr

structure MRow where
  d : Slot
  idx : Slot
  slot : Bool
  off : Bool
  fsel : Bool
  deriving DecidableEq, Repr

structure ARow where
  d : Slot
  a : Slot
  relOnly : Bool
  aopMax : Nat
  deriving DecidableEq, Repr

structure GRow where
  d : Slot
  a : Slot
  b : Slot
  c : Slot
  pd : PdRule
  lo : Nat
  hi : Nat
  ung : Bool
  deriving DecidableEq, Repr

structure ERow where
  oclass : Option Nat
  chanMax : Nat
  d : Slot
  aux : Slot
  cnt : Slot
  sx : Bool
  ss : Bool
  sd : Bool
  deriving DecidableEq, Repr

structure XRow where
  d : Slot
  a : Slot
  b : Slot
  pd : PdRule
  xc : Bool
  slot : Bool
  fsel : Bool
  deriving DecidableEq, Repr

structure BRow where
  link : Bool
  reg : Slot
  disp : Bool
  deriving DecidableEq, Repr

structure SRow where
  d : Slot
  a : Slot
  b : Slot
  sr : SrRule
  imm : SImm
  ung : Bool
  deriving DecidableEq, Repr

/-- The row of a stream point: the largest mode, which fields it uses, whether oslot must be even, and whether bits [61:30] are one field
(02 Table 2.13) that must not be zero. -/
structure MSRow where
  modeMin : Nat
  modeMax : Nat
  acc : Bool
  oslot : Bool
  even : Bool
  tt : Bool
  nb : Bool
  k0 : Bool
  kn : Bool
  tij : Bool
  nonzero : Bool
  deriving DecidableEq, Repr

/-! ## Field checks of one word, as numbers -/

/-- A field that a point does not use must hold 0 (02 R46). -/
def used (b : Bool) (n : Nat) : Bool := b || n == 0

/-- An unguarded word (05 R100, 18 R270). -/
def unguarded (ung : Bool) (w : Nat) : Bool := !ung || bits w 12 9 == 7

def RRRRow.ok2 (r : RRRRow) (w : Nat) : Bool :=
  r.d.ok2 (bits w 21 13) && r.a.ok2 (bits w 30 22) && r.b.ok2 (bits w 39 31) && r.c.ok2 (bits w 48 40) && used r.fsel (bits w 50 49)
    && (if r.rm then bits w 53 51 ≤ 5 else bits w 53 51 == 0) && used r.sat (bits w 54 54) && r.pd.ok (bits w 57 55)
    && r.mod.ok (bits w 63 58)
def RRRRow.ok3 (r : RRRRow) (w : Nat) : Bool :=
  r.d.ok3 (bits w 21 13) && r.a.ok3 (bits w 30 22) && r.b.ok3 (bits w 39 31) && r.c.ok3 (bits w 48 40)
def RIRow.ok2 (r : RIRow) (w : Nat) : Bool :=
  r.d.ok2 (bits w 21 13) && r.a.ok2 (bits w 30 22) && r.imm.ok (bits w 62 31) && bits w 63 63 == 0
def RIRow.ok3 (r : RIRow) (w : Nat) : Bool := r.d.ok3 (bits w 21 13) && r.a.ok3 (bits w 30 22)
def MRow.ok2 (r : MRow) (w : Nat) : Bool :=
  r.d.ok2 (bits w 21 13) && r.idx.ok2 (bits w 36 28) && used r.slot (bits w 27 22) && used r.off (bits w 60 37)
    && used r.fsel (bits w 62 61) && bits w 63 63 == 0
def MRow.ok3 (r : MRow) (w : Nat) : Bool := r.d.ok3 (bits w 21 13) && r.idx.ok3 (bits w 36 28)
/-- The index slot of every atomic point. -/
def idxSlot : Slot := .reg 1 .src true true
def ARow.ok2 (r : ARow) (w : Nat) : Bool :=
  r.d.ok2 (bits w 21 13) && idxSlot.ok2 (bits w 36 28) && r.a.ok2 (bits w 45 37) && bits w 49 46 ≤ r.aopMax && bits w 52 50 != 6
    && (!r.relOnly || bits w 54 53 % 2 == 0) && bits w 63 63 == 0
def ARow.ok3 (r : ARow) (w : Nat) : Bool := r.d.ok3 (bits w 21 13) && idxSlot.ok3 (bits w 36 28) && r.a.ok3 (bits w 45 37)
def GRow.ok2 (r : GRow) (w : Nat) : Bool :=
  r.d.ok2 (bits w 21 13) && r.a.ok2 (bits w 36 28) && r.b.ok2 (bits w 45 37) && r.c.ok2 (bits w 54 46) && r.pd.ok (bits w 57 55)
    && r.lo ≤ bits w 63 58 && bits w 63 58 ≤ r.hi && unguarded r.ung w
def GRow.ok3 (r : GRow) (w : Nat) : Bool :=
  r.d.ok3 (bits w 21 13) && r.a.ok3 (bits w 36 28) && r.b.ok3 (bits w 45 37) && r.c.ok3 (bits w 54 46)
def ERow.ok2 (r : ERow) (w : Nat) : Bool :=
  r.d.ok2 (bits w 21 13) && used r.sd (bits w 27 22) && used r.ss (bits w 33 28) && used r.sx (bits w 39 34) && r.cnt.ok2 (bits w 48 40)
    && r.aux.ok2 (bits w 57 49) && bits w 61 58 ≤ r.chanMax && (match r.oclass with | some k => bits w 63 62 == k | none => true)
def ERow.ok3 (r : ERow) (w : Nat) : Bool := r.d.ok3 (bits w 21 13) && r.cnt.ok3 (bits w 48 40) && r.aux.ok3 (bits w 57 49)
def XRow.ok2 (r : XRow) (w : Nat) : Bool :=
  r.d.ok2 (bits w 21 13) && used r.xc (bits w 24 22) && r.a.ok2 (bits w 33 25) && r.b.ok2 (bits w 42 34) && r.pd.ok (bits w 45 43)
    && used r.slot (bits w 51 46) && used r.slot (bits w 61 52) && used r.fsel (bits w 63 62)
def XRow.ok3 (r : XRow) (w : Nat) : Bool := r.d.ok3 (bits w 21 13) && r.a.ok3 (bits w 33 25) && r.b.ok3 (bits w 42 34)
def BRow.ok2 (r : BRow) (w : Nat) : Bool :=
  bits w 21 13 == 0 && used r.disp (bits w 53 22) && r.reg.ok2 (bits w 62 54) && bits w 63 63 == (if r.link then 1 else 0)
def BRow.ok3 (r : BRow) (w : Nat) : Bool := r.reg.ok3 (bits w 62 54)
def SRow.ok2 (r : SRow) (w : Nat) : Bool :=
  r.d.ok2 (bits w 21 13) && r.sr.ok (bits w 33 22) && r.a.ok2 (bits w 42 34) && r.b.ok2 (bits w 51 43) && r.imm.ok (bits w 63 52)
    && unguarded r.ung w
def SRow.ok3 (r : SRow) (w : Nat) : Bool := r.d.ok3 (bits w 21 13) && r.a.ok3 (bits w 42 34) && r.b.ok3 (bits w 51 43)
def MSRow.ok2 (r : MSRow) (w : Nat) : Bool :=
  bits w 12 9 == 0 && used r.acc (bits w 14 13) && used r.oslot (bits w 17 15) && (!r.even || bits w 15 15 == 0) && used r.tt (bits w 25 18)
    && used r.nb (bits w 29 26) && used r.k0 (bits w 37 30) && used r.kn (bits w 45 38) && used r.tij (bits w 53 46)
    && used r.tij (bits w 61 54) && (!r.nonzero || bits w 61 30 != 0) && r.modeMin ≤ bits w 63 62 && bits w 63 62 ≤ r.modeMax

/-! ## Reading the fields of a word, and laying fields out as a word -/

def fin (n k : Nat) (h : 0 < n := by decide) : Fin n := ⟨k % n, Nat.mod_lt k h⟩

def Guard.ofWord (w : Nat) : Guard := ⟨fin 8 (bits w 11 9), bits w 12 12 == 1⟩
def Guard.pack (g : Guard) : Nat := g.pg.val + 8 * b2n g.neg

def RRR.ofWord (w : Nat) : RRR :=
  ⟨Guard.ofWord w, .ofCode (bits w 21 13), .ofCode (bits w 30 22), .ofCode (bits w 39 31), .ofCode (bits w 48 40), fin 4 (bits w 50 49),
    fin 8 (bits w 53 51), bits w 54 54 == 1, fin 8 (bits w 57 55), fin 64 (bits w 63 58)⟩
def RRR.pack (op : Nat) (f : RRR) : Nat :=
  op + 2 ^ 9 * f.g.pack + 2 ^ 13 * f.d.code + 2 ^ 22 * f.a.code + 2 ^ 31 * f.b.code + 2 ^ 40 * f.c.code + 2 ^ 49 * f.fsel.val
    + 2 ^ 51 * f.rm.val + 2 ^ 54 * b2n f.sat + 2 ^ 55 * f.pd.val + 2 ^ 58 * f.mod.val
def RI.ofWord (w : Nat) : RI := ⟨Guard.ofWord w, .ofCode (bits w 21 13), .ofCode (bits w 30 22), BitVec.ofNat 32 (bits w 62 31)⟩
def RI.pack (op : Nat) (f : RI) : Nat := op + 2 ^ 9 * f.g.pack + 2 ^ 13 * f.d.code + 2 ^ 22 * f.a.code + 2 ^ 31 * f.imm.toNat
def MF.ofWord (w : Nat) : MF :=
  ⟨Guard.ofWord w, .ofCode (bits w 21 13), fin 64 (bits w 27 22), .ofCode (bits w 36 28), BitVec.ofNat 24 (bits w 60 37), fin 4 (bits w 62 61)⟩
def MF.pack (op : Nat) (f : MF) : Nat :=
  op + 2 ^ 9 * f.g.pack + 2 ^ 13 * f.d.code + 2 ^ 22 * f.slot.val + 2 ^ 28 * f.idx.code + 2 ^ 37 * f.off.toNat + 2 ^ 61 * f.fsel.val
def AF.ofWord (w : Nat) : AF :=
  ⟨Guard.ofWord w, .ofCode (bits w 21 13), fin 64 (bits w 27 22), .ofCode (bits w 36 28), .ofCode (bits w 45 37), fin 16 (bits w 49 46),
    fin 8 (bits w 52 50), fin 4 (bits w 54 53), fin 64 (bits w 60 55), fin 4 (bits w 62 61)⟩
def AF.pack (op : Nat) (f : AF) : Nat :=
  op + 2 ^ 9 * f.g.pack + 2 ^ 13 * f.d.code + 2 ^ 22 * f.slot.val + 2 ^ 28 * f.idx.code + 2 ^ 37 * f.a.code + 2 ^ 46 * f.aop.val
    + 2 ^ 50 * f.scope.val + 2 ^ 53 * f.ord.val + 2 ^ 55 * f.aoff.val + 2 ^ 61 * f.fsel.val
def GF.ofWord (w : Nat) : GF :=
  ⟨Guard.ofWord w, .ofCode (bits w 21 13), fin 64 (bits w 27 22), .ofCode (bits w 36 28), .ofCode (bits w 45 37), .ofCode (bits w 54 46),
    fin 8 (bits w 57 55), fin 64 (bits w 63 58)⟩
def GF.pack (op : Nat) (f : GF) : Nat :=
  op + 2 ^ 9 * f.g.pack + 2 ^ 13 * f.d.code + 2 ^ 22 * f.tag.val + 2 ^ 28 * f.a.code + 2 ^ 37 * f.b.code + 2 ^ 46 * f.c.code
    + 2 ^ 55 * f.pd.val + 2 ^ 58 * f.imm.val
def EF.ofWord (w : Nat) : EF :=
  ⟨Guard.ofWord w, .ofCode (bits w 21 13), fin 64 (bits w 27 22), fin 64 (bits w 33 28), fin 64 (bits w 39 34), .ofCode (bits w 48 40),
    .ofCode (bits w 57 49), fin 16 (bits w 61 58), fin 4 (bits w 63 62)⟩
def EF.pack (op : Nat) (f : EF) : Nat :=
  op + 2 ^ 9 * f.g.pack + 2 ^ 13 * f.d.code + 2 ^ 22 * f.sd.val + 2 ^ 28 * f.ss.val + 2 ^ 34 * f.sx.val + 2 ^ 40 * f.cnt.code
    + 2 ^ 49 * f.aux.code + 2 ^ 58 * f.chan.val + 2 ^ 62 * f.oclass.val
def XF.ofWord (w : Nat) : XF :=
  ⟨Guard.ofWord w, .ofCode (bits w 21 13), fin 8 (bits w 24 22), .ofCode (bits w 33 25), .ofCode (bits w 42 34), fin 8 (bits w 45 43),
    fin 64 (bits w 51 46), fin 1024 (bits w 61 52), fin 4 (bits w 63 62)⟩
def XF.pack (op : Nat) (f : XF) : Nat :=
  op + 2 ^ 9 * f.g.pack + 2 ^ 13 * f.d.code + 2 ^ 22 * f.xc.val + 2 ^ 25 * f.a.code + 2 ^ 34 * f.b.code + 2 ^ 43 * f.pd.val
    + 2 ^ 46 * f.slot.val + 2 ^ 52 * f.toff.val + 2 ^ 62 * f.fsel.val
def BF.ofWord (w : Nat) : BF := ⟨Guard.ofWord w, BitVec.ofNat 32 (bits w 53 22), .ofCode (bits w 62 54), bits w 63 63 == 1⟩
def BF.pack (op : Nat) (f : BF) : Nat :=
  op + 2 ^ 9 * f.g.pack + 2 ^ 22 * f.disp.toNat + 2 ^ 54 * f.reg.code + 2 ^ 63 * b2n f.link
def SF.ofWord (w : Nat) : SF :=
  ⟨Guard.ofWord w, .ofCode (bits w 21 13), BitVec.ofNat 12 (bits w 33 22), .ofCode (bits w 42 34), .ofCode (bits w 51 43),
    BitVec.ofNat 12 (bits w 63 52)⟩
def SF.pack (op : Nat) (f : SF) : Nat :=
  op + 2 ^ 9 * f.g.pack + 2 ^ 13 * f.d.code + 2 ^ 22 * f.sr.toNat + 2 ^ 34 * f.a.code + 2 ^ 43 * f.b.code + 2 ^ 52 * f.imm.toNat
def MSF.ofWord (w : Nat) : MSF :=
  ⟨fin 4 (bits w 14 13), fin 8 (bits w 17 15), BitVec.ofNat 8 (bits w 25 18), fin 16 (bits w 29 26), BitVec.ofNat 8 (bits w 37 30),
    BitVec.ofNat 8 (bits w 45 38), BitVec.ofNat 8 (bits w 53 46), BitVec.ofNat 8 (bits w 61 54), fin 4 (bits w 63 62)⟩
def MSF.pack (op : Nat) (f : MSF) : Nat :=
  op + 2 ^ 13 * f.acc.val + 2 ^ 15 * f.oslot.val + 2 ^ 18 * f.tt.toNat + 2 ^ 26 * f.nb.val + 2 ^ 30 * f.k0.toNat + 2 ^ 38 * f.kn.toNat
    + 2 ^ 46 * f.ti.toNat + 2 ^ 54 * f.tj.toNat + 2 ^ 62 * f.mode.val
/-- Bits [61:30] of MLOOP and MJMP as one number (02 Table 2.13). -/
def MSF.wide (f : MSF) : Nat := f.k0.toNat + 2 ^ 8 * f.kn.toNat + 2 ^ 16 * f.ti.toNat + 2 ^ 24 * f.tj.toNat

/-! ## Operands a word uses, in the operand order of 07 R117 (a, b, c, idx, reg, d, aux, cnt) -/

def RRRRow.uses (r : RRRRow) (f : RRR) : List Use := r.a.use f.a ++ r.b.use f.b ++ r.c.use f.c ++ r.d.use f.d
def RIRow.uses (r : RIRow) (f : RI) : List Use := r.a.use f.a ++ r.d.use f.d
def MRow.uses (r : MRow) (f : MF) : List Use := r.idx.use f.idx ++ r.d.use f.d
def ARow.uses (r : ARow) (f : AF) : List Use := r.a.use f.a ++ idxSlot.use f.idx ++ r.d.use f.d
def GRow.uses (r : GRow) (f : GF) : List Use := r.a.use f.a ++ r.b.use f.b ++ r.c.use f.c ++ r.d.use f.d
def ERow.uses (r : ERow) (f : EF) : List Use := r.d.use f.d ++ r.aux.use f.aux ++ r.cnt.use f.cnt
def XRow.uses (r : XRow) (f : XF) : List Use := r.a.use f.a ++ r.b.use f.b ++ r.d.use f.d
def BRow.uses (r : BRow) (f : BF) : List Use := r.reg.use f.reg
def SRow.uses (r : SRow) (f : SF) : List Use := r.a.use f.a ++ r.b.use f.b ++ r.d.use f.d

/-! ## The rows, one per point -/

namespace Rows

def add : RRRRow := ⟨(.reg 1 .dst true true), (.reg 1 .src true true), (.reg 1 .src true true), .unused, .none, true, false, false, .zero⟩
def sub : RRRRow := ⟨(.reg 1 .dst true true), (.reg 1 .src true true), (.reg 1 .src true true), .unused, .none, true, false, false, .zero⟩
def addc : RRRRow := ⟨(.reg 1 .dst true true), (.reg 1 .src true true), (.reg 1 .src true true), .unused, .any, false, false, false, .pred⟩
def subb : RRRRow := ⟨(.reg 1 .dst true true), (.reg 1 .src true true), (.reg 1 .src true true), .unused, .any, false, false, false, .pred⟩
def neg : RRRRow := ⟨(.reg 1 .dst true true), (.reg 1 .src true true), .unused, .unused, .none, true, false, false, .zero⟩
def abs : RRRRow := ⟨(.reg 1 .dst true true), (.reg 1 .src true true), .unused, .unused, .none, true, false, false, .zero⟩
def minS : RRRRow := ⟨(.reg 1 .dst true true), (.reg 1 .src true true), (.reg 1 .src true true), .unused, .none, false, false, false, .zero⟩
def minN : RRRRow := ⟨(.reg 1 .dst true true), (.reg 1 .src true true), (.reg 1 .src true true), .unused, .none, false, false, false, .zero⟩
def maxS : RRRRow := ⟨(.reg 1 .dst true true), (.reg 1 .src true true), (.reg 1 .src true true), .unused, .none, false, false, false, .zero⟩
def maxN : RRRRow := ⟨(.reg 1 .dst true true), (.reg 1 .src true true), (.reg 1 .src true true), .unused, .none, false, false, false, .zero⟩
def and : RRRRow := ⟨(.reg 1 .dst true true), (.reg 1 .src true true), (.reg 1 .src true true), .unused, .none, false, false, false, .zero⟩
def or : RRRRow := ⟨(.reg 1 .dst true true), (.reg 1 .src true true), (.reg 1 .src true true), .unused, .none, false, false, false, .zero⟩
def xor : RRRRow := ⟨(.reg 1 .dst true true), (.reg 1 .src true true), (.reg 1 .src true true), .unused, .none, false, false, false, .zero⟩
def andn : RRRRow := ⟨(.reg 1 .dst true true), (.reg 1 .src true true), (.reg 1 .src true true), .unused, .none, false, false, false, .zero⟩
def not : RRRRow := ⟨(.reg 1 .dst true true), (.reg 1 .src true true), .unused, .unused, .none, false, false, false, .zero⟩
def shl : RRRRow := ⟨(.reg 1 .dst true true), (.reg 1 .src true true), (.reg 1 .src true true), .unused, .none, false, false, false, .zero⟩
def shr : RRRRow := ⟨(.reg 1 .dst true true), (.reg 1 .src true true), (.reg 1 .src true true), .unused, .none, false, false, false, .zero⟩
def sar : RRRRow := ⟨(.reg 1 .dst true true), (.reg 1 .src true true), (.reg 1 .src true true), .unused, .none, false, false, false, .zero⟩
def rol : RRRRow := ⟨(.reg 1 .dst true true), (.reg 1 .src true true), (.reg 1 .src true true), .unused, .none, false, false, false, .zero⟩
def clz : RRRRow := ⟨(.reg 1 .dst true true), (.reg 1 .src true true), .unused, .unused, .none, false, false, false, .zero⟩
def popc : RRRRow := ⟨(.reg 1 .dst true true), (.reg 1 .src true true), .unused, .unused, .none, false, false, false, .zero⟩
def brev : RRRRow := ⟨(.reg 1 .dst true true), (.reg 1 .src true true), .unused, .unused, .none, false, false, false, .zero⟩
def sel : RRRRow := ⟨(.reg 1 .dst true true), (.reg 1 .src true true), (.reg 1 .src true true), .unused, .none, false, false, false, .pred⟩
def mov : RRRRow := ⟨(.reg 1 .dst true true), (.reg 1 .src true true), .unused, .unused, .none, false, false, false, .zero⟩
def movi : RIRow := ⟨(.reg 1 .dst true true), .unused, .any⟩
def lea : RIRow := ⟨(.reg 1 .dst true true), (.reg 1 .src true true), .any⟩
def cmpS : RRRRow := ⟨.unused, (.reg 1 .src true true), (.reg 1 .src true true), .unused, .any, false, false, false, .cc⟩
def cmpN : RRRRow := ⟨.unused, (.reg 1 .src true true), (.reg 1 .src true true), .unused, .any, false, false, false, .cc⟩
def iset : RRRRow := ⟨(.reg 1 .dst true true), (.reg 1 .src true true), (.reg 1 .src true true), .unused, .none, false, false, false, .ccn⟩
def plog : RRRRow := ⟨.unused, (.num 7), (.num 7), (.num 15), .any, false, false, false, .zero⟩
def add64 : RRRRow := ⟨(.reg 2 .dst true true), (.reg 2 .src true true), (.reg 2 .src true true), .unused, .none, true, false, false, .zero⟩
def sub64 : RRRRow := ⟨(.reg 2 .dst true true), (.reg 2 .src true true), (.reg 2 .src true true), .unused, .none, true, false, false, .zero⟩
def mul : RRRRow := ⟨(.reg 1 .dst true true), (.reg 1 .src true true), (.reg 1 .src true true), .unused, .none, true, false, false, .zero⟩
def mulhS : RRRRow := ⟨(.reg 1 .dst true true), (.reg 1 .src true true), (.reg 1 .src true true), .unused, .none, false, false, false, .zero⟩
def mulhN : RRRRow := ⟨(.reg 1 .dst true true), (.reg 1 .src true true), (.reg 1 .src true true), .unused, .none, false, false, false, .zero⟩
def mad : RRRRow := ⟨(.reg 1 .dst true true), (.reg 1 .src true true), (.reg 1 .src true true), (.reg 1 .src true true), .none, true, false, false, .zero⟩
def madhS : RRRRow := ⟨(.reg 1 .dst true true), (.reg 1 .src true true), (.reg 1 .src true true), (.reg 1 .src true true), .none, false, false, false, .zero⟩
def madhN : RRRRow := ⟨(.reg 1 .dst true true), (.reg 1 .src true true), (.reg 1 .src true true), (.reg 1 .src true true), .none, false, false, false, .zero⟩
def mul64S : RRRRow := ⟨(.reg 2 .dst true true), (.reg 1 .src true true), (.reg 1 .src true true), .unused, .none, false, false, false, .zero⟩
def mul64N : RRRRow := ⟨(.reg 2 .dst true true), (.reg 1 .src true true), (.reg 1 .src true true), .unused, .none, false, false, false, .zero⟩
def mad64S : RRRRow := ⟨(.reg 2 .dst true true), (.reg 1 .src true true), (.reg 1 .src true true), (.reg 2 .src true true), .none, false, false, false, .zero⟩
def mad64N : RRRRow := ⟨(.reg 2 .dst true true), (.reg 1 .src true true), (.reg 1 .src true true), (.reg 2 .src true true), .none, false, false, false, .zero⟩
def dot4Ss : RRRRow := ⟨(.reg 1 .dst true true), (.reg 1 .src true true), (.reg 1 .src true true), (.reg 1 .src true true), .none, true, false, false, .zero⟩
def dot4Nn : RRRRow := ⟨(.reg 1 .dst true true), (.reg 1 .src true true), (.reg 1 .src true true), (.reg 1 .src true true), .none, true, false, false, .zero⟩
def dot4Sn : RRRRow := ⟨(.reg 1 .dst true true), (.reg 1 .src true true), (.reg 1 .src true true), (.reg 1 .src true true), .none, true, false, false, .zero⟩
def dot2 : RRRRow := ⟨(.reg 1 .dst true true), (.reg 1 .src true true), (.reg 1 .src true true), (.reg 1 .src true true), .none, true, false, false, .zero⟩
def divS : RRRRow := ⟨(.reg 1 .dst false true), (.reg 1 .src true true), (.reg 1 .src true true), .unused, .none, false, false, true, .zero⟩
def divN : RRRRow := ⟨(.reg 1 .dst false true), (.reg 1 .src true true), (.reg 1 .src true true), .unused, .none, false, false, true, .zero⟩
def remS : RRRRow := ⟨(.reg 1 .dst false true), (.reg 1 .src true true), (.reg 1 .src true true), .unused, .none, false, false, true, .zero⟩
def remN : RRRRow := ⟨(.reg 1 .dst false true), (.reg 1 .src true true), (.reg 1 .src true true), .unused, .none, false, false, true, .zero⟩
def divrS : RRRRow := ⟨(.reg 1 .dst false true), (.reg 1 .src true true), (.reg 1 .src true true), .unused, .none, false, true, true, .zero⟩
def divrN : RRRRow := ⟨(.reg 1 .dst false true), (.reg 1 .src true true), (.reg 1 .src true true), .unused, .none, false, true, true, .zero⟩
def div64S : RRRRow := ⟨(.reg 2 .dst false true), (.reg 2 .src true true), (.reg 2 .src true true), .unused, .none, false, false, true, .zero⟩
def div64N : RRRRow := ⟨(.reg 2 .dst false true), (.reg 2 .src true true), (.reg 2 .src true true), .unused, .none, false, false, true, .zero⟩
def bfxS : RRRRow := ⟨(.reg 1 .dst true true), (.reg 1 .src true true), (.reg 1 .src true true), .unused, .none, false, false, false, .zero⟩
def bfxN : RRRRow := ⟨(.reg 1 .dst true true), (.reg 1 .src true true), (.reg 1 .src true true), .unused, .none, false, false, false, .zero⟩
def bfi : RRRRow := ⟨(.reg 1 .dst true true), (.reg 1 .src true true), (.reg 1 .src true true), (.reg 1 .src true true), .none, false, false, false, .zero⟩
def prmb : RRRRow := ⟨(.reg 1 .dst true true), (.reg 1 .src true true), (.reg 1 .src true true), (.reg 1 .src true true), .none, false, false, false, .zero⟩
def unpk3 : RRRRow := ⟨(.reg 1 .dst true true), (.reg 1 .src true true), .unused, .unused, .none, false, false, false, (.upto 7)⟩
def pack3 : RRRRow := ⟨(.reg 1 .dst true true), (.reg 1 .src true true), .unused, (.reg 1 .src true true), .none, false, false, false, (.upto 7)⟩
def tacc : RRRRow := ⟨(.reg 1 .both false true), (.reg 1 .src true true), (.reg 2 .src true true), .unused, .none, false, false, false, (.upto 3)⟩
def satnS : RRRRow := ⟨(.reg 1 .dst true true), (.reg 1 .src true true), .unused, .unused, .none, false, false, false, (.upto 31)⟩
def satnN : RRRRow := ⟨(.reg 1 .dst true true), (.reg 1 .src true true), .unused, .unused, .none, false, false, false, (.upto 31)⟩
def pk16 : RRRRow := ⟨(.reg 1 .dst true true), (.reg 1 .src true true), (.reg 1 .src true true), .unused, .none, true, false, false, .zero⟩
def upk8S : RRRRow := ⟨(.reg 4 .dst true true), (.reg 1 .src true true), .unused, .unused, .none, false, false, false, .zero⟩
def upk8N : RRRRow := ⟨(.reg 4 .dst true true), (.reg 1 .src true true), .unused, .unused, .none, false, false, false, .zero⟩
def upk4S : RRRRow := ⟨(.reg 4 .dst true true), (.reg 1 .src true true), .unused, .unused, .none, false, false, false, (.upto 1)⟩
def upk4N : RRRRow := ⟨(.reg 4 .dst true true), (.reg 1 .src true true), .unused, .unused, .none, false, false, false, (.upto 1)⟩
def pkb : RRRRow := ⟨(.reg 1 .dst true true), (.reg 4 .src true true), .unused, .unused, .none, true, false, false, .zero⟩
def msk : RRRRow := ⟨(.reg 1 .dst true true), (.reg 1 .src true true), (.reg 1 .src true true), .unused, .none, false, false, false, .zero⟩
def faddF32 : RRRRow := ⟨(.reg 1 .dst true true), (.reg 1 .src true true), (.reg 1 .src true true), .unused, .none, false, true, false, .zero⟩
def faddF16x2 : RRRRow := ⟨(.reg 1 .dst true true), (.reg 1 .src true true), (.reg 1 .src true true), .unused, .none, false, true, false, .zero⟩
def faddBf16x2 : RRRRow := ⟨(.reg 1 .dst true true), (.reg 1 .src true true), (.reg 1 .src true true), .unused, .none, false, true, false, .zero⟩
def fsubF32 : RRRRow := ⟨(.reg 1 .dst true true), (.reg 1 .src true true), (.reg 1 .src true true), .unused, .none, false, true, false, .zero⟩
def fsubF16x2 : RRRRow := ⟨(.reg 1 .dst true true), (.reg 1 .src true true), (.reg 1 .src true true), .unused, .none, false, true, false, .zero⟩
def fsubBf16x2 : RRRRow := ⟨(.reg 1 .dst true true), (.reg 1 .src true true), (.reg 1 .src true true), .unused, .none, false, true, false, .zero⟩
def fmulF32 : RRRRow := ⟨(.reg 1 .dst true true), (.reg 1 .src true true), (.reg 1 .src true true), .unused, .none, false, true, false, .zero⟩
def fmulF16x2 : RRRRow := ⟨(.reg 1 .dst true true), (.reg 1 .src true true), (.reg 1 .src true true), .unused, .none, false, true, false, .zero⟩
def fmulBf16x2 : RRRRow := ⟨(.reg 1 .dst true true), (.reg 1 .src true true), (.reg 1 .src true true), .unused, .none, false, true, false, .zero⟩
def fmaF32 : RRRRow := ⟨(.reg 1 .dst true true), (.reg 1 .src true true), (.reg 1 .src true true), (.reg 1 .src true true), .none, false, true, false, .zero⟩
def fmaF16x2 : RRRRow := ⟨(.reg 1 .dst true true), (.reg 1 .src true true), (.reg 1 .src true true), (.reg 1 .src true true), .none, false, true, false, .zero⟩
def fmaBf16x2 : RRRRow := ⟨(.reg 1 .dst true true), (.reg 1 .src true true), (.reg 1 .src true true), (.reg 1 .src true true), .none, false, true, false, .zero⟩
def fminF32 : RRRRow := ⟨(.reg 1 .dst true true), (.reg 1 .src true true), (.reg 1 .src true true), .unused, .none, false, false, false, .zero⟩
def fminF16x2 : RRRRow := ⟨(.reg 1 .dst true true), (.reg 1 .src true true), (.reg 1 .src true true), .unused, .none, false, false, false, .zero⟩
def fminBf16x2 : RRRRow := ⟨(.reg 1 .dst true true), (.reg 1 .src true true), (.reg 1 .src true true), .unused, .none, false, false, false, .zero⟩
def fmaxF32 : RRRRow := ⟨(.reg 1 .dst true true), (.reg 1 .src true true), (.reg 1 .src true true), .unused, .none, false, false, false, .zero⟩
def fmaxF16x2 : RRRRow := ⟨(.reg 1 .dst true true), (.reg 1 .src true true), (.reg 1 .src true true), .unused, .none, false, false, false, .zero⟩
def fmaxBf16x2 : RRRRow := ⟨(.reg 1 .dst true true), (.reg 1 .src true true), (.reg 1 .src true true), .unused, .none, false, false, false, .zero⟩
def fcmpF32 : RRRRow := ⟨.unused, (.reg 1 .src true true), (.reg 1 .src true true), .unused, .any, false, false, false, (.upto 7)⟩
def fcmpF16x2 : RRRRow := ⟨.unused, (.reg 1 .src true true), (.reg 1 .src true true), .unused, .even, false, false, false, (.upto 7)⟩
def fcmpBf16x2 : RRRRow := ⟨.unused, (.reg 1 .src true true), (.reg 1 .src true true), .unused, .even, false, false, false, (.upto 7)⟩
def fsetF32 : RRRRow := ⟨(.reg 1 .dst true true), (.reg 1 .src true true), (.reg 1 .src true true), .unused, .none, false, false, false, (.upto 7)⟩
def fsetF16x2 : RRRRow := ⟨(.reg 1 .dst true true), (.reg 1 .src true true), (.reg 1 .src true true), .unused, .none, false, false, false, (.upto 7)⟩
def fsetBf16x2 : RRRRow := ⟨(.reg 1 .dst true true), (.reg 1 .src true true), (.reg 1 .src true true), .unused, .none, false, false, false, (.upto 7)⟩
def fclsF32 : RRRRow := ⟨(.reg 1 .dst true true), (.reg 1 .src true true), .unused, .unused, .none, false, false, false, .zero⟩
def fclsF16x2 : RRRRow := ⟨(.reg 1 .dst true true), (.reg 1 .src true true), .unused, .unused, .none, false, false, false, .zero⟩
def fclsBf16x2 : RRRRow := ⟨(.reg 1 .dst true true), (.reg 1 .src true true), .unused, .unused, .none, false, false, false, .zero⟩
def fsel : RRRRow := ⟨(.reg 1 .dst true true), (.reg 1 .src true true), (.reg 1 .src true true), .unused, .none, false, false, false, .pred⟩
def fdot2F16 : RRRRow := ⟨(.reg 1 .dst true true), (.reg 1 .src true true), (.reg 1 .src true true), (.reg 1 .src true true), .none, false, true, false, .zero⟩
def fdot2Bf16 : RRRRow := ⟨(.reg 1 .dst true true), (.reg 1 .src true true), (.reg 1 .src true true), (.reg 1 .src true true), .none, false, true, false, .zero⟩
def fscl : RRRRow := ⟨(.reg 1 .dst true true), (.reg 1 .src true true), (.reg 1 .src true true), .unused, .none, false, true, false, .zero⟩
def ffrc : RRRRow := ⟨(.reg 1 .dst true true), (.reg 1 .src true true), .unused, .unused, .none, false, true, false, .zero⟩
def fdivF32 : RRRRow := ⟨(.reg 1 .dst false true), (.reg 1 .src true true), (.reg 1 .src true true), .unused, .none, false, true, true, .zero⟩
def fdivF16 : RRRRow := ⟨(.reg 1 .dst false true), (.reg 1 .src true true), (.reg 1 .src true true), .unused, .none, false, true, true, .zero⟩
def fsqrtF32 : RRRRow := ⟨(.reg 1 .dst false true), (.reg 1 .src true true), .unused, .unused, .none, false, true, true, .zero⟩
def fsqrtF16 : RRRRow := ⟨(.reg 1 .dst false true), (.reg 1 .src true true), .unused, .unused, .none, false, true, true, .zero⟩
def frcp : RRRRow := ⟨(.reg 1 .dst false true), (.reg 1 .src true true), .unused, .unused, .none, false, false, true, .zero⟩
def frsq : RRRRow := ⟨(.reg 1 .dst false true), (.reg 1 .src true true), .unused, .unused, .none, false, false, true, .zero⟩
def fexp2 : RRRRow := ⟨(.reg 1 .dst false true), (.reg 1 .src true true), .unused, .unused, .none, false, false, true, .zero⟩
def flog2 : RRRRow := ⟨(.reg 1 .dst false true), (.reg 1 .src true true), .unused, .unused, .none, false, false, true, .zero⟩
def fsin : RRRRow := ⟨(.reg 1 .dst false true), (.reg 1 .src true true), .unused, .unused, .none, false, false, true, .zero⟩
def fcos : RRRRow := ⟨(.reg 1 .dst false true), (.reg 1 .src true true), .unused, .unused, .none, false, false, true, .zero⟩
def frndF32 : RRRRow := ⟨(.reg 1 .dst false true), (.reg 1 .src true true), .unused, .unused, .none, false, true, true, .zero⟩
def frndF16x2 : RRRRow := ⟨(.reg 1 .dst false true), (.reg 1 .src true true), .unused, .unused, .none, false, true, true, .zero⟩
def frndBf16x2 : RRRRow := ⟨(.reg 1 .dst false true), (.reg 1 .src true true), .unused, .unused, .none, false, true, true, .zero⟩
def cvtF32S32 : RRRRow := ⟨(.reg 1 .dst false true), (.reg 1 .src true true), .unused, .unused, .none, false, true, true, .zero⟩
def cvtF32N32 : RRRRow := ⟨(.reg 1 .dst false true), (.reg 1 .src true true), .unused, .unused, .none, false, true, true, .zero⟩
def cvtS32F32 : RRRRow := ⟨(.reg 1 .dst false true), (.reg 1 .src true true), .unused, .unused, .none, false, true, true, .zero⟩
def cvtN32F32 : RRRRow := ⟨(.reg 1 .dst false true), (.reg 1 .src true true), .unused, .unused, .none, false, true, true, .zero⟩
def cvtF16F32 : RRRRow := ⟨(.reg 1 .dst false true), (.reg 1 .src true true), .unused, .unused, .none, false, true, true, .zero⟩
def cvtF32F16 : RRRRow := ⟨(.reg 1 .dst false true), (.reg 1 .src true true), .unused, .unused, .none, false, false, true, .zero⟩
def cvtBf16F32 : RRRRow := ⟨(.reg 1 .dst false true), (.reg 1 .src true true), .unused, .unused, .none, false, true, true, .zero⟩
def cvtF32Bf16 : RRRRow := ⟨(.reg 1 .dst false true), (.reg 1 .src true true), .unused, .unused, .none, false, false, true, .zero⟩
def cvtF16x2F32 : RRRRow := ⟨(.reg 1 .dst false true), (.reg 1 .src true true), (.reg 1 .src true true), .unused, .none, false, true, true, .zero⟩
def cvtBf16x2F32 : RRRRow := ⟨(.reg 1 .dst false true), (.reg 1 .src true true), (.reg 1 .src true true), .unused, .none, false, true, true, .zero⟩
def cvtF32S64 : RRRRow := ⟨(.reg 1 .dst false true), (.reg 2 .src true true), .unused, .unused, .none, false, true, true, .zero⟩
def cvtS64F32 : RRRRow := ⟨(.reg 2 .dst false true), (.reg 1 .src true true), .unused, .unused, .none, false, true, true, .zero⟩
def cvtF16Bf16 : RRRRow := ⟨(.reg 1 .dst false true), (.reg 1 .src true true), .unused, .unused, .none, false, true, true, .zero⟩
def cvtBf16F16 : RRRRow := ⟨(.reg 1 .dst false true), (.reg 1 .src true true), .unused, .unused, .none, false, true, true, .zero⟩
def cvtF16S32 : RRRRow := ⟨(.reg 1 .dst false true), (.reg 1 .src true true), .unused, .unused, .none, false, true, true, .zero⟩
def xtld : XRow := ⟨.unused, .unused, .unused, .none, true, true, true⟩
def xtrl : XRow := ⟨.unused, .unused, .unused, .none, true, false, false⟩
def xrst : XRow := ⟨.unused, .unused, .unused, .none, true, false, false⟩
def xdg : XRow := ⟨(.reg 1 .dst true true), (.reg 1 .src true true), (.reg 1 .src true true), .none, true, false, false⟩
def xdg2 : XRow := ⟨(.reg 2 .dst true true), (.reg 2 .src true true), (.reg 2 .src true true), .none, true, false, false⟩
def xdu : XRow := ⟨(.reg 1 .dst true true), (.reg 1 .src true true), .unused, .none, true, false, false⟩
def xfin : XRow := ⟨(.reg 1 .dst true true), .unused, .unused, .none, true, false, false⟩
def xcmp : XRow := ⟨.unused, .unused, .unused, .pair, true, false, false⟩
def xstr : XRow := ⟨(.reg 1 .dst true true), .unused, .unused, .none, false, false, false⟩
def xstw : XRow := ⟨.unused, (.reg 1 .src true true), .unused, .none, false, false, false⟩
def xlen : XRow := ⟨(.reg 1 .dst true true), (.reg 1 .src true true), .unused, .none, true, false, false⟩
def xqry : XRow := ⟨(.reg 1 .dst true true), .unused, .unused, .none, true, false, false⟩
def gsumI32 : GRow := ⟨(.reg 1 .dst false true), (.reg 1 .src false true), .unused, .unused, .none, 0, 0, false⟩
def gsumF32 : GRow := ⟨(.reg 1 .dst false true), (.reg 1 .src false true), .unused, .unused, .none, 0, 0, false⟩
def gsumS64 : GRow := ⟨(.reg 2 .dst false true), (.reg 2 .src false true), .unused, .unused, .none, 0, 0, false⟩
def gminS : GRow := ⟨(.reg 1 .dst false true), (.reg 1 .src false true), .unused, .unused, .none, 0, 0, false⟩
def gminN : GRow := ⟨(.reg 1 .dst false true), (.reg 1 .src false true), .unused, .unused, .none, 0, 0, false⟩
def gminF : GRow := ⟨(.reg 1 .dst false true), (.reg 1 .src false true), .unused, .unused, .none, 0, 0, false⟩
def gmaxS : GRow := ⟨(.reg 1 .dst false true), (.reg 1 .src false true), .unused, .unused, .none, 0, 0, false⟩
def gmaxN : GRow := ⟨(.reg 1 .dst false true), (.reg 1 .src false true), .unused, .unused, .none, 0, 0, false⟩
def gmaxF : GRow := ⟨(.reg 1 .dst false true), (.reg 1 .src false true), .unused, .unused, .none, 0, 0, false⟩
def gand : GRow := ⟨(.reg 1 .dst false true), (.reg 1 .src false true), .unused, .unused, .none, 0, 0, false⟩
def gor : GRow := ⟨(.reg 1 .dst false true), (.reg 1 .src false true), .unused, .unused, .none, 0, 0, false⟩
def gxor : GRow := ⟨(.reg 1 .dst false true), (.reg 1 .src false true), .unused, .unused, .none, 0, 0, false⟩
def gscanI32Inc : GRow := ⟨(.reg 1 .dst false true), (.reg 1 .src false true), .unused, .unused, .none, 0, 0, false⟩
def gscanI32Exc : GRow := ⟨(.reg 1 .dst false true), (.reg 1 .src false true), .unused, .unused, .none, 0, 0, false⟩
def gscanF32Inc : GRow := ⟨(.reg 1 .dst false true), (.reg 1 .src false true), .unused, .unused, .none, 0, 0, false⟩
def gscanF32Exc : GRow := ⟨(.reg 1 .dst false true), (.reg 1 .src false true), .unused, .unused, .none, 0, 0, false⟩
def gsegI32 : GRow := ⟨(.reg 1 .dst false true), (.reg 1 .src false true), (.reg 1 .src false true), .unused, .none, 0, 0, false⟩
def gsegF32 : GRow := ⟨(.reg 1 .dst false true), (.reg 1 .src false true), (.reg 1 .src false true), .unused, .none, 0, 0, false⟩
def gbcast : GRow := ⟨(.reg 1 .dst false true), (.reg 1 .src false true), .unused, (.reg 1 .src false true), .none, 0, 31, false⟩
def gshuf : GRow := ⟨(.reg 1 .dst false true), (.reg 1 .src false true), (.reg 1 .src false true), (.reg 1 .src false true), .none, 0, 0, false⟩
def gshufx : GRow := ⟨(.reg 1 .dst false true), (.reg 1 .src false true), (.reg 1 .src false true), (.reg 1 .src false true), .none, 0, 3, false⟩
def gvote : GRow := ⟨(.reg 1 .dst false true), (.reg 1 .src false true), .unused, .unused, .any, 0, 2, false⟩
def gcnt : GRow := ⟨(.reg 1 .dst false true), (.reg 1 .src false true), .unused, .unused, .none, 0, 0, false⟩
def gelect : GRow := ⟨(.reg 1 .dst false true), .unused, .unused, .unused, .any, 0, 0, false⟩
def grank : GRow := ⟨(.reg 1 .dst false true), (.reg 1 .src false true), .unused, .unused, .any, 0, 0, false⟩
def gsync : GRow := ⟨.unused, .unused, .unused, .unused, .none, 0, 0, false⟩
def grow : GRow := ⟨.unused, .unused, .unused, .unused, .none, 1, 7, true⟩
def shrink : GRow := ⟨.unused, .unused, .unused, .unused, .none, 1, 7, true⟩
def ld8s : MRow := ⟨(.reg 1 .dst false true), (.reg 1 .src true true), true, true, true⟩
def ld8n : MRow := ⟨(.reg 1 .dst false true), (.reg 1 .src true true), true, true, true⟩
def ld16s : MRow := ⟨(.reg 1 .dst false true), (.reg 1 .src true true), true, true, true⟩
def ld16n : MRow := ⟨(.reg 1 .dst false true), (.reg 1 .src true true), true, true, true⟩
def ld32 : MRow := ⟨(.reg 1 .dst false true), (.reg 1 .src true true), true, true, true⟩
def ld64 : MRow := ⟨(.reg 2 .dst false true), (.reg 1 .src true true), true, true, true⟩
def ld128 : MRow := ⟨(.reg 4 .dst false true), (.reg 1 .src true true), true, true, true⟩
def st8 : MRow := ⟨(.reg 1 .src false true), (.reg 1 .src true true), true, true, true⟩
def st16 : MRow := ⟨(.reg 1 .src false true), (.reg 1 .src true true), true, true, true⟩
def st32 : MRow := ⟨(.reg 1 .src true true), (.reg 1 .src true true), true, true, true⟩
def st64 : MRow := ⟨(.reg 2 .src true true), (.reg 1 .src true true), true, true, true⟩
def st128 : MRow := ⟨(.reg 4 .src false true), (.reg 1 .src true true), true, true, true⟩
def atom : ARow := ⟨(.reg 1 .dst false true), (.reg 1 .src true true), false, 9⟩
def atom64 : ARow := ⟨(.reg 2 .dst false true), (.reg 2 .src true true), false, 8⟩
def cas : ARow := ⟨(.reg 1 .both false true), (.reg 1 .src true true), false, 0⟩
def cas64 : ARow := ⟨(.reg 2 .both false true), (.reg 2 .src true true), false, 0⟩
def red : ARow := ⟨.unused, (.reg 1 .src true true), true, 9⟩
def red64 : ARow := ⟨.unused, (.reg 2 .src true true), true, 8⟩
def ldsp : MRow := ⟨(.reg 1 .dst false true), (.reg 1 .src true true), false, true, true⟩
def stsp : MRow := ⟨(.reg 1 .src true true), (.reg 1 .src true true), false, true, true⟩
def brld : MRow := ⟨(.num 63), (.reg 1 .src true true), true, true, true⟩
def chcfg : MRow := ⟨.chute, .evenV, false, false, true⟩
def chrd : MRow := ⟨.chute, (.reg 1 .src true true), true, true, true⟩
def chwr : MRow := ⟨.chute, (.reg 1 .src true true), true, true, true⟩
def chcnt : MRow := ⟨(.reg 1 .dst false true), .chute, false, false, true⟩
def chcls : MRow := ⟨.chute, .unused, false, false, true⟩
def cpy : ERow := ⟨some 0, 15, (.reg 1 .src true true), (.reg 1 .src true true), (.reg 1 .src true true), false, true, true⟩
def cpy2 : ERow := ⟨some 0, 15, (.reg 1 .src true true), (.reg 1 .src true true), .unused, false, true, true⟩
def cpyx : ERow := ⟨some 0, 1, (.reg 1 .src true true), (.reg 1 .src true true), (.reg 1 .src true true), true, true, true⟩
def cpyt : ERow := ⟨some 0, 15, .unused, (.reg 1 .src true true), .unused, false, true, false⟩
def mcast : ERow := ⟨some 0, 15, (.reg 1 .src true true), (.reg 1 .src true true), (.reg 1 .src true true), false, true, true⟩
def fill : ERow := ⟨some 0, 15, (.reg 1 .src true true), (.reg 1 .src true true), (.reg 1 .src true true), false, false, true⟩
def gath : ERow := ⟨some 1, 0, (.reg 1 .src true true), (.reg 1 .src true true), (.reg 1 .src true true), true, true, true⟩
def gath64 : ERow := ⟨some 1, 0, (.reg 1 .src true true), (.reg 1 .src true true), (.reg 1 .src true true), true, true, true⟩
def scat : ERow := ⟨some 1, 0, (.reg 1 .src true true), (.reg 1 .src true true), (.reg 1 .src true true), true, true, true⟩
def scata : ERow := ⟨some 1, 0, (.reg 1 .src true true), (.reg 1 .src true true), (.reg 1 .src true true), true, true, true⟩
def scata64 : ERow := ⟨some 1, 0, (.reg 1 .src true true), (.reg 1 .src true true), (.reg 1 .src true true), true, true, true⟩
def sump : ERow := ⟨some 1, 0, (.reg 1 .src true true), (.reg 1 .src true true), (.reg 1 .src true true), true, true, true⟩
def sumpw : ERow := ⟨some 1, 0, (.reg 1 .src true true), (.reg 1 .src true true), (.reg 1 .src true true), true, true, true⟩
def sigAdd : ERow := ⟨some 2, 0, .unused, (.reg 1 .src true true), (.reg 2 .src true true), false, false, true⟩
def sigSet : ERow := ⟨some 2, 0, .unused, (.reg 1 .src true true), (.reg 2 .src true true), false, false, true⟩
def swait : ERow := ⟨some 2, 0, .unused, (.reg 1 .src true true), (.reg 2 .src true true), false, false, true⟩
def coll : ERow := ⟨some 2, 0, (.reg 1 .src true true), (.reg 1 .src true true), .unused, true, true, false⟩
def ccan : ERow := ⟨some 2, 0, .unused, .unused, .unused, true, false, false⟩
def cstat : ERow := ⟨some 2, 0, (.reg 2 .dst false true), .unused, .unused, true, false, false⟩
def waitc : ERow := ⟨none, 0, .unused, .unused, (.num 255), false, false, false⟩
def rdc : ERow := ⟨none, 0, (.reg 1 .dst false true), .unused, (.num 2), false, false, false⟩
def probe : ERow := ⟨some 1, 0, (.reg 1 .dst false true), (.reg 1 .src true true), .unused, false, true, false⟩
def ecan : ERow := ⟨none, 0, (.reg 1 .dst false true), .unused, .unused, false, false, false⟩
def fencee : ERow := ⟨some 0, 0, .unused, .unused, .unused, false, false, false⟩
def ttset : SRow := ⟨.unused, (.reg 4 .src true true), .unused, .zero, (.upto 255), false⟩
def ttget : SRow := ⟨(.reg 4 .dst true true), .unused, .unused, .zero, (.upto 255), false⟩
def mstart : SRow := ⟨.unused, (.reg 1 .src false true), .unused, .zero, .zero, false⟩
def mstop : SRow := ⟨.unused, .unused, .unused, .zero, .zero, false⟩
/-- The destination is described as 'even pair or z': a chute in it is refused as illegal-instruction (02 R45; DESIGN CHOICE, log 79). -/
def mstat : SRow := ⟨(.reg 2 .dst false true), .unused, .unused, .zero, .zero, false⟩
def fence : SRow := ⟨.unused, .unused, .unused, .zero, .fence, false⟩
def bar : SRow := ⟨.unused, .unused, .unused, .zero, (.upto 15), true⟩
def bara : SRow := ⟨.unused, .unused, .unused, .zero, (.upto 15), true⟩
def barw : SRow := ⟨.unused, .unused, .unused, .zero, (.upto 15), true⟩
def bari : SRow := ⟨.unused, .unused, .unused, .zero, .bari, false⟩
def gbara : SRow := ⟨.unused, .unused, .unused, .zero, .zero, true⟩
def gbarw : SRow := ⟨.unused, .unused, .unused, .zero, .zero, true⟩
def sealRange : SRow := ⟨(.reg 1 .dst false true), (.reg 2 .src false true), (.reg 2 .src false true), .zero, .sealKind, false⟩
def unsealEntry : SRow := ⟨(.reg 1 .dst false true), (.reg 1 .src false true), .unused, .zero, .zero, false⟩
def waits : MRow := ⟨(.reg 1 .both false false), (.reg 1 .src false true), true, true, false⟩
def fencei : SRow := ⟨.unused, .unused, .unused, .zero, .zero, false⟩
def srd : SRow := ⟨(.lax .dst), .unused, .unused, .special, .zero, false⟩
def swr : SRow := ⟨.unused, (.reg 1 .src true true), .unused, .special, .zero, false⟩
def trap : SRow := ⟨.unused, .unused, .unused, .zero, .any, false⟩
def brk : SRow := ⟨.unused, .unused, .unused, .zero, .any, false⟩
def reth : SRow := ⟨.unused, .unused, .unused, .zero, (.upto 2), false⟩
def launch : SRow := ⟨(.reg 2 .dst true true), (.reg 1 .src true true), .unused, .zero, (.upto 63), false⟩
def launchw : SRow := ⟨.unused, .unused, .unused, .zero, .zero, false⟩
def task : SRow := ⟨(.reg 1 .dst true true), (.reg 1 .src true true), .unused, .zero, (.upto 63), false⟩
def taskp : SRow := ⟨(.reg 1 .dst true true), (.reg 1 .src true true), .unused, .zero, (.upto 63), false⟩
def tasks : SRow := ⟨.unused, (.reg 2 .src true true), .unused, .zero, .zero, false⟩
def amsg : SRow := ⟨.unused, (.lax .src), (.reg 1 .src true true), .zero, (.upto 7), false⟩
def amsgr : SRow := ⟨.unused, (.lax .src), .unused, .zero, (.upto 7), false⟩
def region : RIRow := ⟨.unused, .mult32, .mask16⟩
/-- The destination is described as 'even pair or z': a chute in it is refused as illegal-instruction (02 R45; DESIGN CHOICE, log 79). -/
def perf : SRow := ⟨(.reg 2 .dst false true), .unused, .unused, .zero, (.upto 7), false⟩
def stamp : SRow := ⟨.unused, (.reg 1 .src true true), .unused, .zero, .any, false⟩
def wpset : SRow := ⟨(.reg 1 .dst false true), (.reg 1 .src true true), .unused, .zero, .wpset, false⟩
def wpclr : SRow := ⟨.unused, .unused, .unused, .zero, (.upto 3), false⟩
def hint : SRow := ⟨.unused, .unused, .unused, .zero, .any, false⟩
def pswr : SRow := ⟨.unused, (.reg 1 .src true true), (.reg 1 .src true true), .priv, .zero, false⟩
/-- The destination is described as 'even pair or z': a chute in it is refused as illegal-instruction (02 R45; DESIGN CHOICE, log 79); a chute
in `a` pops an element of 8 bytes. -/
def pctx : SRow := ⟨(.reg 2 .dst false true), (.reg 2 .src true true), .unused, .zero, (.upto 2), false⟩
def nop : BRow := ⟨false, .unused, false⟩
def bra : BRow := ⟨false, .unused, true⟩
def brp : BRow := ⟨false, (.num 15), true⟩
def brrZ : BRow := ⟨false, (.reg 1 .src true true), true⟩
def brrNz : BRow := ⟨false, (.reg 1 .src true true), true⟩
def brrLt : BRow := ⟨false, (.reg 1 .src true true), true⟩
def brrGe : BRow := ⟨false, (.reg 1 .src true true), true⟩
def loop : BRow := ⟨false, (.reg 1 .both false false), true⟩
def call : BRow := ⟨true, .unused, true⟩
def calli : BRow := ⟨true, (.reg 1 .src true true), false⟩
def ret : BRow := ⟨false, .unused, false⟩
def jmpi : BRow := ⟨false, (.reg 1 .src true true), false⟩
def brt : BRow := ⟨false, (.reg 1 .src true true), true⟩
def exit : BRow := ⟨false, .unused, false⟩
def park : BRow := ⟨false, (.reg 1 .src true true), false⟩
def yield : BRow := ⟨false, .unused, false⟩
def mmac : MSRow := ⟨0, 0, true, true, true, false, false, true, true, true, false⟩
def mzero : MSRow := ⟨0, 0, true, false, false, false, false, false, false, false, false⟩
def mdrain : MSRow := ⟨0, 3, true, false, false, true, false, false, false, true, false⟩
def mbara : MSRow := ⟨0, 0, false, false, false, false, true, false, false, false, false⟩
def mbarw : MSRow := ⟨0, 0, false, false, false, false, true, false, false, false, false⟩
def mloop : MSRow := ⟨0, 0, false, false, false, false, false, true, true, true, true⟩
def mloopEnd : MSRow := ⟨1, 1, false, false, false, false, false, false, false, false, false⟩
def mjmp : MSRow := ⟨0, 0, false, false, false, false, false, true, true, true, false⟩
def mend : MSRow := ⟨0, 0, false, false, false, false, false, false, false, false, false⟩
def mred : MSRow := ⟨0, 1, false, false, false, false, false, false, false, false, false⟩
def mldacc : MSRow := ⟨0, 0, true, false, false, true, false, false, false, false, false⟩
def mstacc : MSRow := ⟨0, 0, true, false, false, true, false, false, false, false, false⟩
def msel : MSRow := ⟨0, 0, false, true, false, true, false, false, false, false, false⟩
def mscl : MSRow := ⟨0, 0, false, true, false, false, false, true, false, false, false⟩
def mwaitc : MSRow := ⟨0, 0, false, false, false, false, false, true, false, false, false⟩
def mnop : MSRow := ⟨0, 0, false, false, false, false, false, false, false, false, false⟩

end Rows

/-- A word point as its opcode, its row and its fields; an event has no word. -/
inductive View where
  | rrr (op : Nat) (row : RRRRow) (f : RRR)
  | ri (op : Nat) (row : RIRow) (f : RI)
  | m (op : Nat) (row : MRow) (f : MF)
  | a (op : Nat) (row : ARow) (f : AF)
  | g (op : Nat) (row : GRow) (f : GF)
  | e (op : Nat) (row : ERow) (f : EF)
  | x (op : Nat) (row : XRow) (f : XF)
  | b (op : Nat) (row : BRow) (f : BF)
  | s (op : Nat) (row : SRow) (f : SF)
  | ms (op : Nat) (row : MSRow) (f : MSF)
  | event
  deriving DecidableEq, Repr

/-- The opcode (02 R49, R50), row and fields of every constructor. -/
def Instr.view (i : Instr) : View :=
  match i with
  | .add f => .rrr 0x020 Rows.add f
  | .sub f => .rrr 0x021 Rows.sub f
  | .addc f => .rrr 0x022 Rows.addc f
  | .subb f => .rrr 0x023 Rows.subb f
  | .neg f => .rrr 0x024 Rows.neg f
  | .abs f => .rrr 0x025 Rows.abs f
  | .minS f => .rrr 0x026 Rows.minS f
  | .minN f => .rrr 0x027 Rows.minN f
  | .maxS f => .rrr 0x028 Rows.maxS f
  | .maxN f => .rrr 0x029 Rows.maxN f
  | .and f => .rrr 0x02A Rows.and f
  | .or f => .rrr 0x02B Rows.or f
  | .xor f => .rrr 0x02C Rows.xor f
  | .andn f => .rrr 0x02D Rows.andn f
  | .not f => .rrr 0x02E Rows.not f
  | .shl f => .rrr 0x02F Rows.shl f
  | .shr f => .rrr 0x030 Rows.shr f
  | .sar f => .rrr 0x031 Rows.sar f
  | .rol f => .rrr 0x032 Rows.rol f
  | .clz f => .rrr 0x033 Rows.clz f
  | .popc f => .rrr 0x034 Rows.popc f
  | .brev f => .rrr 0x035 Rows.brev f
  | .sel f => .rrr 0x036 Rows.sel f
  | .mov f => .rrr 0x037 Rows.mov f
  | .movi f => .ri 0x038 Rows.movi f
  | .lea f => .ri 0x039 Rows.lea f
  | .cmpS f => .rrr 0x03A Rows.cmpS f
  | .cmpN f => .rrr 0x03B Rows.cmpN f
  | .iset f => .rrr 0x03C Rows.iset f
  | .plog f => .rrr 0x03D Rows.plog f
  | .add64 f => .rrr 0x03E Rows.add64 f
  | .sub64 f => .rrr 0x03F Rows.sub64 f
  | .mul f => .rrr 0x040 Rows.mul f
  | .mulhS f => .rrr 0x041 Rows.mulhS f
  | .mulhN f => .rrr 0x042 Rows.mulhN f
  | .mad f => .rrr 0x043 Rows.mad f
  | .madhS f => .rrr 0x044 Rows.madhS f
  | .madhN f => .rrr 0x045 Rows.madhN f
  | .mul64S f => .rrr 0x046 Rows.mul64S f
  | .mul64N f => .rrr 0x047 Rows.mul64N f
  | .mad64S f => .rrr 0x048 Rows.mad64S f
  | .mad64N f => .rrr 0x049 Rows.mad64N f
  | .dot4Ss f => .rrr 0x04A Rows.dot4Ss f
  | .dot4Nn f => .rrr 0x04B Rows.dot4Nn f
  | .dot4Sn f => .rrr 0x04C Rows.dot4Sn f
  | .dot2 f => .rrr 0x04D Rows.dot2 f
  | .divS f => .rrr 0x060 Rows.divS f
  | .divN f => .rrr 0x061 Rows.divN f
  | .remS f => .rrr 0x062 Rows.remS f
  | .remN f => .rrr 0x063 Rows.remN f
  | .divrS f => .rrr 0x064 Rows.divrS f
  | .divrN f => .rrr 0x065 Rows.divrN f
  | .div64S f => .rrr 0x066 Rows.div64S f
  | .div64N f => .rrr 0x067 Rows.div64N f
  | .bfxS f => .rrr 0x080 Rows.bfxS f
  | .bfxN f => .rrr 0x081 Rows.bfxN f
  | .bfi f => .rrr 0x082 Rows.bfi f
  | .prmb f => .rrr 0x083 Rows.prmb f
  | .unpk3 f => .rrr 0x084 Rows.unpk3 f
  | .pack3 f => .rrr 0x085 Rows.pack3 f
  | .tacc f => .rrr 0x086 Rows.tacc f
  | .satnS f => .rrr 0x087 Rows.satnS f
  | .satnN f => .rrr 0x088 Rows.satnN f
  | .pk16 f => .rrr 0x089 Rows.pk16 f
  | .upk8S f => .rrr 0x08A Rows.upk8S f
  | .upk8N f => .rrr 0x08B Rows.upk8N f
  | .upk4S f => .rrr 0x08C Rows.upk4S f
  | .upk4N f => .rrr 0x08D Rows.upk4N f
  | .pkb f => .rrr 0x08E Rows.pkb f
  | .msk f => .rrr 0x08F Rows.msk f
  | .faddF32 f => .rrr 0x0A0 Rows.faddF32 f
  | .faddF16x2 f => .rrr 0x0A1 Rows.faddF16x2 f
  | .faddBf16x2 f => .rrr 0x0A2 Rows.faddBf16x2 f
  | .fsubF32 f => .rrr 0x0A3 Rows.fsubF32 f
  | .fsubF16x2 f => .rrr 0x0A4 Rows.fsubF16x2 f
  | .fsubBf16x2 f => .rrr 0x0A5 Rows.fsubBf16x2 f
  | .fmulF32 f => .rrr 0x0A6 Rows.fmulF32 f
  | .fmulF16x2 f => .rrr 0x0A7 Rows.fmulF16x2 f
  | .fmulBf16x2 f => .rrr 0x0A8 Rows.fmulBf16x2 f
  | .fmaF32 f => .rrr 0x0A9 Rows.fmaF32 f
  | .fmaF16x2 f => .rrr 0x0AA Rows.fmaF16x2 f
  | .fmaBf16x2 f => .rrr 0x0AB Rows.fmaBf16x2 f
  | .fminF32 f => .rrr 0x0AC Rows.fminF32 f
  | .fminF16x2 f => .rrr 0x0AD Rows.fminF16x2 f
  | .fminBf16x2 f => .rrr 0x0AE Rows.fminBf16x2 f
  | .fmaxF32 f => .rrr 0x0AF Rows.fmaxF32 f
  | .fmaxF16x2 f => .rrr 0x0B0 Rows.fmaxF16x2 f
  | .fmaxBf16x2 f => .rrr 0x0B1 Rows.fmaxBf16x2 f
  | .fcmpF32 f => .rrr 0x0B2 Rows.fcmpF32 f
  | .fcmpF16x2 f => .rrr 0x0B3 Rows.fcmpF16x2 f
  | .fcmpBf16x2 f => .rrr 0x0B4 Rows.fcmpBf16x2 f
  | .fsetF32 f => .rrr 0x0B5 Rows.fsetF32 f
  | .fsetF16x2 f => .rrr 0x0B6 Rows.fsetF16x2 f
  | .fsetBf16x2 f => .rrr 0x0B7 Rows.fsetBf16x2 f
  | .fclsF32 f => .rrr 0x0B8 Rows.fclsF32 f
  | .fclsF16x2 f => .rrr 0x0B9 Rows.fclsF16x2 f
  | .fclsBf16x2 f => .rrr 0x0BA Rows.fclsBf16x2 f
  | .fsel f => .rrr 0x0BB Rows.fsel f
  | .fdot2F16 f => .rrr 0x0BC Rows.fdot2F16 f
  | .fdot2Bf16 f => .rrr 0x0BD Rows.fdot2Bf16 f
  | .fscl f => .rrr 0x0BE Rows.fscl f
  | .ffrc f => .rrr 0x0BF Rows.ffrc f
  | .fdivF32 f => .rrr 0x0C0 Rows.fdivF32 f
  | .fdivF16 f => .rrr 0x0C1 Rows.fdivF16 f
  | .fsqrtF32 f => .rrr 0x0C2 Rows.fsqrtF32 f
  | .fsqrtF16 f => .rrr 0x0C3 Rows.fsqrtF16 f
  | .frcp f => .rrr 0x0C4 Rows.frcp f
  | .frsq f => .rrr 0x0C5 Rows.frsq f
  | .fexp2 f => .rrr 0x0C6 Rows.fexp2 f
  | .flog2 f => .rrr 0x0C7 Rows.flog2 f
  | .fsin f => .rrr 0x0C8 Rows.fsin f
  | .fcos f => .rrr 0x0C9 Rows.fcos f
  | .frndF32 f => .rrr 0x0CA Rows.frndF32 f
  | .frndF16x2 f => .rrr 0x0CB Rows.frndF16x2 f
  | .frndBf16x2 f => .rrr 0x0CC Rows.frndBf16x2 f
  | .cvtF32S32 f => .rrr 0x0CD Rows.cvtF32S32 f
  | .cvtF32N32 f => .rrr 0x0CE Rows.cvtF32N32 f
  | .cvtS32F32 f => .rrr 0x0CF Rows.cvtS32F32 f
  | .cvtN32F32 f => .rrr 0x0D0 Rows.cvtN32F32 f
  | .cvtF16F32 f => .rrr 0x0D1 Rows.cvtF16F32 f
  | .cvtF32F16 f => .rrr 0x0D2 Rows.cvtF32F16 f
  | .cvtBf16F32 f => .rrr 0x0D3 Rows.cvtBf16F32 f
  | .cvtF32Bf16 f => .rrr 0x0D4 Rows.cvtF32Bf16 f
  | .cvtF16x2F32 f => .rrr 0x0D5 Rows.cvtF16x2F32 f
  | .cvtBf16x2F32 f => .rrr 0x0D6 Rows.cvtBf16x2F32 f
  | .cvtF32S64 f => .rrr 0x0D7 Rows.cvtF32S64 f
  | .cvtS64F32 f => .rrr 0x0D8 Rows.cvtS64F32 f
  | .cvtF16Bf16 f => .rrr 0x0D9 Rows.cvtF16Bf16 f
  | .cvtBf16F16 f => .rrr 0x0DA Rows.cvtBf16F16 f
  | .cvtF16S32 f => .rrr 0x0DB Rows.cvtF16S32 f
  | .xtld f => .x 0x0E0 Rows.xtld f
  | .xtrl f => .x 0x0E1 Rows.xtrl f
  | .xrst f => .x 0x0E2 Rows.xrst f
  | .xdg f => .x 0x0E3 Rows.xdg f
  | .xdg2 f => .x 0x0E4 Rows.xdg2 f
  | .xdu f => .x 0x0E5 Rows.xdu f
  | .xfin f => .x 0x0E6 Rows.xfin f
  | .xcmp f => .x 0x0E7 Rows.xcmp f
  | .xstr f => .x 0x0E8 Rows.xstr f
  | .xstw f => .x 0x0E9 Rows.xstw f
  | .xlen f => .x 0x0EA Rows.xlen f
  | .xqry f => .x 0x0EB Rows.xqry f
  | .gsumI32 f => .g 0x100 Rows.gsumI32 f
  | .gsumF32 f => .g 0x101 Rows.gsumF32 f
  | .gsumS64 f => .g 0x102 Rows.gsumS64 f
  | .gminS f => .g 0x103 Rows.gminS f
  | .gminN f => .g 0x104 Rows.gminN f
  | .gminF f => .g 0x105 Rows.gminF f
  | .gmaxS f => .g 0x106 Rows.gmaxS f
  | .gmaxN f => .g 0x107 Rows.gmaxN f
  | .gmaxF f => .g 0x108 Rows.gmaxF f
  | .gand f => .g 0x109 Rows.gand f
  | .gor f => .g 0x10A Rows.gor f
  | .gxor f => .g 0x10B Rows.gxor f
  | .gscanI32Inc f => .g 0x10C Rows.gscanI32Inc f
  | .gscanI32Exc f => .g 0x10D Rows.gscanI32Exc f
  | .gscanF32Inc f => .g 0x10E Rows.gscanF32Inc f
  | .gscanF32Exc f => .g 0x10F Rows.gscanF32Exc f
  | .gsegI32 f => .g 0x110 Rows.gsegI32 f
  | .gsegF32 f => .g 0x111 Rows.gsegF32 f
  | .gbcast f => .g 0x112 Rows.gbcast f
  | .gshuf f => .g 0x113 Rows.gshuf f
  | .gshufx f => .g 0x114 Rows.gshufx f
  | .gvote f => .g 0x115 Rows.gvote f
  | .gcnt f => .g 0x116 Rows.gcnt f
  | .gelect f => .g 0x117 Rows.gelect f
  | .grank f => .g 0x118 Rows.grank f
  | .gsync f => .g 0x119 Rows.gsync f
  | .grow f => .g 0x11A Rows.grow f
  | .shrink f => .g 0x11B Rows.shrink f
  | .ld8s f => .m 0x120 Rows.ld8s f
  | .ld8n f => .m 0x121 Rows.ld8n f
  | .ld16s f => .m 0x122 Rows.ld16s f
  | .ld16n f => .m 0x123 Rows.ld16n f
  | .ld32 f => .m 0x124 Rows.ld32 f
  | .ld64 f => .m 0x125 Rows.ld64 f
  | .ld128 f => .m 0x126 Rows.ld128 f
  | .st8 f => .m 0x127 Rows.st8 f
  | .st16 f => .m 0x128 Rows.st16 f
  | .st32 f => .m 0x129 Rows.st32 f
  | .st64 f => .m 0x12A Rows.st64 f
  | .st128 f => .m 0x12B Rows.st128 f
  | .atom f => .a 0x12C Rows.atom f
  | .atom64 f => .a 0x12D Rows.atom64 f
  | .cas f => .a 0x12E Rows.cas f
  | .cas64 f => .a 0x12F Rows.cas64 f
  | .red f => .a 0x130 Rows.red f
  | .red64 f => .a 0x131 Rows.red64 f
  | .ldsp f => .m 0x132 Rows.ldsp f
  | .stsp f => .m 0x133 Rows.stsp f
  | .brld f => .m 0x134 Rows.brld f
  | .chcfg f => .m 0x135 Rows.chcfg f
  | .chrd f => .m 0x136 Rows.chrd f
  | .chwr f => .m 0x137 Rows.chwr f
  | .chcnt f => .m 0x138 Rows.chcnt f
  | .chcls f => .m 0x139 Rows.chcls f
  | .cpy f => .e 0x140 Rows.cpy f
  | .cpy2 f => .e 0x141 Rows.cpy2 f
  | .cpyx f => .e 0x142 Rows.cpyx f
  | .cpyt f => .e 0x143 Rows.cpyt f
  | .mcast f => .e 0x144 Rows.mcast f
  | .fill f => .e 0x145 Rows.fill f
  | .gath f => .e 0x146 Rows.gath f
  | .gath64 f => .e 0x147 Rows.gath64 f
  | .scat f => .e 0x148 Rows.scat f
  | .scata f => .e 0x149 Rows.scata f
  | .scata64 f => .e 0x14A Rows.scata64 f
  | .sump f => .e 0x14B Rows.sump f
  | .sumpw f => .e 0x14C Rows.sumpw f
  | .sigAdd f => .e 0x14D Rows.sigAdd f
  | .sigSet f => .e 0x14E Rows.sigSet f
  | .swait f => .e 0x14F Rows.swait f
  | .coll f => .e 0x150 Rows.coll f
  | .ccan f => .e 0x151 Rows.ccan f
  | .cstat f => .e 0x152 Rows.cstat f
  | .waitc f => .e 0x153 Rows.waitc f
  | .rdc f => .e 0x154 Rows.rdc f
  | .probe f => .e 0x155 Rows.probe f
  | .ecan f => .e 0x156 Rows.ecan f
  | .fencee f => .e 0x157 Rows.fencee f
  | .ttset f => .s 0x160 Rows.ttset f
  | .ttget f => .s 0x161 Rows.ttget f
  | .mstart f => .s 0x162 Rows.mstart f
  | .mstop f => .s 0x163 Rows.mstop f
  | .mstat f => .s 0x164 Rows.mstat f
  | .fence f => .s 0x180 Rows.fence f
  | .bar f => .s 0x181 Rows.bar f
  | .bara f => .s 0x182 Rows.bara f
  | .barw f => .s 0x183 Rows.barw f
  | .bari f => .s 0x184 Rows.bari f
  | .gbara f => .s 0x185 Rows.gbara f
  | .gbarw f => .s 0x186 Rows.gbarw f
  | .sealRange f => .s 0x187 Rows.sealRange f
  | .unsealEntry f => .s 0x188 Rows.unsealEntry f
  | .waits f => .m 0x189 Rows.waits f
  | .fencei f => .s 0x18A Rows.fencei f
  | .srd f => .s 0x1A0 Rows.srd f
  | .swr f => .s 0x1A1 Rows.swr f
  | .trap f => .s 0x1A2 Rows.trap f
  | .brk f => .s 0x1A3 Rows.brk f
  | .reth f => .s 0x1A4 Rows.reth f
  | .launch f => .s 0x1A5 Rows.launch f
  | .launchw f => .s 0x1A6 Rows.launchw f
  | .task f => .s 0x1A7 Rows.task f
  | .taskp f => .s 0x1A8 Rows.taskp f
  | .tasks f => .s 0x1A9 Rows.tasks f
  | .amsg f => .s 0x1AA Rows.amsg f
  | .amsgr f => .s 0x1AB Rows.amsgr f
  | .region f => .ri 0x1AC Rows.region f
  | .perf f => .s 0x1AD Rows.perf f
  | .stamp f => .s 0x1AE Rows.stamp f
  | .wpset f => .s 0x1AF Rows.wpset f
  | .wpclr f => .s 0x1B0 Rows.wpclr f
  | .hint f => .s 0x1B1 Rows.hint f
  | .pswr f => .s 0x1B2 Rows.pswr f
  | .pctx f => .s 0x1B3 Rows.pctx f
  | .nop f => .b 0x000 Rows.nop f
  | .bra f => .b 0x001 Rows.bra f
  | .brp f => .b 0x002 Rows.brp f
  | .brrZ f => .b 0x003 Rows.brrZ f
  | .brrNz f => .b 0x004 Rows.brrNz f
  | .brrLt f => .b 0x005 Rows.brrLt f
  | .brrGe f => .b 0x006 Rows.brrGe f
  | .loop f => .b 0x007 Rows.loop f
  | .call f => .b 0x008 Rows.call f
  | .calli f => .b 0x009 Rows.calli f
  | .ret f => .b 0x00A Rows.ret f
  | .jmpi f => .b 0x00B Rows.jmpi f
  | .brt f => .b 0x00C Rows.brt f
  | .exit f => .b 0x00D Rows.exit f
  | .park f => .b 0x00E Rows.park f
  | .yield f => .b 0x00F Rows.yield f
  | .mmac f => .ms 0x170 Rows.mmac f
  | .mzero f => .ms 0x171 Rows.mzero f
  | .mdrain f => .ms 0x172 Rows.mdrain f
  | .mbara f => .ms 0x173 Rows.mbara f
  | .mbarw f => .ms 0x174 Rows.mbarw f
  | .mloop f => .ms 0x175 Rows.mloop f
  | .mloopEnd f => .ms 0x175 Rows.mloopEnd f
  | .mjmp f => .ms 0x176 Rows.mjmp f
  | .mend f => .ms 0x177 Rows.mend f
  | .mred f => .ms 0x178 Rows.mred f
  | .mldacc f => .ms 0x179 Rows.mldacc f
  | .mstacc f => .ms 0x17A Rows.mstacc f
  | .msel f => .ms 0x17B Rows.msel f
  | .mscl f => .ms 0x17C Rows.mscl f
  | .mwaitc f => .ms 0x17D Rows.mwaitc f
  | .mnop f => .ms 0x17E Rows.mnop f
  | .powerOn _ => .event
  | .coldReset => .event
  | .thermalAlarm _ _ => .event
  | .thermalShutdown _ _ => .event
  | .fwStage => .event
  | .fwStageComplete _ => .event
  | .fwCommit => .event
  | .fwCommitPoint => .event
  | .fwDiscard => .event
  | .attestationQuote => .event
  | .gtsRead _ => .event
  | .registerWrite _ _ _ => .event
  | .feedEnable _ _ => .event
  | .feedDisable _ => .event
  | .feedTailWrite _ _ _ => .event
  | .feedTailRead _ => .event
  | .feedRestart _ => .event
  | .feedEntryDispatch _ => .event
  | .workRecordAppend _ => .event
  | .commandLinkCommand _ _ _ _ => .event
  | .teamPlace _ _ => .event
  | .clusterSteal _ _ => .event
  | .dieSteal _ _ => .event
  | .grantServe _ => .event
  | .windowTimeout _ => .event
  | .taskRun _ => .event
  | .taskSteal _ => .event
  | .messageArrive _ => .event
  | .handlerRun _ => .event
  | .messageRetry _ => .event
  | .chuteRemotePushArrive _ _ => .event
  | .chuteFreeNotice _ _ => .event
  | .chuteForward _ _ => .event
  | .chutePopNotice _ _ => .event
  | .chuteWithdraw _ _ => .event
  | .chuteCloseNotice _ _ => .event
  | .clauseFetchComplete _ _ => .event
  | .issueOpportunity _ _ => .event
  | .parkExpire _ _ => .event
  | .yieldExpire _ _ => .event
  | .divideComplete _ _ => .event
  | .fspcComplete _ _ => .event
  | .memsComplete _ _ => .event
  | .waitsWake _ _ => .event
  | .xtldComplete _ _ _ => .event
  | .fenceiComplete _ _ => .event
  | .sealComplete _ _ => .event
  | .engineRequestResponse _ _ _ => .event
  | .signalUpdate _ _ => .event
  | .collContribution _ _ => .event
  | .ownerTranslate _ => .event
  | .requestTimeout _ _ => .event
  | .pageUnmap _ _ _ _ => .event
  | .purge _ _ => .event
  | .purgeComplete _ => .event
  | .flitReceive _ _ => .event
  | .replayRequest _ _ => .event
  | .linkDown _ => .event
  | .haltReceive _ => .event
  | .handlerStart _ => .event
  | .launchEnd _ => .event
  | .teamSave _ => .event
  | .pageMapped _ _ => .event
  | .teamRestore _ => .event
  | .timeSliceExpire _ => .event
  | .spatialPreempt _ => .event
  | .spatialWindowExpire => .event
  | .groupRetire _ => .event
  | .launchComplete _ => .event
  | .reportRingControl _ _ _ => .event
  | .dbgAttachWrite _ => .event
  | .dbgStopTeam _ => .event
  | .dbgStopCluster _ => .event
  | .dbgStopDie _ => .event
  | .dbgStopDevice _ => .event
  | .dbgResumeTeam _ => .event
  | .dbgResumeCluster _ => .event
  | .dbgResumeDie _ => .event
  | .dbgResumeDevice _ => .event
  | .dbgStep _ => .event
  | .dbgStepCancel => .event
  | .dbgDump _ => .event
  | .dumpComplete _ => .event
  | .breakpointSet _ _ _ => .event
  | .watchpointSet _ _ => .event
  | .dbgTrcWrite _ => .event
  | .traceSample _ _ => .event
  | .roceRequestWhileHalted _ => .event
  | .nvmeofKeepAlive _ => .event
  | .mailboxWhileHalted _ => .event
  | .eccCorrected _ => .event
  | .eccUncorrectable _ => .event
  | .channelMigrate _ _ => .event
  | .scrub => .event
  | .healthRecordUpdate _ => .event
  | .linkRetrainComplete _ _ => .event
  | .partReportedAbsent _ => .event

/-- The word of a view (02 section 2.4); an event has none. -/
def View.pack : View → Option Nat
  | .rrr op _ f => some (f.pack op)
  | .ri op _ f => some (f.pack op)
  | .m op _ f => some (f.pack op)
  | .a op _ f => some (f.pack op)
  | .g op _ f => some (f.pack op)
  | .e op _ f => some (f.pack op)
  | .x op _ f => some (f.pack op)
  | .b op _ f => some (f.pack op)
  | .s op _ f => some (f.pack op)
  | .ms op _ f => some (f.pack op)
  | .event => none

/-- Whether every field holds a value its row defines and every operand is legal. -/
def View.ok : View → Bool
  | .rrr op r f => r.ok2 (f.pack op) && r.ok3 (f.pack op)
  | .ri op r f => r.ok2 (f.pack op) && r.ok3 (f.pack op)
  | .m op r f => r.ok2 (f.pack op) && r.ok3 (f.pack op)
  | .a op r f => r.ok2 (f.pack op) && r.ok3 (f.pack op)
  | .g op r f => r.ok2 (f.pack op) && r.ok3 (f.pack op)
  | .e op r f => r.ok2 (f.pack op) && r.ok3 (f.pack op)
  | .x op r f => r.ok2 (f.pack op) && r.ok3 (f.pack op)
  | .b op r f => r.ok2 (f.pack op) && r.ok3 (f.pack op)
  | .s op r f => r.ok2 (f.pack op) && r.ok3 (f.pack op)
  | .ms op r f => r.ok2 (f.pack op)
  | .event => true

/-- The operands a word uses, in operand order. An SRD's destination is as wide as its special register (04 R79). -/
def View.uses : View → List Use
  | .rrr _ r f => r.uses f
  | .ri _ r f => r.uses f
  | .m _ r f => r.uses f
  | .a _ r f => r.uses f
  | .g _ r f => r.uses f
  | .e _ r f => r.uses f
  | .x _ r f => r.uses f
  | .b _ r f => r.uses f
  | .s op r f =>
    if op = 0x1A0 then [⟨f.d, if special64 f.sr.toNat then 2 else 1, .dst⟩]
    else if op = 0x1AA ∨ op = 0x1AB then [⟨f.a, 8, .src⟩] ++ r.b.use f.b
    else r.uses f
  | .ms _ _ _ => []
  | .event => []

/-- The guard of a lane word. -/
def View.guard : View → Option Guard
  | .rrr _ _ f => some f.g
  | .ri _ _ f => some f.g
  | .m _ _ f => some f.g
  | .a _ _ f => some f.g
  | .g _ _ f => some f.g
  | .e _ _ f => some f.g
  | .x _ _ f => some f.g
  | .b _ _ f => some f.g
  | .s _ _ f => some f.g
  | .ms _ _ _ => none
  | .event => none

/-- The opcode of a word (02 R49). -/
def View.opcode : View → Option Nat
  | .rrr op _ _ => some op
  | .ri op _ _ => some op
  | .m op _ _ => some op
  | .a op _ _ => some op
  | .g op _ _ => some op
  | .e op _ _ => some op
  | .x op _ _ => some op
  | .b op _ _ => some op
  | .s op _ _ => some op
  | .ms op _ _ => some op
  | .event => none

/-- The flag select of a word, 0 where its format has none (02 R40, R41). -/
def View.fsel : View → Nat
  | .rrr _ _ f => f.fsel.val
  | .m _ _ f => f.fsel.val
  | .a _ _ f => f.fsel.val
  | .x _ _ f => f.fsel.val
  | _ => 0

end Sys2Proof
end

