-- ==== Sys2Proof/WellFormed.lean ====
section
/-! DEFINITION. Which instructions are well formed: every field holds a value its point defines, every operand is one its position admits
(02 R44 to R46). -/

namespace Sys2Proof

/-- Whether an instruction is one some word encodes (02 R46). -/
def Instr.wf (i : Instr) : Bool := i.view.ok

/-- Whether a constructor is a word point, not an event. -/
def Instr.isWord (i : Instr) : Bool := i.view.opcode.isSome

end Sys2Proof
end

