-- ==== Sys2Proof/Decode.lean ====
section
/-! DEFINITION. Decoding a 64-bit word (02 R43 to R50), total, rejecting by name; and the encoder. The bytes of a word are little-endian (00 R10).
A word is first read as a view (opcode, row, fields), which is all the machine's own checks need; `View.instr` names its constructor. -/

namespace Sys2Proof

/-- Why a word does not decode: trap orders 2 and 3 of 02 Table 2.29. -/
inductive DecodeError where
  /-- Reserved cell, nonzero reserved field or undefined field value (02 R46, R49). -/
  | illegalInstruction
  /-- A reserved operand, a misaligned pair or quad, or a chute in a quad (02 R44, R45). -/
  | illegalOperand
  deriving DecidableEq, Repr

/-- The row of an opcode, by format. -/
inductive Row where
  | rrr (r : RRRRow)
  | ri (r : RIRow)
  | m (r : MRow)
  | a (r : ARow)
  | g (r : GRow)
  | e (r : ERow)
  | x (r : XRow)
  | b (r : BRow)
  | s (r : SRow)
  | ms (r : MSRow)
  deriving DecidableEq, Repr

/-- Class 0, CTRL (02 Table 2.15): the row at an index. -/
def rowCtrl (n : Nat) : Option Row :=
  match n with
  | 0 => some (.b Rows.nop)
  | 1 => some (.b Rows.bra)
  | 2 => some (.b Rows.brp)
  | 3 => some (.b Rows.brrZ)
  | 4 => some (.b Rows.brrNz)
  | 5 => some (.b Rows.brrLt)
  | 6 => some (.b Rows.brrGe)
  | 7 => some (.b Rows.loop)
  | 8 => some (.b Rows.call)
  | 9 => some (.b Rows.calli)
  | 10 => some (.b Rows.ret)
  | 11 => some (.b Rows.jmpi)
  | 12 => some (.b Rows.brt)
  | 13 => some (.b Rows.exit)
  | 14 => some (.b Rows.park)
  | 15 => some (.b Rows.yield)
  | _ => none

/-- Class 1, IALU (02 Table 2.16): the row at an index. -/
def rowIalu (n : Nat) : Option Row :=
  match n with
  | 0 => some (.rrr Rows.add)
  | 1 => some (.rrr Rows.sub)
  | 2 => some (.rrr Rows.addc)
  | 3 => some (.rrr Rows.subb)
  | 4 => some (.rrr Rows.neg)
  | 5 => some (.rrr Rows.abs)
  | 6 => some (.rrr Rows.minS)
  | 7 => some (.rrr Rows.minN)
  | 8 => some (.rrr Rows.maxS)
  | 9 => some (.rrr Rows.maxN)
  | 10 => some (.rrr Rows.and)
  | 11 => some (.rrr Rows.or)
  | 12 => some (.rrr Rows.xor)
  | 13 => some (.rrr Rows.andn)
  | 14 => some (.rrr Rows.not)
  | 15 => some (.rrr Rows.shl)
  | 16 => some (.rrr Rows.shr)
  | 17 => some (.rrr Rows.sar)
  | 18 => some (.rrr Rows.rol)
  | 19 => some (.rrr Rows.clz)
  | 20 => some (.rrr Rows.popc)
  | 21 => some (.rrr Rows.brev)
  | 22 => some (.rrr Rows.sel)
  | 23 => some (.rrr Rows.mov)
  | 24 => some (.ri Rows.movi)
  | 25 => some (.ri Rows.lea)
  | 26 => some (.rrr Rows.cmpS)
  | 27 => some (.rrr Rows.cmpN)
  | 28 => some (.rrr Rows.iset)
  | 29 => some (.rrr Rows.plog)
  | 30 => some (.rrr Rows.add64)
  | 31 => some (.rrr Rows.sub64)
  | _ => none

/-- Class 2, IMUL (02 Table 2.17): the row at an index. -/
def rowImul (n : Nat) : Option Row :=
  match n with
  | 0 => some (.rrr Rows.mul)
  | 1 => some (.rrr Rows.mulhS)
  | 2 => some (.rrr Rows.mulhN)
  | 3 => some (.rrr Rows.mad)
  | 4 => some (.rrr Rows.madhS)
  | 5 => some (.rrr Rows.madhN)
  | 6 => some (.rrr Rows.mul64S)
  | 7 => some (.rrr Rows.mul64N)
  | 8 => some (.rrr Rows.mad64S)
  | 9 => some (.rrr Rows.mad64N)
  | 10 => some (.rrr Rows.dot4Ss)
  | 11 => some (.rrr Rows.dot4Nn)
  | 12 => some (.rrr Rows.dot4Sn)
  | 13 => some (.rrr Rows.dot2)
  | _ => none

/-- Class 3, IDIV (02 Table 2.18): the row at an index. -/
def rowIdiv (n : Nat) : Option Row :=
  match n with
  | 0 => some (.rrr Rows.divS)
  | 1 => some (.rrr Rows.divN)
  | 2 => some (.rrr Rows.remS)
  | 3 => some (.rrr Rows.remN)
  | 4 => some (.rrr Rows.divrS)
  | 5 => some (.rrr Rows.divrN)
  | 6 => some (.rrr Rows.div64S)
  | 7 => some (.rrr Rows.div64N)
  | _ => none

/-- Class 4, PACK (02 Table 2.19): the row at an index. -/
def rowPack (n : Nat) : Option Row :=
  match n with
  | 0 => some (.rrr Rows.bfxS)
  | 1 => some (.rrr Rows.bfxN)
  | 2 => some (.rrr Rows.bfi)
  | 3 => some (.rrr Rows.prmb)
  | 4 => some (.rrr Rows.unpk3)
  | 5 => some (.rrr Rows.pack3)
  | 6 => some (.rrr Rows.tacc)
  | 7 => some (.rrr Rows.satnS)
  | 8 => some (.rrr Rows.satnN)
  | 9 => some (.rrr Rows.pk16)
  | 10 => some (.rrr Rows.upk8S)
  | 11 => some (.rrr Rows.upk8N)
  | 12 => some (.rrr Rows.upk4S)
  | 13 => some (.rrr Rows.upk4N)
  | 14 => some (.rrr Rows.pkb)
  | 15 => some (.rrr Rows.msk)
  | _ => none

/-- Class 5, FALU (02 Table 2.20): the row at an index. -/
def rowFalu (n : Nat) : Option Row :=
  match n with
  | 0 => some (.rrr Rows.faddF32)
  | 1 => some (.rrr Rows.faddF16x2)
  | 2 => some (.rrr Rows.faddBf16x2)
  | 3 => some (.rrr Rows.fsubF32)
  | 4 => some (.rrr Rows.fsubF16x2)
  | 5 => some (.rrr Rows.fsubBf16x2)
  | 6 => some (.rrr Rows.fmulF32)
  | 7 => some (.rrr Rows.fmulF16x2)
  | 8 => some (.rrr Rows.fmulBf16x2)
  | 9 => some (.rrr Rows.fmaF32)
  | 10 => some (.rrr Rows.fmaF16x2)
  | 11 => some (.rrr Rows.fmaBf16x2)
  | 12 => some (.rrr Rows.fminF32)
  | 13 => some (.rrr Rows.fminF16x2)
  | 14 => some (.rrr Rows.fminBf16x2)
  | 15 => some (.rrr Rows.fmaxF32)
  | 16 => some (.rrr Rows.fmaxF16x2)
  | 17 => some (.rrr Rows.fmaxBf16x2)
  | 18 => some (.rrr Rows.fcmpF32)
  | 19 => some (.rrr Rows.fcmpF16x2)
  | 20 => some (.rrr Rows.fcmpBf16x2)
  | 21 => some (.rrr Rows.fsetF32)
  | 22 => some (.rrr Rows.fsetF16x2)
  | 23 => some (.rrr Rows.fsetBf16x2)
  | 24 => some (.rrr Rows.fclsF32)
  | 25 => some (.rrr Rows.fclsF16x2)
  | 26 => some (.rrr Rows.fclsBf16x2)
  | 27 => some (.rrr Rows.fsel)
  | 28 => some (.rrr Rows.fdot2F16)
  | 29 => some (.rrr Rows.fdot2Bf16)
  | 30 => some (.rrr Rows.fscl)
  | 31 => some (.rrr Rows.ffrc)
  | _ => none

/-- Class 6, FSPC (02 Table 2.21): the row at an index. -/
def rowFspc (n : Nat) : Option Row :=
  match n with
  | 0 => some (.rrr Rows.fdivF32)
  | 1 => some (.rrr Rows.fdivF16)
  | 2 => some (.rrr Rows.fsqrtF32)
  | 3 => some (.rrr Rows.fsqrtF16)
  | 4 => some (.rrr Rows.frcp)
  | 5 => some (.rrr Rows.frsq)
  | 6 => some (.rrr Rows.fexp2)
  | 7 => some (.rrr Rows.flog2)
  | 8 => some (.rrr Rows.fsin)
  | 9 => some (.rrr Rows.fcos)
  | 10 => some (.rrr Rows.frndF32)
  | 11 => some (.rrr Rows.frndF16x2)
  | 12 => some (.rrr Rows.frndBf16x2)
  | 13 => some (.rrr Rows.cvtF32S32)
  | 14 => some (.rrr Rows.cvtF32N32)
  | 15 => some (.rrr Rows.cvtS32F32)
  | 16 => some (.rrr Rows.cvtN32F32)
  | 17 => some (.rrr Rows.cvtF16F32)
  | 18 => some (.rrr Rows.cvtF32F16)
  | 19 => some (.rrr Rows.cvtBf16F32)
  | 20 => some (.rrr Rows.cvtF32Bf16)
  | 21 => some (.rrr Rows.cvtF16x2F32)
  | 22 => some (.rrr Rows.cvtBf16x2F32)
  | 23 => some (.rrr Rows.cvtF32S64)
  | 24 => some (.rrr Rows.cvtS64F32)
  | 25 => some (.rrr Rows.cvtF16Bf16)
  | 26 => some (.rrr Rows.cvtBf16F16)
  | 27 => some (.rrr Rows.cvtF16S32)
  | _ => none

/-- Class 7, XDUC (02 Table 2.22): the row at an index. -/
def rowXduc (n : Nat) : Option Row :=
  match n with
  | 0 => some (.x Rows.xtld)
  | 1 => some (.x Rows.xtrl)
  | 2 => some (.x Rows.xrst)
  | 3 => some (.x Rows.xdg)
  | 4 => some (.x Rows.xdg2)
  | 5 => some (.x Rows.xdu)
  | 6 => some (.x Rows.xfin)
  | 7 => some (.x Rows.xcmp)
  | 8 => some (.x Rows.xstr)
  | 9 => some (.x Rows.xstw)
  | 10 => some (.x Rows.xlen)
  | 11 => some (.x Rows.xqry)
  | _ => none

/-- Class 8, GRUP (02 Table 2.23): the row at an index. -/
def rowGrup (n : Nat) : Option Row :=
  match n with
  | 0 => some (.g Rows.gsumI32)
  | 1 => some (.g Rows.gsumF32)
  | 2 => some (.g Rows.gsumS64)
  | 3 => some (.g Rows.gminS)
  | 4 => some (.g Rows.gminN)
  | 5 => some (.g Rows.gminF)
  | 6 => some (.g Rows.gmaxS)
  | 7 => some (.g Rows.gmaxN)
  | 8 => some (.g Rows.gmaxF)
  | 9 => some (.g Rows.gand)
  | 10 => some (.g Rows.gor)
  | 11 => some (.g Rows.gxor)
  | 12 => some (.g Rows.gscanI32Inc)
  | 13 => some (.g Rows.gscanI32Exc)
  | 14 => some (.g Rows.gscanF32Inc)
  | 15 => some (.g Rows.gscanF32Exc)
  | 16 => some (.g Rows.gsegI32)
  | 17 => some (.g Rows.gsegF32)
  | 18 => some (.g Rows.gbcast)
  | 19 => some (.g Rows.gshuf)
  | 20 => some (.g Rows.gshufx)
  | 21 => some (.g Rows.gvote)
  | 22 => some (.g Rows.gcnt)
  | 23 => some (.g Rows.gelect)
  | 24 => some (.g Rows.grank)
  | 25 => some (.g Rows.gsync)
  | 26 => some (.g Rows.grow)
  | 27 => some (.g Rows.shrink)
  | _ => none

/-- Class 9, MEMS (02 Table 2.24): the row at an index. -/
def rowMems (n : Nat) : Option Row :=
  match n with
  | 0 => some (.m Rows.ld8s)
  | 1 => some (.m Rows.ld8n)
  | 2 => some (.m Rows.ld16s)
  | 3 => some (.m Rows.ld16n)
  | 4 => some (.m Rows.ld32)
  | 5 => some (.m Rows.ld64)
  | 6 => some (.m Rows.ld128)
  | 7 => some (.m Rows.st8)
  | 8 => some (.m Rows.st16)
  | 9 => some (.m Rows.st32)
  | 10 => some (.m Rows.st64)
  | 11 => some (.m Rows.st128)
  | 12 => some (.a Rows.atom)
  | 13 => some (.a Rows.atom64)
  | 14 => some (.a Rows.cas)
  | 15 => some (.a Rows.cas64)
  | 16 => some (.a Rows.red)
  | 17 => some (.a Rows.red64)
  | 18 => some (.m Rows.ldsp)
  | 19 => some (.m Rows.stsp)
  | 20 => some (.m Rows.brld)
  | 21 => some (.m Rows.chcfg)
  | 22 => some (.m Rows.chrd)
  | 23 => some (.m Rows.chwr)
  | 24 => some (.m Rows.chcnt)
  | 25 => some (.m Rows.chcls)
  | _ => none

/-- Class 10, ENGN (02 Table 2.25): the row at an index. -/
def rowEngn (n : Nat) : Option Row :=
  match n with
  | 0 => some (.e Rows.cpy)
  | 1 => some (.e Rows.cpy2)
  | 2 => some (.e Rows.cpyx)
  | 3 => some (.e Rows.cpyt)
  | 4 => some (.e Rows.mcast)
  | 5 => some (.e Rows.fill)
  | 6 => some (.e Rows.gath)
  | 7 => some (.e Rows.gath64)
  | 8 => some (.e Rows.scat)
  | 9 => some (.e Rows.scata)
  | 10 => some (.e Rows.scata64)
  | 11 => some (.e Rows.sump)
  | 12 => some (.e Rows.sumpw)
  | 13 => some (.e Rows.sigAdd)
  | 14 => some (.e Rows.sigSet)
  | 15 => some (.e Rows.swait)
  | 16 => some (.e Rows.coll)
  | 17 => some (.e Rows.ccan)
  | 18 => some (.e Rows.cstat)
  | 19 => some (.e Rows.waitc)
  | 20 => some (.e Rows.rdc)
  | 21 => some (.e Rows.probe)
  | 22 => some (.e Rows.ecan)
  | 23 => some (.e Rows.fencee)
  | _ => none

/-- Class 11, MTRX (02 Table 2.26): the row at an index; MLOOP and MLOOP.end share one opcode and differ in mode. -/
def rowMtrx (n mode : Nat) : Option Row :=
  match n with
  | 0 => some (.s Rows.ttset)
  | 1 => some (.s Rows.ttget)
  | 2 => some (.s Rows.mstart)
  | 3 => some (.s Rows.mstop)
  | 4 => some (.s Rows.mstat)
  | 16 => some (.ms Rows.mmac)
  | 17 => some (.ms Rows.mzero)
  | 18 => some (.ms Rows.mdrain)
  | 19 => some (.ms Rows.mbara)
  | 20 => some (.ms Rows.mbarw)
  | 21 => if mode = 1 then some (.ms Rows.mloopEnd) else some (.ms Rows.mloop)
  | 22 => some (.ms Rows.mjmp)
  | 23 => some (.ms Rows.mend)
  | 24 => some (.ms Rows.mred)
  | 25 => some (.ms Rows.mldacc)
  | 26 => some (.ms Rows.mstacc)
  | 27 => some (.ms Rows.msel)
  | 28 => some (.ms Rows.mscl)
  | 29 => some (.ms Rows.mwaitc)
  | 30 => some (.ms Rows.mnop)
  | _ => none

/-- Class 12, SYNC (02 Table 2.27): the row at an index. -/
def rowSync (n : Nat) : Option Row :=
  match n with
  | 0 => some (.s Rows.fence)
  | 1 => some (.s Rows.bar)
  | 2 => some (.s Rows.bara)
  | 3 => some (.s Rows.barw)
  | 4 => some (.s Rows.bari)
  | 5 => some (.s Rows.gbara)
  | 6 => some (.s Rows.gbarw)
  | 7 => some (.s Rows.sealRange)
  | 8 => some (.s Rows.unsealEntry)
  | 9 => some (.m Rows.waits)
  | 10 => some (.s Rows.fencei)
  | _ => none

/-- Class 13, SYST (02 Table 2.28): the row at an index. -/
def rowSyst (n : Nat) : Option Row :=
  match n with
  | 0 => some (.s Rows.srd)
  | 1 => some (.s Rows.swr)
  | 2 => some (.s Rows.trap)
  | 3 => some (.s Rows.brk)
  | 4 => some (.s Rows.reth)
  | 5 => some (.s Rows.launch)
  | 6 => some (.s Rows.launchw)
  | 7 => some (.s Rows.task)
  | 8 => some (.s Rows.taskp)
  | 9 => some (.s Rows.tasks)
  | 10 => some (.s Rows.amsg)
  | 11 => some (.s Rows.amsgr)
  | 12 => some (.ri Rows.region)
  | 13 => some (.s Rows.perf)
  | 14 => some (.s Rows.stamp)
  | 15 => some (.s Rows.wpset)
  | 16 => some (.s Rows.wpclr)
  | 17 => some (.s Rows.hint)
  | 18 => some (.s Rows.pswr)
  | 19 => some (.s Rows.pctx)
  | _ => none

/-- The row of a word's opcode (02 R49); none for a reserved cell and for classes 14 and 15. -/
def rowOf (w : Nat) : Option Row :=
  match bits w 8 5 with
  | 0 => rowCtrl (bits w 4 0)
  | 1 => rowIalu (bits w 4 0)
  | 2 => rowImul (bits w 4 0)
  | 3 => rowIdiv (bits w 4 0)
  | 4 => rowPack (bits w 4 0)
  | 5 => rowFalu (bits w 4 0)
  | 6 => rowFspc (bits w 4 0)
  | 7 => rowXduc (bits w 4 0)
  | 8 => rowGrup (bits w 4 0)
  | 9 => rowMems (bits w 4 0)
  | 10 => rowEngn (bits w 4 0)
  | 11 => rowMtrx (bits w 4 0) (bits w 63 62)
  | 12 => rowSync (bits w 4 0)
  | 13 => rowSyst (bits w 4 0)
  | _ => none

/-- The first failing check decides (02 R52). -/
def checked (ok2 ok3 : Bool) (v : View) : Except DecodeError View :=
  if ok2 then (if ok3 then .ok v else .error .illegalOperand) else .error .illegalInstruction

/-- A word as opcode, row and fields, or the decode trap it raises (02 R43 to R46). -/
def decodeView (w : Nat) : Except DecodeError View :=
  match rowOf w with
  | some (.rrr r) => checked (r.ok2 w) (r.ok3 w) (.rrr (bits w 8 0) r (.ofWord w))
  | some (.ri r) => checked (r.ok2 w) (r.ok3 w) (.ri (bits w 8 0) r (.ofWord w))
  | some (.m r) => checked (r.ok2 w) (r.ok3 w) (.m (bits w 8 0) r (.ofWord w))
  | some (.a r) => checked (r.ok2 w) (r.ok3 w) (.a (bits w 8 0) r (.ofWord w))
  | some (.g r) => checked (r.ok2 w) (r.ok3 w) (.g (bits w 8 0) r (.ofWord w))
  | some (.e r) => checked (r.ok2 w) (r.ok3 w) (.e (bits w 8 0) r (.ofWord w))
  | some (.x r) => checked (r.ok2 w) (r.ok3 w) (.x (bits w 8 0) r (.ofWord w))
  | some (.b r) => checked (r.ok2 w) (r.ok3 w) (.b (bits w 8 0) r (.ofWord w))
  | some (.s r) => checked (r.ok2 w) (r.ok3 w) (.s (bits w 8 0) r (.ofWord w))
  | some (.ms r) => checked (r.ok2 w) true (.ms (bits w 8 0) r (.ofWord w))
  | none => .error .illegalInstruction

/-- The view of a word whose opcode has a row, whatever its fields hold. -/
def viewOf (w : Nat) : Option View :=
  match rowOf w with
  | some (.rrr r) => some (.rrr (bits w 8 0) r (.ofWord w))
  | some (.ri r) => some (.ri (bits w 8 0) r (.ofWord w))
  | some (.m r) => some (.m (bits w 8 0) r (.ofWord w))
  | some (.a r) => some (.a (bits w 8 0) r (.ofWord w))
  | some (.g r) => some (.g (bits w 8 0) r (.ofWord w))
  | some (.e r) => some (.e (bits w 8 0) r (.ofWord w))
  | some (.x r) => some (.x (bits w 8 0) r (.ofWord w))
  | some (.b r) => some (.b (bits w 8 0) r (.ofWord w))
  | some (.s r) => some (.s (bits w 8 0) r (.ofWord w))
  | some (.ms r) => some (.ms (bits w 8 0) r (.ofWord w))
  | none => none

/-- The number little-endian bytes stand for (00 R10). -/
def leNat : List Byte → Nat
  | [] => 0
  | b :: bs => b.toNat + 256 * leNat bs

/-- `n` little-endian bytes of a number (00 R10). -/
def leBytes : Nat → Nat → List Byte
  | 0, _ => []
  | n + 1, x => BitVec.ofNat 8 x :: leBytes n (x / 256)

/-- The word of an instruction, written from the same rows (02 Tables 2.2 to 2.13); an event has none and answers 0. -/
def encode (i : Instr) : Nat := i.view.pack.getD 0

/-! A constructor of `Instr` past the 245th has no compiled form in this Lean (an inductive type's tags end there), so what builds one is
kept by the kernel alone. -/

noncomputable section

/-- The constructor of a word of format RRR. -/
def instrRRR (op : Nat) (f : RRR) : Option Instr :=
  match op with
  | 0x020 => some (.add f)
  | 0x021 => some (.sub f)
  | 0x022 => some (.addc f)
  | 0x023 => some (.subb f)
  | 0x024 => some (.neg f)
  | 0x025 => some (.abs f)
  | 0x026 => some (.minS f)
  | 0x027 => some (.minN f)
  | 0x028 => some (.maxS f)
  | 0x029 => some (.maxN f)
  | 0x02A => some (.and f)
  | 0x02B => some (.or f)
  | 0x02C => some (.xor f)
  | 0x02D => some (.andn f)
  | 0x02E => some (.not f)
  | 0x02F => some (.shl f)
  | 0x030 => some (.shr f)
  | 0x031 => some (.sar f)
  | 0x032 => some (.rol f)
  | 0x033 => some (.clz f)
  | 0x034 => some (.popc f)
  | 0x035 => some (.brev f)
  | 0x036 => some (.sel f)
  | 0x037 => some (.mov f)
  | 0x03A => some (.cmpS f)
  | 0x03B => some (.cmpN f)
  | 0x03C => some (.iset f)
  | 0x03D => some (.plog f)
  | 0x03E => some (.add64 f)
  | 0x03F => some (.sub64 f)
  | 0x040 => some (.mul f)
  | 0x041 => some (.mulhS f)
  | 0x042 => some (.mulhN f)
  | 0x043 => some (.mad f)
  | 0x044 => some (.madhS f)
  | 0x045 => some (.madhN f)
  | 0x046 => some (.mul64S f)
  | 0x047 => some (.mul64N f)
  | 0x048 => some (.mad64S f)
  | 0x049 => some (.mad64N f)
  | 0x04A => some (.dot4Ss f)
  | 0x04B => some (.dot4Nn f)
  | 0x04C => some (.dot4Sn f)
  | 0x04D => some (.dot2 f)
  | 0x060 => some (.divS f)
  | 0x061 => some (.divN f)
  | 0x062 => some (.remS f)
  | 0x063 => some (.remN f)
  | 0x064 => some (.divrS f)
  | 0x065 => some (.divrN f)
  | 0x066 => some (.div64S f)
  | 0x067 => some (.div64N f)
  | 0x080 => some (.bfxS f)
  | 0x081 => some (.bfxN f)
  | 0x082 => some (.bfi f)
  | 0x083 => some (.prmb f)
  | 0x084 => some (.unpk3 f)
  | 0x085 => some (.pack3 f)
  | 0x086 => some (.tacc f)
  | 0x087 => some (.satnS f)
  | 0x088 => some (.satnN f)
  | 0x089 => some (.pk16 f)
  | 0x08A => some (.upk8S f)
  | 0x08B => some (.upk8N f)
  | 0x08C => some (.upk4S f)
  | 0x08D => some (.upk4N f)
  | 0x08E => some (.pkb f)
  | 0x08F => some (.msk f)
  | 0x0A0 => some (.faddF32 f)
  | 0x0A1 => some (.faddF16x2 f)
  | 0x0A2 => some (.faddBf16x2 f)
  | 0x0A3 => some (.fsubF32 f)
  | 0x0A4 => some (.fsubF16x2 f)
  | 0x0A5 => some (.fsubBf16x2 f)
  | 0x0A6 => some (.fmulF32 f)
  | 0x0A7 => some (.fmulF16x2 f)
  | 0x0A8 => some (.fmulBf16x2 f)
  | 0x0A9 => some (.fmaF32 f)
  | 0x0AA => some (.fmaF16x2 f)
  | 0x0AB => some (.fmaBf16x2 f)
  | 0x0AC => some (.fminF32 f)
  | 0x0AD => some (.fminF16x2 f)
  | 0x0AE => some (.fminBf16x2 f)
  | 0x0AF => some (.fmaxF32 f)
  | 0x0B0 => some (.fmaxF16x2 f)
  | 0x0B1 => some (.fmaxBf16x2 f)
  | 0x0B2 => some (.fcmpF32 f)
  | 0x0B3 => some (.fcmpF16x2 f)
  | 0x0B4 => some (.fcmpBf16x2 f)
  | 0x0B5 => some (.fsetF32 f)
  | 0x0B6 => some (.fsetF16x2 f)
  | 0x0B7 => some (.fsetBf16x2 f)
  | 0x0B8 => some (.fclsF32 f)
  | 0x0B9 => some (.fclsF16x2 f)
  | 0x0BA => some (.fclsBf16x2 f)
  | 0x0BB => some (.fsel f)
  | 0x0BC => some (.fdot2F16 f)
  | 0x0BD => some (.fdot2Bf16 f)
  | 0x0BE => some (.fscl f)
  | 0x0BF => some (.ffrc f)
  | 0x0C0 => some (.fdivF32 f)
  | 0x0C1 => some (.fdivF16 f)
  | 0x0C2 => some (.fsqrtF32 f)
  | 0x0C3 => some (.fsqrtF16 f)
  | 0x0C4 => some (.frcp f)
  | 0x0C5 => some (.frsq f)
  | 0x0C6 => some (.fexp2 f)
  | 0x0C7 => some (.flog2 f)
  | 0x0C8 => some (.fsin f)
  | 0x0C9 => some (.fcos f)
  | 0x0CA => some (.frndF32 f)
  | 0x0CB => some (.frndF16x2 f)
  | 0x0CC => some (.frndBf16x2 f)
  | 0x0CD => some (.cvtF32S32 f)
  | 0x0CE => some (.cvtF32N32 f)
  | 0x0CF => some (.cvtS32F32 f)
  | 0x0D0 => some (.cvtN32F32 f)
  | 0x0D1 => some (.cvtF16F32 f)
  | 0x0D2 => some (.cvtF32F16 f)
  | 0x0D3 => some (.cvtBf16F32 f)
  | 0x0D4 => some (.cvtF32Bf16 f)
  | 0x0D5 => some (.cvtF16x2F32 f)
  | 0x0D6 => some (.cvtBf16x2F32 f)
  | 0x0D7 => some (.cvtF32S64 f)
  | 0x0D8 => some (.cvtS64F32 f)
  | 0x0D9 => some (.cvtF16Bf16 f)
  | 0x0DA => some (.cvtBf16F16 f)
  | 0x0DB => some (.cvtF16S32 f)
  | _ => none

/-- The constructor of a word of format RI. -/
def instrRI (op : Nat) (f : RI) : Option Instr :=
  match op with
  | 0x038 => some (.movi f)
  | 0x039 => some (.lea f)
  | 0x1AC => some (.region f)
  | _ => none

/-- The constructor of a word of format M. -/
def instrMF (op : Nat) (f : MF) : Option Instr :=
  match op with
  | 0x120 => some (.ld8s f)
  | 0x121 => some (.ld8n f)
  | 0x122 => some (.ld16s f)
  | 0x123 => some (.ld16n f)
  | 0x124 => some (.ld32 f)
  | 0x125 => some (.ld64 f)
  | 0x126 => some (.ld128 f)
  | 0x127 => some (.st8 f)
  | 0x128 => some (.st16 f)
  | 0x129 => some (.st32 f)
  | 0x12A => some (.st64 f)
  | 0x12B => some (.st128 f)
  | 0x132 => some (.ldsp f)
  | 0x133 => some (.stsp f)
  | 0x134 => some (.brld f)
  | 0x135 => some (.chcfg f)
  | 0x136 => some (.chrd f)
  | 0x137 => some (.chwr f)
  | 0x138 => some (.chcnt f)
  | 0x139 => some (.chcls f)
  | 0x189 => some (.waits f)
  | _ => none

/-- The constructor of a word of format A. -/
def instrAF (op : Nat) (f : AF) : Option Instr :=
  match op with
  | 0x12C => some (.atom f)
  | 0x12D => some (.atom64 f)
  | 0x12E => some (.cas f)
  | 0x12F => some (.cas64 f)
  | 0x130 => some (.red f)
  | 0x131 => some (.red64 f)
  | _ => none

/-- The constructor of a word of format G. -/
def instrGF (op : Nat) (f : GF) : Option Instr :=
  match op with
  | 0x100 => some (.gsumI32 f)
  | 0x101 => some (.gsumF32 f)
  | 0x102 => some (.gsumS64 f)
  | 0x103 => some (.gminS f)
  | 0x104 => some (.gminN f)
  | 0x105 => some (.gminF f)
  | 0x106 => some (.gmaxS f)
  | 0x107 => some (.gmaxN f)
  | 0x108 => some (.gmaxF f)
  | 0x109 => some (.gand f)
  | 0x10A => some (.gor f)
  | 0x10B => some (.gxor f)
  | 0x10C => some (.gscanI32Inc f)
  | 0x10D => some (.gscanI32Exc f)
  | 0x10E => some (.gscanF32Inc f)
  | 0x10F => some (.gscanF32Exc f)
  | 0x110 => some (.gsegI32 f)
  | 0x111 => some (.gsegF32 f)
  | 0x112 => some (.gbcast f)
  | 0x113 => some (.gshuf f)
  | 0x114 => some (.gshufx f)
  | 0x115 => some (.gvote f)
  | 0x116 => some (.gcnt f)
  | 0x117 => some (.gelect f)
  | 0x118 => some (.grank f)
  | 0x119 => some (.gsync f)
  | 0x11A => some (.grow f)
  | 0x11B => some (.shrink f)
  | _ => none

/-- The constructor of a word of format E. -/
def instrEF (op : Nat) (f : EF) : Option Instr :=
  match op with
  | 0x140 => some (.cpy f)
  | 0x141 => some (.cpy2 f)
  | 0x142 => some (.cpyx f)
  | 0x143 => some (.cpyt f)
  | 0x144 => some (.mcast f)
  | 0x145 => some (.fill f)
  | 0x146 => some (.gath f)
  | 0x147 => some (.gath64 f)
  | 0x148 => some (.scat f)
  | 0x149 => some (.scata f)
  | 0x14A => some (.scata64 f)
  | 0x14B => some (.sump f)
  | 0x14C => some (.sumpw f)
  | 0x14D => some (.sigAdd f)
  | 0x14E => some (.sigSet f)
  | 0x14F => some (.swait f)
  | 0x150 => some (.coll f)
  | 0x151 => some (.ccan f)
  | 0x152 => some (.cstat f)
  | 0x153 => some (.waitc f)
  | 0x154 => some (.rdc f)
  | 0x155 => some (.probe f)
  | 0x156 => some (.ecan f)
  | 0x157 => some (.fencee f)
  | _ => none

/-- The constructor of a word of format X. -/
def instrXF (op : Nat) (f : XF) : Option Instr :=
  match op with
  | 0x0E0 => some (.xtld f)
  | 0x0E1 => some (.xtrl f)
  | 0x0E2 => some (.xrst f)
  | 0x0E3 => some (.xdg f)
  | 0x0E4 => some (.xdg2 f)
  | 0x0E5 => some (.xdu f)
  | 0x0E6 => some (.xfin f)
  | 0x0E7 => some (.xcmp f)
  | 0x0E8 => some (.xstr f)
  | 0x0E9 => some (.xstw f)
  | 0x0EA => some (.xlen f)
  | 0x0EB => some (.xqry f)
  | _ => none

/-- The constructor of a word of format B. -/
def instrBF (op : Nat) (f : BF) : Option Instr :=
  match op with
  | 0x000 => some (.nop f)
  | 0x001 => some (.bra f)
  | 0x002 => some (.brp f)
  | 0x003 => some (.brrZ f)
  | 0x004 => some (.brrNz f)
  | 0x005 => some (.brrLt f)
  | 0x006 => some (.brrGe f)
  | 0x007 => some (.loop f)
  | 0x008 => some (.call f)
  | 0x009 => some (.calli f)
  | 0x00A => some (.ret f)
  | 0x00B => some (.jmpi f)
  | 0x00C => some (.brt f)
  | 0x00D => some (.exit f)
  | 0x00E => some (.park f)
  | 0x00F => some (.yield f)
  | _ => none

/-- The constructor of a word of format S. -/
def instrSF (op : Nat) (f : SF) : Option Instr :=
  match op with
  | 0x160 => some (.ttset f)
  | 0x161 => some (.ttget f)
  | 0x162 => some (.mstart f)
  | 0x163 => some (.mstop f)
  | 0x164 => some (.mstat f)
  | 0x180 => some (.fence f)
  | 0x181 => some (.bar f)
  | 0x182 => some (.bara f)
  | 0x183 => some (.barw f)
  | 0x184 => some (.bari f)
  | 0x185 => some (.gbara f)
  | 0x186 => some (.gbarw f)
  | 0x187 => some (.sealRange f)
  | 0x188 => some (.unsealEntry f)
  | 0x18A => some (.fencei f)
  | 0x1A0 => some (.srd f)
  | 0x1A1 => some (.swr f)
  | 0x1A2 => some (.trap f)
  | 0x1A3 => some (.brk f)
  | 0x1A4 => some (.reth f)
  | 0x1A5 => some (.launch f)
  | 0x1A6 => some (.launchw f)
  | 0x1A7 => some (.task f)
  | 0x1A8 => some (.taskp f)
  | 0x1A9 => some (.tasks f)
  | 0x1AA => some (.amsg f)
  | 0x1AB => some (.amsgr f)
  | 0x1AD => some (.perf f)
  | 0x1AE => some (.stamp f)
  | 0x1AF => some (.wpset f)
  | 0x1B0 => some (.wpclr f)
  | 0x1B1 => some (.hint f)
  | 0x1B2 => some (.pswr f)
  | 0x1B3 => some (.pctx f)
  | _ => none

/-- The constructor of a word of format MS. -/
def instrMSF (op : Nat) (f : MSF) : Option Instr :=
  match op with
  | 0x170 => some (.mmac f)
  | 0x171 => some (.mzero f)
  | 0x172 => some (.mdrain f)
  | 0x173 => some (.mbara f)
  | 0x174 => some (.mbarw f)
  | 0x175 => if f.mode.val = 1 then some (.mloopEnd f) else some (.mloop f)
  | 0x176 => some (.mjmp f)
  | 0x177 => some (.mend f)
  | 0x178 => some (.mred f)
  | 0x179 => some (.mldacc f)
  | 0x17A => some (.mstacc f)
  | 0x17B => some (.msel f)
  | 0x17C => some (.mscl f)
  | 0x17D => some (.mwaitc f)
  | 0x17E => some (.mnop f)
  | _ => none

/-- The instruction a view is. -/
def View.instr : View → Option Instr
  | .rrr op _ f => instrRRR op f
  | .ri op _ f => instrRI op f
  | .m op _ f => instrMF op f
  | .a op _ f => instrAF op f
  | .g op _ f => instrGF op f
  | .e op _ f => instrEF op f
  | .x op _ f => instrXF op f
  | .b op _ f => instrBF op f
  | .s op _ f => instrSF op f
  | .ms op _ f => instrMSF op f
  | .event => none

/-- The word's instruction, or the decode trap it raises. -/
def decodeWord (w : Nat) : Except DecodeError Instr :=
  match decodeView w with
  | .ok v => (match v.instr with | some i => .ok i | none => .error .illegalInstruction)
  | .error e => .error e

/-- Decoding the first eight bytes of a list: the instruction and the rest. -/
def decodeBytes (bs : List Byte) : Except DecodeError (Instr × List Byte) :=
  if bs.length < 8 then .error .illegalInstruction
  else
    match decodeWord (leNat (bs.take 8)) with
    | .ok i => .ok (i, bs.drop 8)
    | .error e => .error e

/-- The instruction the decoder reads from the word whose low `nbits` bits are `w`; the bits above are 0. -/
def decodeTableWord (nbits w : Nat) : Option Instr :=
  match decodeBytes (leBytes 8 (w % 2 ^ nbits)) with
  | .ok (i, _) => some i
  | .error _ => none

end

end Sys2Proof
end

