-- ==== Sys2Proof/Machine/Memory.lean ====
section
/-! DEFINITION. Sparse maps by key, and the byte memory in its one canonical form (addresses strictly rising, no byte that an unlisted
address reads as). -/

namespace Sys2Proof.Machine

/-- A map from numbers, as a list of pairs. -/
abbrev AList (α : Type) := List (Nat × α)

/-- What a map holds at a key. -/
def AList.get? {α : Type} : AList α → Nat → Option α
  | [], _ => none
  | (j, x) :: r, k => if j = k then some x else AList.get? r k

/-- What a map holds at a key, or a default. -/
def AList.getD {α : Type} (m : AList α) (k : Nat) (d : α) : α := (AList.get? m k).getD d

/-- The map with a value put at a key. -/
def AList.put {α : Type} : AList α → Nat → α → AList α
  | [], k, x => [(k, x)]
  | (j, y) :: r, k, x => if k < j then (k, x) :: (j, y) :: r else if k = j then (k, x) :: r else (j, y) :: AList.put r k x

/-- The map without a key. -/
def AList.del {α : Type} : AList α → Nat → AList α
  | [], _ => []
  | (j, y) :: r, k => if j = k then AList.del r k else (j, y) :: AList.del r k

/-- The map with a function applied at a key it holds. -/
def AList.upd {α : Type} (m : AList α) (k : Nat) (f : α → α) : AList α :=
  match AList.get? m k with
  | some x => AList.put m k (f x)
  | none => m

/-- The map with a function applied to every value. -/
def AList.mapVals {α : Type} (m : AList α) (f : Nat → α → α) : AList α := m.map (fun p => (p.1, f p.1 p.2))

/-- The memory of the part: (physical address, byte) pairs. -/
abbrev Memory := List Host.Cell

/-- What an address that is not listed reads as: every DRAM channel and cavern slice is cleared at boot and every scratch resource
at its allocation (05 R93); before that, and in host, CXL and flash memory, the choice of log 2 and log 3. -/
def unlistedByte : Byte := 0

/-- The byte at an address. -/
def Memory.read : Memory → Nat → Byte
  | [], _ => unlistedByte
  | (j, b) :: r, a => if j = a then b else Memory.read r a

/-- The memory with one byte written, in canonical form. -/
def Memory.write : Memory → Nat → Byte → Memory
  | [], a, b => if b = unlistedByte then [] else [(a, b)]
  | (j, c) :: r, a, b =>
    if a < j then (if b = unlistedByte then (j, c) :: r else (a, b) :: (j, c) :: r)
    else if a = j then (if b = unlistedByte then r else (a, b) :: r)
    else (j, c) :: Memory.write r a b

/-- Bytes `a` to `a + n - 1`. -/
def Memory.readBytes (m : Memory) (a : Nat) : Nat → List Byte
  | 0 => []
  | n + 1 => m.read a :: Memory.readBytes m (a + 1) n

/-- The memory with a run of bytes written from `a` on. -/
def Memory.writeBytes (m : Memory) (a : Nat) : List Byte → Memory
  | [] => m
  | b :: bs => Memory.writeBytes (m.write a b) (a + 1) bs

/-- The memory with bytes `a` to `a + n - 1` cleared (05 R93). -/
def Memory.clear (m : Memory) (a n : Nat) : Memory := m.filter (fun c => c.1 < a || a + n ≤ c.1)

/-- Whether every address of a memory is at least `lo`, they rise strictly, and no listed byte is the unlisted one. -/
def Memory.wfFrom : Nat → Memory → Bool
  | _, [] => true
  | lo, (j, b) :: r => lo ≤ j && b != unlistedByte && Memory.wfFrom (j + 1) r

/-- The canonical form of a memory. -/
def Memory.wf (m : Memory) : Bool := Memory.wfFrom 0 m

/-! ## Where each memory of the part stands in the one address space of the model (log 10) -/

/-- Byte `o` of core `c`'s scratchpad, 1 MiB each (00 Table 0.2). -/
def scratchAddr (c o : Nat) : Nat := c * 2 ^ 20 + o
/-- Byte `o` of die `d`'s cavern, 64 MiB each (00 Table 0.1). -/
def cavernAddr (d o : Nat) : Nat := 2 ^ 28 + d * 2 ^ 26 + o
/-- Physical byte `pa` of die `d`'s bonded DRAM, 64 GiB each (14 R202). -/
def dramAddr (d pa : Nat) : Nat := 2 ^ 40 + d * 2 ^ 36 + pa
/-- Byte `pa` of the attached CXL memory (14 R202). -/
def cxlAddr (pa : Nat) : Nat := 2 ^ 44 + pa
/-- Byte `o` of the 16 MiB staging area (04 R68). -/
def stagingAddr (o : Nat) : Nat := 2 ^ 45 + o
/-- Byte `a` of host memory. -/
def hostAddr (a : Nat) : Nat := 2 ^ 64 + a

/-- The host of a scratch or cavern byte (18 R258): the core that holds it, or the cavern line. -/
def hostOf (a : Nat) : Nat := if a < 2 ^ 28 then a / 2 ^ 20 else a / 64

end Sys2Proof.Machine
end

