-- ==== Sys2Proof/Machine/State.lean ====
section
/-! DEFINITION. Everything the spec gives the machine, as plain data, and the state after reset. Lanes are keyed group × 32 + position, groups
team × 128 + group index (01 R23). -/

namespace Sys2Proof.Machine

/-- A clause as fetched: the offset of its header, the header, and its words (02 R36, 06 R104). -/
structure Clause where
  at_ : Nat
  hdr : Nat
  words : List Nat
  deriving DecidableEq, Repr

/-- An arrival at a rendezvous with its kept operands (07 R122, R123). -/
structure Arrival where
  tag : Nat
  op : Nat
  imm : Nat
  pred : Bool
  a : Val
  b : Val
  c : Val
  dst : Operand
  pd : Nat
  deriving DecidableEq, Repr

/-- What a lane waits on besides its clause (07 R116). -/
inductive Block where
  /-- Nothing. -/
  | free
  /-- A pending rendezvous (07 R122). -/
  | rendezvous (x : Arrival)
  /-- BARA or BAR of a group already counted in the phase: it arrives when the phase completes (18 R272); the flag says BAR. The numbered
  barrier 16 is the grid barrier (18 R273). -/
  | barArrive (nb : Nat) (thenWait : Bool)
  /-- The end of a phase (18 R272). -/
  | barWait (nb phase : Nat)
  /-- A class counter (15 R229); the flag says that the wait has ended and the word issues next. -/
  | waitc (cls n pc : Nat)
  /-- In-flight operations of this group: SEAL, UNSEAL, FENCEI, WAITS (18 R274 to R276). -/
  | op (id : Nat)
  /-- Children not yet handed on (04 R85). -/
  | children (ids : List Nat)
  /-- PARK: cycles still owed, counted from a cycle (06 R114). -/
  | park (since owed : Nat)
  /-- YIELD: the group's opportunity count and the cycle of its step (06 R114). -/
  | yield (opps since : Nat)
  deriving DecidableEq, Repr

/-- One lane (see INVENTORY.md). -/
structure Lane where
  live : Bool
  v : AList W32
  p : BitVec 7
  c : AList Nat
  fpflags : BitVec 9
  fprm : BitVec 3
  xs : BitVec 8
  cd : Nat
  pc : W32
  clause : Option Clause
  /-- The serial at which the lane entered its clause (02 R42). -/
  entered : Nat
  badClause : Bool
  block : Block
  readyAt : Nat
  skid : BitVec 6
  /-- The serial of the step in which the lane exited, and the address of its EXIT (15 R215). -/
  exitAt : Option (Nat × Nat)
  deriving DecidableEq, Repr

/-- What a lane's long-latency operation will do when it completes (08 R131, 11 R166 to R170, 12 R188, 18 R274 to R276). Addresses are
physical. -/
inductive OpKind where
  | value (writes : List (Nat × W32)) (flags : BitVec 9) (divider : Bool)
  | load (at_ w : Nat) (signed : Bool) (dst : Operand) (regs : Nat) (drop : Bool)
  | store (at_ : Nat) (data : List Byte) (drop : Bool)
  | atomic (at_ w aop : Nat) (data : Nat) (dst : Operand) (ret acq rel drop : Bool) (scope : Nat)
  | cas (at_ w cmp new : Nat) (dst : Operand) (acq rel drop : Bool) (scope : Nat)
  | brld (at_ slot : Nat) (drop : Bool)
  | chwr (at_ q entry : Nat) (drop : Bool)
  /-- A local push behind accesses of its group that are not yet performed: its slot's bytes (11 R174, 18 R265). -/
  | push (at_ q entry : Nat) (bytes : List Byte)
  | waits (at_ : Nat) (cmp : W32) (dst : Operand) (drop : Bool)
  | xtld (at_ ctx img extentEnd : Nat) (left : List Nat) (found : Option (List Byte × Bool))
  | fencei
  | sealing (entry : Nat) (opening : Bool) (dst : Operand)
  deriving DecidableEq, Repr

/-- A long-latency lane operation in flight; `ctrs` are the counters that fall with it, keyed
lane position × 16 + counter, with their amounts (02 R40). -/
structure LaneOp where
  id : Nat
  lane : Nat
  pc : Nat
  step : Nat
  space : Nat
  off : Nat
  kind : OpKind
  ctrs : List (Nat × Nat)
  deriving DecidableEq, Repr

/-- A fence in force: which kind (1 acquire, 2 release, 3 both), that it covers what was issued before a serial, and its scope (18 R271, Table
18.1). -/
structure Fence where
  kind : Nat
  serial : Nat
  scope : Nat
  deriving DecidableEq, Repr

/-- One group. -/
structure Group where
  core : Nat
  port : Nat
  slot : Nat
  producer : Bool
  budget : Nat
  granules : List Nat
  patience : Nat
  s : AList Nat
  last : Option Nat
  grant : Option Nat
  /-- The cycle in which the pending grant request was made (05 R99). -/
  grantAt : Nat
  oc : AList Nat
  skips : AList Nat
  /-- Commands issued so far by class: what WAITC's n counts back from (15 R229). -/
  issued : AList Nat
  ops : List LaneOp
  fences : List Fence
  epoch : Nat
  halted : Bool
  retired : Bool
  handler : Bool
  skipBreak : Bool
  /-- The group's BRK took a debug stop, and runs as a NOP in the first step after the resume (21 R289, 22 R303). -/
  passBrk : Bool
  spillAt : Nat
  region : List Nat
  opps : Nat
  placedAt : Nat
  perf : AList Nat
  deriving DecidableEq, Repr

/-- One element of a chute ring, from the head on (11 R174): when it may be popped, the serial its push releases (nothing of the pushing
group issued before it is still in flight), the pushing group, and whether its bytes have landed (11 R177). -/
structure Element where
  serial : Nat
  group : Nat
  from_ : Nat
  landed : Bool
  forwarded : Bool
  deriving DecidableEq, Repr

/-- An element on the way from a remote producer: the serial and lane of its push, the word's address and step, the cycle from which it can have arrived
(11 R174), and its bytes. -/
structure Push where
  serial : Nat
  lane : Nat
  pc : W32
  step : Nat
  from_ : Nat
  bytes : List Byte
  deriving DecidableEq, Repr

/-- One chute (11 R171 to R178). -/
structure Chute where
  desc : Option (BitVec 64)
  head : Nat
  elems : List Element
  closed : Bool
  /-- The group and serial of the CHCLS, which releases like a push (18 R269). -/
  closedBy : Nat
  closedSerial : Nat
  /-- The mirrored free count of a remote or command-processor producer end. -/
  free : Nat
  /-- Free-slot notices on the way to the producer end. -/
  notices : Nat
  /-- Elements on the way from a remote producer, oldest first. -/
  arriving : List Push
  /-- The window of a remote consumer end. -/
  window : List (List Byte)
  /-- Window pops whose notices are on the way to the host. -/
  popped : Nat
  /-- The cycle of the last window pop (11 R175). -/
  poppedAt : Option Nat
  /-- Tail elements have been withdrawn from the window for a tail pop (11 R175). -/
  withdrawn : Bool
  /-- The close notice has arrived at a remote consumer's core (11 R176). -/
  closedThere : Bool
  /-- The cycle of the last freed slot, and how many were freed in it (11 R174). -/
  freedAt : Nat
  freedN : Nat
  deriving DecidableEq, Repr

/-- A numbered barrier (18 R272); lanes arrived but not counted are kept by group index, with the serial of the arrival. -/
structure Barrier where
  expected : Nat
  phase : BitVec 16
  counted : List Nat
  lanes : AList (BitVec 32)
  serials : AList Nat
  last : AList Nat
  seq : Bool
  deriving DecidableEq, Repr

/-- A calliope context (12 R179), keyed team core index × 8 + number: 0 empty, 1 loading, 2 loaded, 3 failed. -/
structure Context where
  cond : Nat
  image : List Byte
  detail : W32
  deriving DecidableEq, Repr

/-- An accumulator cell with its shadow (17 R241, R256). -/
structure Cell where
  v : Int
  pinf : Bool
  ninf : Bool
  nan : Bool
  ovf : Bool
  shadowV : Nat
  shadowBits : Nat
  deriving DecidableEq, Repr

/-- An accumulator tile and its record (17 R241). -/
structure Tile where
  cells : AList Cell
  tta : Nat
  ttb : Nat
  ti : Nat
  tj : Nat
  deriving DecidableEq, Repr

/-- What the sequencer waits on (17 R246). -/
inductive SeqWait where
  | free
  | barArrive (nb : Nat)
  | barWait (nb phase : Nat)
  | copies (n : Nat)
  deriving DecidableEq, Repr

/-- The matrix sequencer (17 R246). -/
structure Sequencer where
  run : Bool
  spc : Nat
  loops : List (Nat × Nat)
  slots : AList (BitVec 128 × Nat)
  red : Bool
  status : BitVec 4
  fault : Bool
  wait : SeqWait
  /-- The key of the MSTART whose stream runs. -/
  starter : Nat
  /-- Halted with its team while a handler runs (21 R287). -/
  halted : Bool
  deriving DecidableEq, Repr

/-- A trap record (21 Table 21.1). -/
structure TrapRecord where
  stamp : Nat
  cycle : Nat
  mask : BitVec 32
  cause : Nat
  stream : Bool
  inhdl : Bool
  group : Nat
  pc : W32
  core : Nat
  tx : Nat
  ty : Nat
  tz : Nat
  phases : BitVec 32
  detail : BitVec 128
  /-- The serial of the issue step that hit a watchpoint; 0 for every other record (22 R304). -/
  step : Nat
  deriving DecidableEq, Repr

/-- What runs in a team (01 R26, 04 R88, 21 §21.9). -/
inductive TeamKind where
  | ordinary
  | task (record : List Byte) (succ : Nat)
  | message (src : Nat)
  | service
  deriving DecidableEq, Repr

/-- Where a team stands (21 R292 to R296, 25 R318). -/
inductive Residency where
  | resident
  | saved (why : Nat) (page : Nat) (queued : Bool) (addr : Nat)
  | ended
  | retired
  deriving DecidableEq, Repr

/-- A stop held on a team (22 R302). -/
structure StopHold where
  scope : Nat
  target : Nat
  deriving DecidableEq, Repr

/-- The trap frame: the trapping group's state while its handler runs, and the record that the handler was given (21 R287). -/
structure Frame where
  gi : Nat
  record : TrapRecord
  group : Group
  lanes : AList Lane
  spill : List Byte
  deriving DecidableEq, Repr

/-- A kernel as dispatched: image address, header word and image descriptor word (01 R18), and where its code is read from. -/
structure Kernel where
  image : Nat
  hdr : Nat
  idw : Nat
  deriving DecidableEq, Repr

/-- One team. -/
structure Team where
  grid : Nat
  index : Nat
  kernel : Kernel
  kind : TeamKind
  x : Nat
  y : Nat
  z : Nat
  lanes : Nat
  cores : List Nat
  chamberAt : List Nat
  groups : Nat
  slots : AList (BitVec 256)
  chutes : AList Chute
  tt : AList (BitVec 128)
  barriers : AList Barrier
  phases : BitVec 32
  contexts : AList Context
  tiles : AList Tile
  seqr : Sequencer
  record : Option TrapRecord
  handling : Bool
  frame : Option Frame
  frameHeld : Bool
  /-- The halt in force: trigger cycle and triggering core (21 R283). -/
  trigger : Option (Nat × Nat)
  stops : List StopHold
  saveFor : Option (Nat × Nat)
  residency : Residency
  /-- The record stands for a debug stop taken in place of a trap, and goes with the resume (21 R289, 22 R303). -/
  stopRecord : Bool
  /-- What the header of its image says of the start of the save: the time, whether it was under a debug stop, and whether a handler was running
  (21 Table 21.3). -/
  savedAt : Nat
  savedHalted : Bool
  savedHandling : Bool
  /-- Scratchpad bytes of a saved team, with where they came from (21 Table 21.4). -/
  image : List (Nat × List Byte)
  deriving DecidableEq, Repr

/-- A child of a merged grid (04 R83, R84). -/
structure Child where
  key : Nat
  id : W64
  args : W64
  first : Nat
  count : Nat
  gx : Nat
  gy : Nat
  gz : Nat
  status : Nat
  desc : BitVec 512
  retired : Nat
  done : Bool
  deriving DecidableEq, Repr

/-- A launch and its grid. -/
structure Grid where
  id : W64
  desc : BitVec 512
  kernel : Kernel
  feed : Option Nat
  issuer : Option Nat
  partition : Nat
  prio : Nat
  service : Bool
  teams : Nat
  /-- Unstarted ranges by cluster: first index and length, oldest first (04 R77). -/
  ranges : AList (List (Nat × Nat))
  retired : Nat
  tasks : Nat
  children : List Child
  barrier : Barrier
  accepted : Bool
  complete : Bool
  status : Nat
  cause : Nat
  record : Option TrapRecord
  dispatchAt : Nat
  sliceAt : Nat
  /-- Cycles counted in each field of the time record (22 R313). -/
  fault : Nat
  io : Nat
  engine : Nat
  pinned : Bool
  deriving DecidableEq, Repr

/-- An aggregation window (04 R83): die, the cycle its first child arrived, whether it has closed and only waits for a halted Fiaris complex
(22 R307), and its children as grid keys in arrival order. -/
structure Window where
  die : Nat
  opened : Nat
  closed : Bool
  children : List Nat
  /-- The place of a window that is held closed among those held: they are handed on in the order in which they closed (22 R307). -/
  shut : Nat := 0
  deriving DecidableEq, Repr

/-- A message in a handler chute or an outbound buffer (04 R88 to R90). -/
structure Message where
  target : Nat
  device : Nat
  handler : Nat
  src : Nat
  partition : Nat
  reply : Bool
  refused : Bool
  payload : List W32
  deriving DecidableEq, Repr

/-- A watchpoint (22 R304): chamber or scratchpad offset, scratchpad offset, kind, action, fw, and its holder (none: the debugger). -/
structure Watch where
  shown : Nat
  off : Nat
  kind : Nat
  action : Nat
  fw : Bool
  team : Option Nat
  deriving DecidableEq, Repr

/-- What a port last issued, as a sample shows it (22 Table 22.6): group, lane mask, class, clause tag, and whether nothing issued. -/
structure Sample where
  group : Nat
  mask : BitVec 32
  cls : Nat
  tag : Nat
  idle : Bool
  deriving DecidableEq, Repr

/-- A record of a task deque beside its bytes: the grid it belongs to (25 R319), and the group and serial of its push, which releases (11 R175,
18 R269). -/
structure TaskEntry where
  grid : Nat
  group : Nat
  serial : Nat
  deriving DecidableEq, Repr

/-- One compute core. -/
structure Core where
  dqbase : BitVec 32
  dqlim : BitVec 32
  dqHead : Nat
  dqCount : Nat
  /-- The deque's records, from the head on. -/
  dqTasks : List TaskEntry
  inbox : List Message
  outbox : List Message
  grants : List Nat
  ptr : AList Nat
  served : AList Nat
  busy : AList Nat
  /-- The clauses the instruction cache holds, with the images they are of, most recently used first (06 R104). -/
  icache : List (Nat × Clause)
  watches : AList Watch
  samples : AList Sample
  steps : Nat
  retired : Bool
  retiredPorts : List Nat
  retiredBanks : List Nat
  /-- Banks that have failed and are retired once no group holds their granules (25 Table 25.7). -/
  failedBanks : List Nat
  deriving DecidableEq, Repr

/-- An engine fault (15 Table 15.1). -/
structure EngineFault where
  addr : Nat
  ord : Nat
  code : Nat
  slot : Nat
  deriving DecidableEq, Repr

/-- The state of an engine command (15 R212, R215). -/
inductive CmdState where
  | queued | performing | parked | done
  deriving DecidableEq, Repr

/-- An engine command (15 R211 to R216). -/
structure Command where
  group : Nat
  lane : Nat
  cls : Nat
  seq : Nat
  op : Nat
  word : Nat
  pc : Nat
  chan : Nat
  d : Nat
  aux : Nat
  cnt : Nat
  sd : BitVec 256
  ss : BitVec 256
  sx : BitVec 256
  sdN : Nat
  ssN : Nat
  sxN : Nat
  dst : Operand
  epoch : Nat
  /-- Issued by a handler group: the group it stands in for has its own commands and counters (21 R287). -/
  inh : Bool
  st : CmdState
  performed : List Nat
  fault : Option EngineFault
  reported : Bool
  counted : Bool
  flags : BitVec 9
  skip : Nat
  /-- Skips and flags noted of elements not yet performed, by element (15 R214, R215). -/
  pend : AList (Nat × BitVec 9)
  /-- Bytes written so far (22 Table 22.7). -/
  moved : Nat
  /-- Accesses made so far of an element not yet performed, and the bytes they read. -/
  stage : AList Nat
  buf : AList (List Byte)
  /-- Requests on the way to another part: the link, the cycle of sending and the part, by element (14 R209). -/
  sent : AList (Nat × Nat × Nat)
  /-- The page a parked command waits for, whether it has been mapped since, and whether the pager has declared it unserviceable (15 R215). -/
  page : Nat
  mapped : Bool
  unserved : Bool
  frozen : Bool
  deriving DecidableEq, Repr

/-- An open collective entry (15 R227): the descriptor's bytes, none of them while it has not been read, and the contributions taken. -/
structure Collective where
  desc : List Byte
  partition : Nat
  /-- The serial at which its first COLL arrived. -/
  opened : Nat
  taken : AList (List Byte)
  deriving DecidableEq, Repr

/-- A feed window and its buffered entries (04 Table 4.3). -/
structure Feed where
  base : W64
  enable : Bool
  size : Nat
  work : Bool
  partition : Nat
  tail : W32
  head : W32
  stopped : Bool
  stop : Nat
  reject : Nat
  wlaunch : W64
  chute : Nat
  team : W32
  entries : List (List Byte)
  launches : List Nat
  deriving DecidableEq, Repr

/-- A seal-table entry (18 R274); `team` and `die` say whose chamber or which die's cavern, and `by_` which SEAL made it. `ready` once that has completed,
from when the owners refuse writes to the bytes it translates to (14 R204); `told` once another part that owns the range has been asked to register it,
or to forget it. An entry that an UNSEAL is clearing stands under its number and 16 times one more than the serial of the UNSEAL. -/
structure SealEntry where
  space : Nat
  base : Nat
  len : Nat
  team : Nat
  die : Nat
  by_ : Nat
  ready : Bool
  told : Bool
  deriving DecidableEq, Repr

/-- A replica of a sealed page in a die's reserved slice (14 R204): die, partition, virtual page and the cavern offset of its bytes. -/
structure Replica where
  die : Nat
  partition : Nat
  page : Nat
  at_ : Nat
  deriving DecidableEq, Repr

/-- A purge in progress (14 R203): the leaf, its companion word's receivers still owing an answer (dies 0 to 4, parts as 8 + n). -/
structure PurgeWait where
  owner : Nat
  partition : Nat
  page : Nat
  /-- How many 64 KiB pages the leaf covers. -/
  span : Nat
  leaf : Nat
  waiting : List Nat
  /-- The receivers among them that are other parts to which no purge has been sent yet. -/
  untold : List Nat
  deriving DecidableEq, Repr

/-- A leaf whose frame is being moved out of a failed channel (25 R329): the channel, the partition, the owner die and the offset of the page with the bits
that it covers, its entry, the frame it goes to, and the purge that has to end first. -/
structure Move where
  die : Nat
  chan : Nat
  part : Nat
  owner : Nat
  off : Nat
  bits : Nat
  entry : Nat
  dst : Nat
  purge : Nat
  deriving DecidableEq, Repr

/-- A range sealed by another part that this part owns: who registered it, the partition, the owner die, the offset and the length (14 R204). -/
structure FarSeal where
  from_ : Requester
  partition : Nat
  die : Nat
  off : Nat
  len : Nat
  deriving DecidableEq, Repr

/-- A SWAIT of another part that waits at a signal this part owns (15 R225), and the link on which it is answered (14 R209). -/
structure FarWait where
  from_ : Requester
  link : Nat
  partition : Nat
  die : Nat
  off : Nat
  value : Nat
  deriving DecidableEq, Repr

/-- One link (14 R207 to R209): a Drexon link, or one of the links inside the package (log 15). -/
structure Link where
  enabled : Bool
  up : Bool
  retraining : Bool
  txNext : Nat
  /-- Payloads that wait for the send window or for the link to come up. -/
  queue : List (List Byte)
  retry : List (Nat × List Byte)
  resend : List Nat
  failures : AList Nat
  rxNext : Nat
  held : AList (List Byte)
  delivered : List (List Byte)
  /-- The flit at a gap whose replay has been asked for and that has not come (14 R208). -/
  requests : List Nat
  lanes : List Nat
  /-- Outstanding requests by part (14 R209). -/
  outstanding : AList Nat
  deriving DecidableEq, Repr

/-- One direction of a command link (04 R76). -/
structure CmdLink where
  permits : Nat
  inbox : List (List Byte)
  deriving DecidableEq, Repr

/-- The firmware window (04 Table 4.2a). -/
structure Firmware where
  src : W64
  len : W32
  state : Nat
  error : Nat
  ver : W32
  sver : W32
  mfw : BitVec 256
  mstaged : BitVec 256
  quotes : List (List Nat × Nat)
  deriving DecidableEq, Repr

/-- A breakpoint (22 Table 22.2), with the launch and team it is keyed by. -/
structure Breakpoint where
  image : W64
  pc : W32
  enable : Bool
  scope : Nat
  launch : W64
  team : W32
  deriving DecidableEq, Repr

/-- A trace ring (22 Table 22.2). -/
structure Ring where
  base : W64
  size : Nat
  tail : W32
  head : W32
  ovf : W32
  deriving DecidableEq, Repr

/-- The debug window (22 Table 22.2, 25 Table 25.3). -/
structure Debug where
  part : Nat
  att : Bool
  brk : Bool
  /-- Accepted stops of cluster, die and device scope still in force: scope and target. -/
  stops : List (Nat × Nat)
  /-- Accepted cluster stops that stop nothing, because the attached partition does not hold the cluster (22 R301). -/
  idleStops : List (Nat × Nat)
  sel : W64
  team : W32
  group : Nat
  error : Nat
  left : Nat
  why : Nat
  stepping : Option Nat
  /-- The first of the steps asked for is still to come: it clears the team's skids (22 R308). -/
  stepFirst : Bool
  bp : AList Breakpoint
  wp : AList (BitVec 36)
  trace : Bool
  k : Nat
  rings : AList Ring
  dump : W64
  dumpBusy : Bool
  dumpFail : Bool
  dumpTeam : Nat
  /-- The dump's stamp, once what was in flight has landed (25 R323). -/
  dumpAt : Option Nat
  /-- The dump as it stands at the stamp. -/
  dumpImage : List Byte
  dumpStamp : Nat
  deriving DecidableEq, Repr

/-- The report-ring window (25 Table 25.1). -/
structure Report where
  base : W64
  enable : Bool
  size : Nat
  tail : W32
  head : W32
  lost : W32
  deriving DecidableEq, Repr

/-- The health record of a die (25 Table 25.6); the bit maps of retired units follow from the cores, channels and links. -/
structure Health where
  stamp : Nat
  crf : W32
  csp : W32
  ccv : W32
  cdr : W32
  flit : W32
  unc : W32
  msg : W32
  sealRefused : W32
  tmax : Nat
  alarm : Bool
  chans : List Nat
  /-- Channels that have failed and wait for their migration (25 R329). -/
  failing : List Nat
  deriving DecidableEq, Repr

/-- The boot flash (04 R65, R67). -/
structure Flash where
  image : List Byte
  recordBytes : List Byte
  deriving DecidableEq, Repr

/-- A lane word of the step in progress: its lane, its word and the offset of the word. -/
structure StepLane where
  pos : Nat
  word : Nat
  pc : Nat
  deriving DecidableEq, Repr

/-- An effect that a lane of the step in progress leaves for the end of the step: the point's opcode, what it names, and a value. -/
structure Pend where
  op : Nat
  x : Nat
  y : Nat
  deriving DecidableEq, Repr

/-- What a lane of the step reads as the operands of a PSWR or PCTX, which the others of the step look at (21 R298, R299): its word, and a and b, with what
the lanes below it pop already gone. -/
structure SysRead where
  pos : Nat
  word : Nat
  a : Nat
  b : Nat
  deriving DecidableEq, Repr

/-- An issue step in progress (07 R118): the group, the class chosen, its lanes still to execute, all its lanes, whether their trap checks have
been made, what the words of the step read as of its start (the ready lanes by class, its serial, counters, skip counts and tensor entries, and the operands of its
PSWRs and PCTXs), and what they leave for its end. -/
structure IssueStep where
  group : Nat
  cls : Nat
  todo : List StepLane
  all : List StepLane
  checked : Bool
  ready : List (Nat × Nat)
  serial : Nat
  oc0 : AList Nat
  skips0 : AList Nat
  tt0 : AList (BitVec 128)
  reads : List SysRead
  pend : List Pend
  deriving DecidableEq, Repr

/-- Whose step is next. -/
inductive Turn where
  | idle
  | issue (st : IssueStep)
  | stream (team : Nat)
  deriving DecidableEq, Repr

/-- One entry of the schedule: an event, a stream word of a team, cycles going by, a write of memory by the host or by Fiaris, a table root
that Fiaris writes, or a service launch that it posts (log 1). -/
inductive Sched where
  | ev (i : Instr)
  | seq (team : Nat)
  | tick (n : Nat)
  | memWrite (addr : Nat) (bytes : List Byte)
  | root (owner part : Nat) (table : Option Nat)
  | service (desc : BitVec 512)
  deriving DecidableEq, Repr

/-- The machine. -/
structure State where
  turn : Turn
  schedule : List Sched
  cycle : Nat
  /-- What the counter is ahead of the part's own count of nanoseconds (00 R12). -/
  clockBase : Int
  gtsHigh : W32
  serial : Nat
  freeN : Nat
  mem : Memory
  lanes : AList Lane
  groups : AList Group
  teams : AList Team
  grids : AList Grid
  cores : AList Core
  cmds : AList Command
  windows : AList Window
  launchQueue : AList Nat
  colls : AList Collective
  feeds : AList Feed
  sealTables : AList (AList SealEntry)
  replicas : List Replica
  roots : AList Nat
  tcache : AList (Nat × Nat)
  purges : AList PurgeWait
  /-- The leaf that is being moved out of a failed channel (25 R329). -/
  move : Option Move
  farSeals : List FarSeal
  farWaits : List FarWait
  links : AList Link
  absent : List Nat
  cmdLinks : AList CmdLink
  fw : Firmware
  fwHalted : Bool
  stoppedCores : List Nat
  vacating : List Nat
  /-- The cycle in which the window of a core that is being vacated ends, by core (21 R292). -/
  vacateAt : AList Nat
  dbg : Debug
  report : Report
  health : AList Health
  /-- The corrected errors of the last second, by unit, with the times at which they were corrected (25 R328). -/
  eccLog : List (UnitId × Nat)
  healthWord : BitVec 3
  bootStage : Nat
  bootError : Nat
  held : Bool
  flash : Flash
  config : Option ConfigRecord
  netOut : List (List Nat)
  deriving DecidableEq, Repr

/-- Why a step stops. -/
inductive Fault where
  /-- A lane word or a stream word outside a step of its kind, which no fetch gives. Raised by the meanings of words. Safe. -/
  | noWordHere
  /-- The next word of a lane or of the sequencer is not one that its unit executes, although it was checked. Raised by `step`. Safe. -/
  | wordNotDecoded
  deriving DecidableEq, Repr

/-- Why an instruction has no meaning. -/
inductive Refusal where
  /-- A point not modelled yet; raised by the refused arms of `exec`. Safe. -/
  | notModelled (mnemonic : String)
  deriving DecidableEq, Repr

/-- The answer of a step of this machine. -/
abbrev Result := Host.Outcome State Fault Refusal

def Lane.fresh : Lane :=
  { live := false, v := [], p := 0, c := [], fpflags := 0, fprm := 1, xs := 0, cd := 0, pc := 0, clause := none, entered := 0,
    badClause := false,
    block := .free, readyAt := 0, skid := 0, exitAt := none }

def Sequencer.fresh : Sequencer :=
  { run := false, spc := 0, loops := [], slots := [], red := false, status := 0, fault := false, wait := .free, starter := 0, halted := false }

def Group.fresh : Group :=
  { core := 0, port := 0, slot := 0, producer := false, budget := 0, granules := [], patience := 4, s := [], last := none, grant := none, grantAt := 0,
    oc := [], skips := [], issued := [], ops := [], fences := [], epoch := 0, halted := false, retired := false, handler := false, skipBreak := false, passBrk := false,
    spillAt := 0, region := [], opps := 0, placedAt := 0, perf := [] }

def Barrier.fresh : Barrier :=
  { expected := 0, phase := 0, counted := [], lanes := [], serials := [], last := [], seq := false }

def Chute.fresh : Chute :=
  { desc := none, head := 0, elems := [], closed := false, closedBy := 0, closedSerial := 0, free := 0, notices := 0, arriving := [], window := [], popped := 0, poppedAt := none, withdrawn := false, closedThere := false, freedAt := 0, freedN := 0 }

def Cell.zero : Cell := { v := 0, pinf := false, ninf := false, nan := false, ovf := false, shadowV := 0, shadowBits := 0 }

def Tile.zero : Tile := { cells := [], tta := 0, ttb := 0, ti := 0, tj := 0 }

def Context.empty : Context := { cond := 0, image := [], detail := 0 }

def Core.fresh : Core :=
  { dqbase := 0, dqlim := 0, dqHead := 0, dqCount := 0, dqTasks := [], inbox := [], outbox := [], grants := [], ptr := [], served := [],
    busy := [], icache := [], watches := [], samples := [], steps := 0, retired := false, retiredPorts := [], retiredBanks := [], failedBanks := [] }

def Team.fresh : Team :=
  { grid := 0, index := 0, kernel := { image := 0, hdr := 0, idw := 0 }, kind := .ordinary, x := 0, y := 0, z := 0, lanes := 0, cores := [],
    chamberAt := [], groups := 0, slots := [], chutes := [], tt := [], barriers := [], phases := 0, contexts := [], tiles := [],
    seqr := Sequencer.fresh, record := none, handling := false, frame := none, frameHeld := true, trigger := none, stops := [],
    saveFor := none, residency := .resident, stopRecord := false, savedAt := 0, savedHalted := false, savedHandling := false,
    image := [] }

def Grid.fresh : Grid :=
  { id := 0, desc := 0, kernel := { image := 0, hdr := 0, idw := 0 }, feed := none, issuer := none, partition := 0, prio := 0,
    service := false, teams := 0, ranges := [], retired := 0, tasks := 0, children := [], barrier := Barrier.fresh, accepted := false,
    complete := false, status := 0, cause := 0, record := none, dispatchAt := 0, sliceAt := 0, fault := 0, io := 0, engine := 0,
    pinned := false }

def Feed.fresh : Feed :=
  { base := 0, enable := false, size := 0, work := false, partition := 0, tail := 0, head := 0, stopped := false, stop := 0, reject := 0,
    wlaunch := 0, chute := 0, team := 0, entries := [], launches := [] }

def Link.fresh : Link :=
  { enabled := false, up := false, retraining := false, txNext := 0, queue := [], retry := [], resend := [], failures := [], rxNext := 0, held := [],
    delivered := [], requests := [], lanes := [], outstanding := [] }

def CmdLink.fresh : CmdLink := { permits := 8, inbox := [] }

def Ring.fresh : Ring := { base := 0, size := 0, tail := 0, head := 0, ovf := 0 }

def Health.fresh : Health :=
  { stamp := 0, crf := 0, csp := 0, ccv := 0, cdr := 0, flit := 0, unc := 0, msg := 0, sealRefused := 0, tmax := 0, alarm := false,
    chans := [], failing := [] }

/-- The machine right after a reset: every die held in reset, no firmware running, nothing placed (04 R65, Table 4.1, Table 4.2a, Table 4.3,
21 Table 21.6, 22 Table 22.2, 25 Tables 25.1, 25.3, 25.5, 25.6); what the spec gives no reset value is named in log 2 and log 3. -/
def State.reset : State :=
  { turn := .idle, schedule := [], cycle := 0, clockBase := 0, gtsHigh := 0, serial := 1, freeN := 0, mem := [], lanes := [], groups := [],
    teams := [], grids := [], cores := [], cmds := [], windows := [], launchQueue := [], colls := [], feeds := [], sealTables := [],
    replicas := [], roots := [], tcache := [], purges := [], move := none, farSeals := [], farWaits := [], links := [], absent := [], cmdLinks := [],
    fw := { src := 0, len := 0, state := 0, error := 0, ver := 0, sver := 0, mfw := 0, mstaged := 0, quotes := [] },
    fwHalted := false, stoppedCores := [], vacating := [], vacateAt := [],
    dbg := { part := 0, att := false, brk := false, stops := [], idleStops := [], sel := 0, team := 0, group := 0, error := 0, left := 0, why := 0, stepping := none, stepFirst := false,
             bp := [], wp := [], trace := false, k := 10, rings := [], dump := 0, dumpBusy := false, dumpFail := false, dumpTeam := 0, dumpAt := none, dumpImage := [],
             dumpStamp := 0 },
    report := { base := 0, enable := false, size := 0, tail := 0, head := 0, lost := 0 },
    health := [], eccLog := [], healthWord := 0, bootStage := 0, bootError := 0, held := false,
    flash := { image := [], recordBytes := [] }, config := none, netOut := [] }

end Sys2Proof.Machine
end

