-- ==== Sys2Proof/Machine/Ops.lean ====
section
/-! DEFINITION. The named operations over the state: its maps, time, clauses, registers, the chamber and the spill stack, stopping a team, taking
a trap, and the return from a handler. -/

namespace Sys2Proof.Machine

/-! ## Reading and updating the maps of the state -/

def State.lane (s : State) (lk : Nat) : Lane := s.lanes.getD lk Lane.fresh
def State.group (s : State) (gk : Nat) : Group := s.groups.getD gk Group.fresh
def State.team (s : State) (t : Nat) : Team := s.teams.getD t Team.fresh
def State.grid (s : State) (g : Nat) : Grid := s.grids.getD g Grid.fresh
def State.core (s : State) (c : Nat) : Core := s.cores.getD c Core.fresh
def State.feed (s : State) (f : Nat) : Feed := s.feeds.getD f Feed.fresh
/-- A link that nothing has touched: those inside the package, numbers 16 and up, are up once the part has booted (14 R207; log 15). -/
def Link.untouched (booted : Bool) (l : Nat) : Link :=
  if 16 ≤ l ∧ l < 16 + 5 * 256 ∧ booted then { Link.fresh with enabled := true, up := true } else Link.fresh
/-- A link of the part. -/
def State.link (s : State) (l : Nat) : Link := s.links.getD l (Link.untouched (s.bootStage != 0) l)
def State.dieHealth (s : State) (d : Nat) : Health := s.health.getD d Health.fresh

def State.setLane (s : State) (lk : Nat) (l : Lane) : State := { s with lanes := s.lanes.put lk l }
def State.setGroup (s : State) (gk : Nat) (g : Group) : State := { s with groups := s.groups.put gk g }
def State.setTeam (s : State) (t : Nat) (x : Team) : State := { s with teams := s.teams.put t x }
def State.setGrid (s : State) (g : Nat) (x : Grid) : State := { s with grids := s.grids.put g x }
def State.setCore (s : State) (c : Nat) (x : Core) : State := { s with cores := s.cores.put c x }
def State.setFeed (s : State) (f : Nat) (x : Feed) : State := { s with feeds := s.feeds.put f x }
def State.setLink (s : State) (l : Nat) (x : Link) : State := { s with links := s.links.put l x }
def State.setHealth (s : State) (d : Nat) (x : Health) : State := { s with health := s.health.put d x }
def State.setCmd (s : State) (k : Nat) (x : Command) : State := { s with cmds := s.cmds.put k x }
def State.setMem (s : State) (m : Memory) : State := { s with mem := m }
def State.setTurn (s : State) (t : Turn) : State := { s with turn := t }

def State.updLane (s : State) (lk : Nat) (f : Lane → Lane) : State := s.setLane lk (f (s.lane lk))
def State.updGroup (s : State) (gk : Nat) (f : Group → Group) : State := s.setGroup gk (f (s.group gk))
def State.updTeam (s : State) (t : Nat) (f : Team → Team) : State := s.setTeam t (f (s.team t))
def State.updGrid (s : State) (g : Nat) (f : Grid → Grid) : State := s.setGrid g (f (s.grid g))
def State.updCore (s : State) (c : Nat) (f : Core → Core) : State := s.setCore c (f (s.core c))
def State.updFeed (s : State) (k : Nat) (f : Feed → Feed) : State := s.setFeed k (f (s.feed k))
def State.updCmd (s : State) (k : Nat) (f : Command → Command) : State :=
  match s.cmds.get? k with
  | some c => s.setCmd k (f c)
  | none => s

/-- WHAT AN EVENT COMES TO: the state it leaves, or, where its conditions do not hold, the state as it stands: the part then makes no such step,
and goes on (log 1). -/
def State.happens (s : State) (t : Option State) : Result := .next (t.getD s)

/-- A fresh serial. -/
def State.bump (s : State) : State := { s with serial := s.serial + 1 }

/-- The key of a group of a team, and of a lane of a group. -/
def groupKey (t gi : Nat) : Nat := t * 128 + gi
def laneKey (gk pos : Nat) : Nat := gk * 32 + pos
def teamOf (gk : Nat) : Nat := gk / 128
def indexOf (gk : Nat) : Nat := gk % 128

/-- Counters of 32 bits that saturate (22 Table 22.2, 25 R326). -/
def satInc (x : W32) : W32 := if x = BitVec.allOnes 32 then x else x + 1

/-! ## Time (00 R4, R12) -/

/-- The global timestamp: nanoseconds, one arithmetic cycle being 10/11 ns. -/
def State.now (s : State) : Nat := (s.clockBase + (s.cycle * 10 / 11 : Nat)).toNat

/-- The health record of a die changed, and rewritten with its stamp (25 R326); while the Fiaris complex is halted the stamp stands (22 R307). -/
def State.updHealth (s : State) (d : Nat) (f : Health → Health) : State :=
  s.setHealth d { f (s.dieHealth d) with stamp := if s.fwHalted then (s.dieHealth d).stamp else s.now }

/-- The health records rewritten that have stood for a second: Fiaris, while it runs, rewrites each at least once in that time (25 R326; log 55). -/
def State.freshenHealth (s : State) : State :=
  if s.bootStage = 0 || s.held || s.fwHalted then s
  else (List.range 5).foldl (fun s d => if (s.dieHealth d).stamp + 10 ^ 9 ≤ s.now then s.updHealth d id else s) s

/-- The cycles of a time in nanoseconds. -/
def cyclesOf (ns : Nat) : Nat := (ns * 11 + 9) / 10

/-! ## The fields of a kernel header, an image descriptor and a launch descriptor (01 Tables 1.2, 1.3, 1.4) -/

def Kernel.handler (k : Kernel) : Nat := bits k.hdr 55 48
def Kernel.version (k : Kernel) : Nat := bits k.hdr 63 56
def Kernel.spill (k : Kernel) : Nat := bits k.hdr 46 42
def Kernel.acc (k : Kernel) : Nat := bits k.hdr 34 32
def Kernel.xctx (k : Kernel) : Nat := bits k.hdr 31 28
def Kernel.chutes (k : Kernel) : Nat := bits k.hdr 27 24
def Kernel.chamber (k : Kernel) : Nat := bits k.hdr 23 16
def Kernel.cgrant (k : Kernel) : Nat := bits k.hdr 15 12
def Kernel.pgrant (k : Kernel) : Nat := bits k.hdr 11 8
def Kernel.coop (k : Kernel) : Bool := bit k.hdr 7
def Kernel.roles (k : Kernel) : Bool := bit k.hdr 6
def Kernel.redmx (k : Kernel) : Bool := bit k.hdr 5
/-- G16 mode: the header bit, or Mboxa code (01 R20). -/
def Kernel.g16 (k : Kernel) : Bool := bit k.hdr 4 || k.version == 1
/-- The initial patience limit; 0 means 4 (01 Table 1.3). -/
def Kernel.patience (k : Kernel) : Nat := if bits k.hdr 3 0 = 0 then 4 else bits k.hdr 3 0
def Kernel.entries (k : Kernel) : Nat := bits k.idw 59 52
def Kernel.imageSize (k : Kernel) : Nat := bits k.idw 51 32
def Kernel.codeSize (k : Kernel) : Nat := bits k.idw 31 0
/-- Where the code segment starts (01 Table 1.1). -/
def Kernel.codeAt (k : Kernel) : Nat := (16 + 4 * k.entries + 63) / 64 * 64
/-- Where the chamber image starts (01 Table 1.1). -/
def Kernel.chamberImageAt (k : Kernel) : Nat := (k.codeAt + k.codeSize + 63) / 64 * 64

def descField (d : BitVec 512) (off hi lo : Nat) : Nat := bits (d.toNat / 2 ^ (8 * off)) hi lo

/-- The number of groups of a team of so many lanes (01 R23). -/
def groupsFor (lanes : Nat) : Nat := (lanes + 31) / 32

/-! ## Clauses and program counters (02 R36 to R40, 06 R107) -/

def Clause.count (c : Clause) : Nat := bits c.hdr 3 0
def Clause.cls (c : Clause) : Nat := bits c.hdr 7 4
def Clause.waitMask (c : Clause) : Nat := bits c.hdr 19 8
def Clause.seta (c : Clause) : Nat := bits c.hdr 23 20
def Clause.setb (c : Clause) : Nat := bits c.hdr 27 24
def Clause.dwell (c : Clause) : Bool := bit c.hdr 28
def Clause.tag (c : Clause) : Nat := bits c.hdr 47 32

/-- The entry checks of 02 R37 on a header, its words, and the code size. -/
def Clause.valid (c : Clause) (codeSize : Nat) : Bool :=
  c.at_ % 8 == 0 && bits c.hdr 63 60 == 0b1010 && bits c.hdr 59 48 == 0 && bits c.hdr 31 29 == 0 && c.cls ≤ 13
    && (c.seta ≤ 11 || c.seta == 15) && (c.setb ≤ 11 || c.setb == 15) && c.at_ + 8 * (c.count + 2) ≤ codeSize
    && c.words.all (fun w => bits w 8 5 == c.cls)

/-- The offset of the word a lane executes next: past the header when it has just entered its clause (02 R38). -/
def Lane.nextAt (l : Lane) : Nat :=
  match l.clause with
  | some c => if l.pc.toNat = c.at_ then c.at_ + 8 else l.pc.toNat
  | none => l.pc.toNat

/-- The word a lane executes next. -/
def Lane.nextWord (l : Lane) : Option Nat :=
  match l.clause with
  | some c => c.words[(l.nextAt - c.at_) / 8 - 1]?
  | none => none

/-- Mid-clause: at least one word executed and not the last (07 R118). -/
def Lane.midClause (l : Lane) : Bool :=
  match l.clause with
  | some c => l.pc.toNat != c.at_
  | none => false

/-- The lane moved on to the word after the one at `a` (06 R107): within its clause, or at the next header. -/
def Lane.advance (l : Lane) (a : Nat) : Lane :=
  match l.clause with
  | some c =>
    if a + 8 < c.at_ + 8 * (c.count + 2) then { l with pc := BitVec.ofNat 32 (a + 8) }
    else { l with pc := BitVec.ofNat 32 (a + 8), clause := none }
  | none => { l with pc := BitVec.ofNat 32 (a + 8) }

/-- The lane transferred to a target: it enters the clause there (02 R39, 06 R107). -/
def Lane.jump (l : Lane) (target : Nat) : Lane := { l with pc := BitVec.ofNat 32 target, clause := none }

/-! ## Registers, predicates and flags of a lane -/

/-- One v register. -/
def Lane.reg (l : Lane) (n : Nat) : W32 := l.v.getD n 0
/-- The lane with one v register written. -/
def Lane.setReg (l : Lane) (n : Nat) (x : W32) : Lane := { l with v := l.v.put n x }
/-- The lane with consecutive registers written, lowest first. -/
def Lane.setRegs (l : Lane) (n : Nat) : List W32 → Lane
  | [] => l
  | x :: xs => Lane.setRegs (l.setReg n x) (n + 1) xs
/-- Predicate pN; p7 reads true (02 Table 2.2). -/
def Lane.pred (l : Lane) (n : Nat) : Bool := if n = 7 then true else l.p.getLsbD n
/-- The lane with a predicate written; 7 discards (02 Table 2.4). -/
def Lane.setPred (l : Lane) (n : Nat) (b : Bool) : Lane :=
  if n < 7 then { l with p := if b then l.p ||| (1#7 <<< n) else l.p &&& ~~~(1#7 <<< n) } else l
/-- The guard of a word (02 R43). -/
def Lane.guard (l : Lane) (g : Guard) : Bool := xor (l.pred g.pg.val) g.neg
/-- The lane with flags ORed into fpflags (08 R130). -/
def Lane.orFlags (l : Lane) (f : BitVec 9) : Lane := { l with fpflags := l.fpflags ||| f }
/-- A completion counter (02 R40). -/
def Lane.ctr (l : Lane) (k : Nat) : Nat := l.c.getD k 0

/-- The word of `w` registers from `n` on, the lower register in the low bits (00 R10). -/
def Lane.regsVal (l : Lane) (n w : Nat) : Nat :=
  (List.range w).foldl (fun acc k => acc + (l.reg (n + k)).toNat * 2 ^ (32 * k)) 0

/-- A number as `w` registers, lowest first. -/
def regsOf (w x : Nat) : List W32 := (List.range w).map (fun k => BitVec.ofNat 32 (x / 2 ^ (32 * k)))

/-- The lane with a destination operand written: `w` registers of a v operand; z discards, a chute is pushed elsewhere (02 R44). -/
def Lane.write (l : Lane) (o : Operand) (w x : Nat) : Lane :=
  match o with
  | .v n => l.setRegs n.val (regsOf w x)
  | _ => l

/-! ## Groups and lanes of a team -/

/-- The groups of a team that are placed and not retired. -/
def State.teamGroups (s : State) (t : Nat) : List Nat :=
  ((List.range (s.team t).groups).map (groupKey t)).filter (fun gk => (s.groups.get? gk).isSome && !(s.group gk).retired)

/-- The live lane positions of a group. -/
def State.liveLanes (s : State) (gk : Nat) : List Nat := (List.range 32).filter (fun p => (s.lane (laneKey gk p)).live)

/-- A mask of lane positions. -/
def maskOf (ps : List Nat) : BitVec 32 := ps.foldl (fun m p => m ||| (1#32 <<< p)) 0

/-- The resident, unretired groups of a core: those of resident teams. -/
def State.coreGroups (s : State) (c : Nat) : List Nat :=
  (s.groups.filter (fun p => p.2.core == c && !p.2.retired && (s.team (teamOf p.1)).residency == .resident)).map (·.1)

/-! ## The chamber and the spill stack in the scratchpads (05 R97, 11 R159) -/

/-- Units of 4 KiB of the chamber per team core (05 R97). -/
def Team.unitsPer (t : Team) : Nat := (t.kernel.chamber + t.cores.length - 1) / t.cores.length

/-- The chamber allocation in bytes. -/
def Team.chamberSize (t : Team) : Nat := t.kernel.chamber * 4096

/-- The team core that hosts a chamber offset (05 R97). -/
def Team.hostIndex (t : Team) (o : Nat) : Nat := if t.unitsPer = 0 then 0 else o / (t.unitsPer * 4096)

/-- The physical address of a chamber offset. -/
def Team.chamberPhys (t : Team) (o : Nat) : Nat :=
  let j := t.hostIndex o
  scratchAddr (t.cores.getD j 0) (t.chamberAt.getD j 0 + (o - j * t.unitsPer * 4096))

/-- Read bytes of a chamber, each at its own host. -/
def State.chamberRead (s : State) (t : Team) (o n : Nat) : List Byte := (List.range n).map (fun k => s.mem.read (t.chamberPhys (o + k)))

/-- Write bytes of a chamber. -/
def State.chamberWrite (s : State) (t : Team) (o : Nat) : List Byte → State
  | [] => s
  | b :: bs => State.chamberWrite (s.setMem (s.mem.write (t.chamberPhys o) b)) t (o + 1) bs

/-- The spill stack of a group in bytes. -/
def Team.spillSize (t : Team) : Nat := t.kernel.spill * 1024

/-- The physical address of a spill offset of a group. -/
def Group.spillPhys (g : Group) (o : Nat) : Nat := scratchAddr g.core (g.spillAt + o)

/-- The partition of a team's grid. -/
def State.partitionOf (s : State) (t : Nat) : Nat := (s.grid (s.team t).grid).partition

/-- The cavern allocation of a partition on a die: first byte and length, the last slice being the replica slice (11 R159, 05 R92). -/
def State.cavernRange (s : State) (part die : Nat) : Nat × Nat :=
  match s.config with
  | some r =>
    let e := (AList.getD r.map part []).getD 3 0
    let cavs := bits e (16 * die + 7) (16 * die)
    let cavn := bits e (16 * die + 15) (16 * die + 8)
    (cavs * 2 ^ 20, (cavn - 1) * 2 ^ 20)
  | none => (0, 0)

/-- Two byte ranges overlap. -/
def overlaps (a n b m : Nat) : Bool := a < b + m && b < a + n

/-! ## Stopping a team (21 R283, R284) -/

/-- The holder of a block of a die, which stamps events (00 Table 0.7). -/
inductive Holder where
  | core (core : Nat)
  | leaf (cluster : Nat)
  | distributor (die : Nat)
  | slice (die n : Nat)
  | scheduler
  | system (n : Nat)
  | commandProcessor
  | deviceDistributor
  | barker
  | rootOfTrust
  | drexon (n : Nat)
  | ethernet (n : Nat)
  | hostLink
  | cxl (n : Nat)
  deriving DecidableEq, Repr

/-- The die and the block of a holder (00 Table 0.7). -/
def Holder.place : Holder → Nat × Nat
  | .core c => (c / 64, c % 64)
  | .leaf cl => (cl / 8, 64 + cl % 8)
  | .distributor d => (d, 72)
  | .slice d n => (d, 73 + n)
  | .scheduler => (4, 0)
  | .system n => (4, 1 + n)
  | .commandProcessor => (4, 9)
  | .deviceDistributor => (4, 10)
  | .barker => (4, 11)
  | .rootOfTrust => (4, 12)
  | .drexon n => (4, 16 + n)
  | .ethernet n => (4, 32 + n)
  | .hostLink => (4, 34)
  | .cxl n => (4, 35 + n)

/-- The source number of a unit of a block (00 Table 0.6). -/
def Holder.source (h : Holder) (unit : Nat) : Nat := h.place.1 * 8192 + h.place.2 * 64 + unit

/-- The source number of a unit of a core (00 Table 0.6). -/
def coreSource (core unit : Nat) : Nat := (Holder.core core).source unit

/-- The lanes of a group, each changed. -/
def State.updLanes (s : State) (gk : Nat) (f : Nat → Lane → Lane) : State :=
  (List.range 32).foldl (fun s p => s.updLane (laneKey gk p) (f p)) s

/-- Whether a group issues nothing: it has received the halt, or the time by which it does has come (21 R283), and the debugger is not stepping it
(22 R308). -/
def State.groupHalted (s : State) (gk : Nat) : Bool :=
  let g := s.group gk
  !(s.dbg.stepping == some gk && s.dbg.left != 0)
    && (g.halted ||
      (match (s.team (teamOf gk)).trigger with
       | some (at_, core) => if g.core = core then at_ + 4 ≤ s.cycle else at_ + 40 ≤ s.cycle
       | none => false))

/-- The park counts of a group's lanes frozen at a halt (06 R114). -/
def Lane.freeze (now : Nat) (l : Lane) : Lane :=
  match l.block with
  | .park since owed => { l with block := .park now (owed - (now - since)) }
  | _ => l

/-- A group receives the halt of its team; a waiting grant request leaves the queue (05 R101, 21 R283). -/
def State.haltGroup (s : State) (gk : Nat) : State :=
  let g := s.group gk
  if g.halted then s
  else
    ((s.setGroup gk { g with halted := true }).updLanes gk (fun _ => Lane.freeze s.cycle)).updCore g.core
      (fun c => { c with grants := c.grants.filter (· != gk) })

/-- A halt of a team is triggered (21 R283); an earlier trigger stands. Skids count from the trigger cycle. -/
def State.triggerTeam (s : State) (t core : Nat) : State :=
  match (s.team t).trigger with
  | some _ => s
  | none =>
    (s.teamGroups t).foldl (fun s gk => if (s.group gk).halted then s else s.updLanes gk (fun _ l => { l with skid := 0 }))
      (s.updTeam t (fun x => { x with trigger := some (s.cycle, core) }))

/-- A trap as a point raises it: its rank among the traps of a step (02 Table 2.29, then the point's order), its cause (21 Table 21.2) and
its detail. -/
structure Trap where
  rank : Nat
  cause : Nat
  detail : Nat
  deriving DecidableEq, Repr

/-- Whether a trap of group `gk` in this cycle is the one the team records (21 R284): none is recorded yet and no page-fault conversion came
first, or the recorded one arose in this same cycle on a higher core or group. A trap in the handler group always is (R288), and a trap in a step of
the debugger's takes the place of the record of a stop (22 R308). -/
def State.recordsTrap (s : State) (gk : Nat) : Bool :=
  let t := s.team (teamOf gk)
  let g := s.group gk
  g.handler || (t.stopRecord && s.dbg.stepping == some gk) ||
    (match t.record with
     | some r => r.cycle == s.cycle && (g.core < r.core || (g.core == r.core && indexOf gk < r.group))
     | none => (match t.trigger with
                | some (at_, _) => !(t.saveFor.isSome && at_ < s.cycle)
                | none => true))

/-- The record of a trap of group `gk` (21 Table 21.1). -/
def State.trapRecord (s : State) (gk : Nat) (tr : Trap) (mask : BitVec 32) (pc : W32) (stream : Bool) : TrapRecord :=
  let t := s.team (teamOf gk)
  let g := s.group gk
  { stamp := s.now, cycle := s.cycle, mask := mask, cause := tr.cause, stream := stream, inhdl := g.handler, group := indexOf gk,
    pc := pc, core := g.core, tx := t.x, ty := t.y, tz := t.z, phases := t.phases, detail := BitVec.ofNat 128 tr.detail, step := 0 }

/-- The team keeps the record of a trap, unless an earlier one stands (21 R284). A page-fault conversion of the same cycle gives way to it: the
command stays parked, and its WAITC converts when it issues again (21 Table 21.5). -/
def State.keepRecord (s : State) (gk : Nat) (r : TrapRecord) : State :=
  if s.recordsTrap gk then
    s.updTeam (teamOf gk) (fun t =>
      { t with record := some r, stopRecord := false, saveFor := if t.saveFor.any (fun x => x.1 == 3) then none else t.saveFor })
  else s

/-- The detail of an engine fault (15 Table 15.1). -/
def Command.faultDetail (c : Command) (f : EngineFault) : Nat :=
  f.addr % 2 ^ 64 * 2 ^ 64 + f.ord % 2 ^ 32 * 2 ^ 32 + f.code * 2 ^ 24 + f.slot * 2 ^ 18 + c.cls * 2 ^ 16 + c.lane

/-- The oldest command of a group, among those a test picks, that completed with a fault not yet reported (15 R215). -/
def State.unreported (s : State) (gk : Nat) (pick : Command → Bool) : Option (Nat × Command) :=
  s.cmds.find? (fun c => c.2.group == gk && c.2.inh == (s.group gk).handler && c.2.st == .done && c.2.fault.isSome && !c.2.reported && pick c.2)

/-- A fault is reported once: the command whose fault a trap carries is marked when the trap is taken to a handler (15 R215, 21 R284). -/
def State.markReported (s : State) (gk detail : Nat) : State :=
  match s.unreported gk (fun c => c.fault.any (fun f => c.faultDetail f == detail)) with
  | some (k, _) => s.updCmd k (fun c => { c with reported := true })
  | none => s

/-- TAKING A TRAP (21 R283 to R285): the trapping group stops where it stands, its record is kept with the team unless an earlier one stands, and
the halt goes out to the team's other groups. The step executes in no lane, so program counters, registers and census state stay; the
recorded program counter is that of the lowest lane in the mask. -/
def takeTrap (s : State) (gk : Nat) (tr : Trap) (mask : BitVec 32) (pc : W32) (stream : Bool) : State :=
  let r := s.trapRecord gk tr mask pc stream
  (((s.keepRecord gk r).triggerTeam (teamOf gk) (s.group gk).core).haltGroup gk).setTurn .idle

/-- The bytes of a trap record (21 Table 21.1). -/
def TrapRecord.bytes (r : TrapRecord) : List Byte :=
  leBytes 8 r.stamp ++ leBytes 4 r.mask.toNat
    ++ leBytes 4 (r.cause + 2 ^ 8 * b2n r.stream + 2 ^ 9 * b2n r.inhdl + 2 ^ 16 * r.group)
    ++ leBytes 4 r.pc.toNat ++ leBytes 4 (coreSource r.core 0)
    ++ leBytes 4 r.tx ++ leBytes 2 r.ty ++ leBytes 2 r.tz
    ++ leBytes 8 r.phases.toNat ++ leBytes 16 r.detail.toNat ++ leBytes 8 0

/-- Whether the trigger cycle of a halt in force lies behind. -/
def State.pastTrigger (s : State) (tk : Nat) : Bool := match (s.team tk).trigger with | some (at_, _) => at_ < s.cycle | none => false

/-- A lane has executed the word at `a`: it moves on, and a word retired after the trigger cycle of a halt counts in its skid (21 R283). -/
def State.retire (s : State) (lk a : Nat) : State :=
  s.updLane lk (fun l => { l.advance a with skid := l.skid + (if s.pastTrigger (teamOf (lk / 32)) then 1 else 0) })

/-- Every group of a team has stopped. -/
def State.allStopped (s : State) (t : Nat) : Bool := (s.teamGroups t).all (fun gk => s.groupHalted gk)

/-- Every lane instruction in flight of a team has landed; an unsatisfied WAITS stays (18 R275). -/
def State.allLanded (s : State) (t : Nat) : Bool :=
  (s.teamGroups t).all (fun gk => (s.group gk).ops.all (fun o => match o.kind with | .waits .. => true | _ => false))

/-- A lane that stands at a clause header enters the clause again (06 R108); one in the middle of a clause stays in it. -/
def Lane.reenter (l : Lane) : Lane := if l.midClause then l else { l with clause := none, badClause := false }

/-- A lane of a halted group that is released: it enters the clause at its header again, and a park that the halt froze counts on (06 R108, R114). One of a
group that the halt had not reached goes on as it stands. -/
def Lane.released (now : Nat) (froze : Bool) (l : Lane) : Lane :=
  if !froze then l
  else match l.block with
    | .park _ owed => { l.reenter with block := .park now owed }
    | _ => l.reenter

/-- The groups of a team released, while a handler runs the handler group alone (21 R287): halts, triggers and skids end, parks that the halt
froze count on, and grant requests return to their queues (05 R101). -/
def State.resumeTeam (s : State) (t : Nat) : State :=
  ((s.teamGroups t).filter (fun gk => !(s.team t).handling || (s.group gk).handler)).foldl
    (fun s gk =>
      let g := s.group gk
      let s := s.setGroup gk { g with halted := false }
      let s := s.updLanes gk (fun _ => Lane.released s.cycle g.halted)
      match g.grant with
      | some _ => s.updCore g.core (fun c => { c with grants := if c.grants.contains gk then c.grants else c.grants ++ [gk] })
      | none => s)
    (s.updTeam t (fun x => { x with trigger := none, seqr := { x.seqr with halted := x.seqr.halted && x.handling } }))

/-- Whether a trap of a team waits: none has been taken to a handler yet, or it arose in the handler group (21 R287, R288). -/
def Team.trapped (t : Team) : Bool := t.record.any (fun r => !t.handling || r.inhdl)

/-- Whether a team that is under no debug stop runs: no trap of it waits for its handler, or the handler runs (21 R287, Table 21.5). -/
def Team.runs (t : Team) : Bool := t.stops.isEmpty && !t.trapped

/-- A time-slice expiry taken back from a team that it selected: the team runs on, unless something else halts it (21 Table 21.5). -/
def State.dropSlice (s : State) (tk : Nat) : State :=
  let t := s.team tk
  if t.residency = .resident && t.saveFor.any (fun x => x.1 == 1) then
    let s := s.updTeam tk (fun t => { t with saveFor := none })
    if t.runs then s.resumeTeam tk else s
  else s

/-- Whether the slice of a team's grid has expired in this cycle. -/
def State.expiredNow (s : State) (tk : Nat) : Bool := (s.grid (s.team tk).grid).sliceAt == s.cycle

/-- The value the handler lanes find in v0 to v15 (21 R287). -/
def recordRegs (r : TrapRecord) : AList W32 :=
  (List.range 16).map (fun k => (k, BitVec.ofNat 32 (leNat ((r.bytes.drop (4 * k)).take 4))))

/-- The byte offset of an entry in the code segment (01 Table 1.1). -/
def entryOffset (entryTable : List Byte) (h : Nat) : Nat := leNat ((entryTable.drop (4 * h)).take 4)

/-- The handler takes the trapping group's slot (21 R287): its state moves to the trap frame, and 32 lanes start at the handler's entry on a cleared
base block, with the record in v0 to v15. -/
def State.enterHandler (s : State) (t entry : Nat) (r : TrapRecord) : State :=
  let gk := groupKey t r.group
  let s := if r.cause = 27 then s.markReported gk r.detail.toNat else s
  let g := s.group gk
  let team := s.team t
  let size := team.spillSize
  let frame : Frame :=
    { gi := r.group, record := r, group := g, lanes := (List.range 32).map (fun p => (p, s.lane (laneKey gk p))),
      spill := s.mem.readBytes (g.spillPhys 0) size }
  let s := s.setMem (s.mem.clear (g.spillPhys 0) size)
  let s := s.setTeam t { team with
    frame := some frame, handling := true, trigger := none, seqr := { team.seqr with halted := team.seqr.run } }
  let s := s.setGroup gk
    { Group.fresh with
      core := g.core, port := g.port, slot := g.slot, producer := g.producer, budget := g.budget, granules := g.granules.take 1,
      patience := team.kernel.patience, handler := true, spillAt := g.spillAt, placedAt := s.cycle }
  s.updLanes gk (fun _ _ => { Lane.fresh with live := true, v := recordRegs r, pc := BitVec.ofNat 32 entry })

/-- The number under which a group arrives at the barriers of its team: its index, and for a handler group one of its own, since the group that it stands in
for keeps its arrivals (18 R272, 21 R287; DESIGN CHOICE, log 34). -/
def State.party (s : State) (gk : Nat) : Nat := indexOf gk + (if (s.group gk).handler then 256 else 0)

/-- A barrier without what a handler group that is discarded has left in it; an arrival that was counted stays counted. -/
def Barrier.without (b : Barrier) (party : Nat) : Barrier :=
  { b with lanes := b.lanes.del party, serials := b.serials.del party, last := b.last.del party }

/-- THE RETURN FROM A HANDLER (21 R289, modes 0 and 1): the handler group is discarded, the trapping group's state comes back from the trap frame into
its slot, mode 1 moves every lane of the record's mask past its word (a watchpoint's lanes stay, 22 R304), and every group resumes. -/
def State.leaveHandler (s : State) (t : Nat) (skip : Bool) : State :=
  let team := s.team t
  match team.frame with
  | some f =>
    let gk := groupKey t f.gi
    let mask := match team.record with | some r => if r.cause = 32 then 0 else r.mask | none => 0
    let s := s.setGroup gk f.group
    let s := s.updLanes gk (fun p _ =>
      let l := f.lanes.getD p Lane.fresh
      if skip && mask.getLsbD p then { l.advance l.nextAt with block := .free, badClause := false } else l)
    let s := s.setMem (Memory.writeBytes (s.mem.clear ((s.group gk).spillPhys 0) team.spillSize) ((s.group gk).spillPhys 0) f.spill)
    let s := { s with cmds := s.cmds.filter (fun c => !(c.2.inh && teamOf c.2.group == t)) }
    let s := (s.setTeam t { team with
      frame := none, handling := false, record := none, barriers := team.barriers.mapVals (fun _ b => b.without (f.gi + 256)) }).resumeTeam t
    -- a halt that has not yet reached the handler group stays in force for the groups that resume
    match team.trigger with
    | some tr => (s.triggerTeam t tr.2).updTeam t (fun x => { x with trigger := some tr })
    | none => s
  | none => s

end Sys2Proof.Machine
end

