-- ==== Sys2Proof/Machine/Watch.lean ====
section
/-! DEFINITION. The partition map (05 Table 5.1), debug stops by scope (22 R301, R302) and watchpoints (22 R304 to R306). -/

namespace Sys2Proof.Machine

/-! ## The partition map (05 Table 5.1) -/

def State.mapWord (s : State) (part k : Nat) : Nat :=
  match s.config with
  | some r => (AList.getD r.map part []).getD k 0
  | none => 0

def State.partValid (s : State) (part : Nat) : Bool := bit (s.mapWord part 0) 32
/-- Whether a cluster (die × 8 + cluster) belongs to a partition. -/
def State.partCluster (s : State) (part cl : Nat) : Bool := s.partValid part && bit (bits (s.mapWord part 0) 31 0) cl
/-- Whether a DRAM channel of a die belongs to a partition. -/
def State.partChannel (s : State) (part die ch : Nat) : Bool :=
  s.partValid part && bit (s.mapWord part (1 + die / 2)) (32 * (die % 2) + ch)
/-- The partition of a core. -/
def State.corePart (s : State) (core : Nat) : Option Nat :=
  match s.config with
  | some r => (r.map.find? (fun e => s.partCluster e.1 (core / 8))).map (·.1)
  | none => none

/-! ## Stops -/

/-- The cores of a scope with its target (22 Table 22.3): a team's own, a cluster's, a die's, all. -/
def scopeCores (scope target : Nat) : List Nat :=
  match scope with
  | 1 => (List.range 8).map (fun k => target * 8 + k)
  | 2 => (List.range 64).map (fun k => target * 64 + k)
  | 3 => List.range 256
  | _ => []

/-- A team under a stop: halted as 21 R283 gives, with the core the stop reached first as the triggering core. A saved team keeps the stop and stays
halted when it is restored (21 Table 21.5). -/
def State.stopTeam (s : State) (tk core : Nat) (h : StopHold) : State :=
  let g := (s.team tk).grid
  let s := if s.expiredNow tk then ((s.teams.filter (fun t => t.2.grid == g)).map (fun t => t.1)).foldl (fun s k => s.dropSlice k) s else s
  let s := s.updTeam tk (fun t => { t with stops := t.stops ++ [h] })
  match (s.team tk).residency with
  | .resident => s.triggerTeam tk core
  | _ => s

/-- The teams a stop of a scope names, with the core it reaches first: resident teams holding a core of the scope; for a cluster stop those of the
debugger's partition (22 R301). -/
def State.teamsIn (s : State) (scope target : Nat) : List (Nat × Nat) :=
  s.teams.filterMap (fun p =>
    if p.2.residency = .resident && (scope != 1 || s.partitionOf p.1 == s.dbg.part) then
      (p.2.cores.find? (fun c => (scopeCores scope target).contains c)).map (fun c => (p.1, c))
    else none)

/-- Whether a team is the one that a launch id and a linear index name; in a merged grid they name a child's team (04 R75, R84). -/
def State.namedBy (s : State) (launch : W64) (index : Nat) (t : Team) : Bool :=
  let g := s.grid t.grid
  let own := match t.kind with | .task .. => false | .message _ => false | _ => true
  if !own then false
  else if g.children.isEmpty then g.id == launch && t.index == index
  else g.children.any (fun c => c.id == launch && index < c.count && c.first + index == t.index)

/-- The resident or saved team of a launch with an index (22 DBG_SEL). -/
def State.findTeam (s : State) (launch : W64) (index : Nat) : Option Nat :=
  (s.teams.find? (fun p => s.namedBy launch index p.2 && (match p.2.residency with | .resident => true | .saved .. => true | _ => false))).map
    (fun p => p.1)

/-- A stop of cluster, die or device scope is accepted (22 R302, R307): every team in scope halts, no team is placed or restored on its cores, and fw
halts the Fiaris complex. A cluster stop acts on the attached partition only, so it stops nothing in a cluster of another (22 R301); it stays in force for
its resume. -/
def State.stopScope (s : State) (scope target : Nat) (fw : Bool) : State :=
  if scope == 1 && !s.partCluster s.dbg.part target then
    { s with fwHalted := s.fwHalted || fw, dbg := { s.dbg with idleStops := s.dbg.idleStops ++ [(scope, target)] } } else
  let s := (s.teamsIn scope target).foldl (fun s p => s.stopTeam p.1 p.2 ⟨scope, target⟩) s
  { s with
    stoppedCores := s.stoppedCores ++ scopeCores scope target, fwHalted := s.fwHalted || fw || scope == 3,
    dbg := { s.dbg with stops := s.dbg.stops ++ [(scope, target)] } }

/-- A stop of one team (scope 0). -/
def State.stopOne (s : State) (tk : Nat) (fw : Bool) : State :=
  let s := s.stopTeam tk ((s.team tk).cores.getD 0 0) ⟨0, tk⟩
  { s with fwHalted := s.fwHalted || fw }

/-- Whether a team is the one whose dump is being captured: its store queues perform nothing and its commands start no element (25 R323). -/
def State.capturing (s : State) (tk : Nat) : Bool := s.dbg.dumpBusy && s.dbg.dumpTeam == tk

/-- Whether a debugger is attached to a team's partition. -/
def State.watched (s : State) (tk : Nat) : Bool := s.dbg.att && s.dbg.part == s.partitionOf tk

/-- Whether a core is stopped: by a stop of its cluster, its die or the part, or by the stop of a team on it. No team is placed or restored there
(22 R302). -/
def State.coreStopped (s : State) (core : Nat) : Bool :=
  s.stoppedCores.contains core
    || s.teams.any (fun t => t.2.residency == .resident && t.2.cores.contains core && t.2.stops.any (fun h => h.scope == 0))

/-! ## Trace records (22 R310) -/

/-- The trace record of 22 Table 22.6 for a group. -/
def State.traceBytes (s : State) (gk kind src a b : Nat) : List Byte :=
  let t := s.team (teamOf gk)
  leBytes 8 s.now ++ leBytes 2 src ++ leBytes 2 (kind + 16 * indexOf gk) ++ leBytes 4 a
    ++ leBytes 4 t.x ++ leBytes 2 t.y ++ leBytes 2 t.z ++ leBytes 4 t.phases.toNat ++ leBytes 4 b

/-- Where the record of a number stands in a ring (22 R310). -/
def Ring.slot (r : Ring) (k : W32) : Nat := hostAddr (r.base.toNat + 32 * (k.toNat % (1024 * 2 ^ r.size)))

/-- A record written to a ring whose next free number is `k`, below the records of the same timestamp that a higher source number wrote (00 R14): those
among the `left` newest move up by one. -/
def State.placeRecord (s : State) (r : Ring) (rec : List Byte) : Nat → W32 → State
  | 0, k => s.setMem (s.mem.writeBytes (r.slot k) rec)
  | left + 1, k =>
    let prev := s.mem.readBytes (r.slot (k - 1)) 32
    if prev.take 8 = rec.take 8 && leNat ((rec.drop 8).take 2) < leNat ((prev.drop 8).take 2) then
      (s.setMem (s.mem.writeBytes (r.slot k) prev)).placeRecord r rec left (k - 1)
    else s.setMem (s.mem.writeBytes (r.slot k) rec)

/-- A record goes to the ring of the die of its unit while tracing is on for the team's partition; a full ring drops it and counts it (22 R310). -/
def State.trace (s : State) (gk kind src a b : Nat) : State :=
  if s.dbg.trace && s.watched (teamOf gk) then
    let d := src / 8192
    let r := s.dbg.rings.getD d Ring.fresh
    let held := (r.tail - r.head).toNat
    if held = 1024 * 2 ^ r.size then
      { s with dbg := { s.dbg with rings := s.dbg.rings.put d { r with ovf := satInc r.ovf } } }
    else
      let s := s.placeRecord r (s.traceBytes gk kind src a b) held r.tail
      { s with dbg := { s.dbg with rings := s.dbg.rings.put d { r with tail := r.tail + 1 } } }
  else s

/-- The stop record of a team (22 Table 22.6): scope, fw and origin. -/
def State.traceStop (s : State) (gk core scope : Nat) (fw : Bool) (origin : Nat) : State :=
  s.trace gk 4 (coreSource core 0) (scope + 8 * b2n (fw || scope == 3) + 256 * origin) 0

/-- The stop records of the teams that a stop reaches, each with the core it reaches first (22 R310); that of the hitting team names its group. -/
def State.traceStops (s : State) (reach : List (Nat × Nat)) (gk scope : Nat) (fw : Bool) (origin : Nat) : State :=
  reach.foldl (fun s t => s.traceStop (if t.1 = teamOf gk then gk else groupKey t.1 0) t.2 scope fw origin) s

/-- A stop as a breakpoint, a BRK or a watchpoint takes it, on the hitting group and core: that of the team, or of the core's cluster, die or part, with
its records (22 R303, R305, R310). One that is in force already is not taken again (log 74). -/
def State.takeStop (s : State) (gk core scope : Nat) (fw : Bool) (origin : Nat) : State :=
  let target := match scope with | 0 => teamOf gk | 1 => core / 8 | 2 => core / 64 | _ => 0
  if (s.team (teamOf gk)).stops.contains ⟨scope, target⟩ then s
  else if scope = 0 then (s.stopOne (teamOf gk) fw).traceStops [(teamOf gk, core)] gk 0 fw origin
  else (s.stopScope scope target fw).traceStops (s.teamsIn scope target) gk scope fw origin

/-! ## Watchpoints -/

/-- The number of the lowest watchpoint of a core that an access of a team hits: bytes `o` to `o + n - 1` of its scratchpad (22 R304). -/
def State.watchHit (s : State) (tk core o n : Nat) (reads writes : Bool) : Option (Nat × Watch) :=
  ((s.core core).watches.find? (fun w =>
    overlaps o n w.2.off 8 && ((bit w.2.kind 0 && reads) || (bit w.2.kind 1 && writes))
      && (match w.2.team with | some t => t == tk | none => s.watched tk)))

/-- The action of a watchpoint that a team has hit: nothing beyond its trap, or a stop, which takes a debugger attached to the team's partition
(22 R305). -/
def State.watchAct (s : State) (gk core : Nat) (w : Watch) : State :=
  if w.action = 0 || !s.watched (teamOf gk) then s else s.takeStop gk core (w.action - 1) w.fw 1

/-- The number of the watchpoint that a record's detail names (22 R304). -/
def TrapRecord.watchpoint (r : TrapRecord) : Nat := bits r.detail.toNat 23 22

/-- The lanes of one issue step that hit in one cycle stand in one record; a hit of another step, or of an engine element or the sequencer, adds no lane
(22 R304). -/
def TrapRecord.joinLanes (r r0 : TrapRecord) : TrapRecord :=
  if r.group = r0.group && r.step = r0.step && r.step ≠ 0 then { r with mask := r.mask ||| r0.mask } else r

/-- A hit's record beside the one that stands (22 R304, 21 R284): hits of one cycle form one record, in which the lowest watchpoint number stands. -/
def State.keepHit (s : State) (gk : Nat) (r : TrapRecord) : State :=
  match (s.team (teamOf gk)).record with
  | some r0 =>
    if r0.cause = 32 && r0.cycle = s.cycle then
      let first := r.watchpoint < r0.watchpoint
        || (r.watchpoint == r0.watchpoint && (r.core < r0.core || (r.core == r0.core && r.group < r0.group)))
      s.updTeam (teamOf gk) (fun t => { t with record := some (if first then r.joinLanes r0 else r0.joinLanes r) })
    else s.keepRecord gk r
  | none => s.keepRecord gk r

/-- An access performed at its host meets the watchpoints there (22 R304, R305): the team records cause 32, the halt is triggered, and the stop of the
watchpoint's action is taken, whichever record stands. `kind` is 0 lane, 1 engine element, 2 chute, 3 sequencer; `step` is the issue step of a lane's
access. -/
def State.watch (s : State) (gk a n : Nat) (reads writes : Bool) (kind : Nat) (mask : BitVec 32) (pc : W32) (step : Nat) : State :=
  if 2 ^ 28 ≤ a then s
  else
    let core := a / 2 ^ 20
    match s.watchHit (teamOf gk) core (a % 2 ^ 20) n reads writes with
    | none => s
    | some (k, w) =>
      let detail := w.shown + 2 ^ 20 * kind + 2 ^ 22 * k + 2 ^ 24 * b2n writes
      ((s.keepHit gk { s.trapRecord gk ⟨0, 32, detail⟩ mask pc false with step := step }).triggerTeam (teamOf gk) core).watchAct gk core w

/-- The address of the word a lane executes in the step in progress. -/
def State.stepPc (s : State) (lk : Nat) : W32 :=
  match s.turn with
  | .issue st => (match st.all.find? (fun x => x.pos == lk % 32) with | some x => BitVec.ofNat 32 x.pc | none => (s.lane lk).pc)
  | _ => (s.lane lk).pc

/-- The serial of the step in progress; 0 between steps. -/
def State.stepSerial (s : State) : Nat := match s.turn with | .issue st => st.serial | _ => 0

/-- A pop or push performed at the host of a ring meets the watchpoints there. -/
def State.watchChute (s : State) (lk a n : Nat) (pushes : Bool) (pc : W32) (step : Nat) : State :=
  s.watch (lk / 32) a n (!pushes) pushes 2 (1#32 <<< (lk % 32)) pc step

end Sys2Proof.Machine
end

