-- ==== Sys2Proof/Machine/Operands.lean ====
section
/-! DEFINITION. Operands: v registers, z, and chutes (02 R44, R45, 07 R117, 11 R171 to R176). A pop takes an element and a push writes one when
the word executes in the lane; whether a lane may is settled before the step. -/

namespace Sys2Proof.Machine

/-! ## The fields of a chute descriptor (11 Table 11.4) -/

def descBase (d : BitVec 64) : Nat := bits d.toNat 19 0
def descLogcap (d : BitVec 64) : Nat := bits d.toNat 37 34
def descWidth (d : BitVec 64) : Nat := bits d.toNat 39 38
def descMode (d : BitVec 64) : Nat := bits d.toNat 41 40
def descCend (d : BitVec 64) : Nat := bits d.toNat 44 42
def descPend (d : BitVec 64) : Nat := bits d.toNat 47 45
def descCpeer (d : BitVec 64) : Nat := bits d.toNat 49 48
def descPpeer (d : BitVec 64) : Nat := bits d.toNat 51 50
/-- Element bytes by width code. -/
def elemBytes (w : Nat) : Nat := if w = 0 then 4 else if w = 1 then 8 else 64
def descCap (d : BitVec 64) : Nat := 2 ^ descLogcap d
/-- Bytes of the ring. -/
def descRing (d : BitVec 64) : Nat := descCap d * elemBytes (descWidth d)

/-- When a descriptor is valid for a team (11 R171). A peer field its binding does not use is 0, and a command-processor end is a producer end of
width 2 in queue mode. -/
def descValid (t : Team) (d : BitVec 64) : Bool :=
  let lo := descBase d
  let hi := lo + descRing d - 1
  let host := t.hostIndex lo
  bits d.toNat 63 52 == 0 && bits d.toNat 33 20 == 0 && descMode d ≤ 1 && descWidth d ≤ 2 && 1 ≤ descLogcap d && descLogcap d ≤ 12
    && descCend d ≤ 1 && descPend d ≤ 2 && lo % 64 == 0 && hi < t.chamberSize && t.hostIndex hi == host
    && (if descPend d = 1 then descPpeer d < t.cores.length && descPpeer d != host else descPpeer d == 0)
    && (if descCend d = 1 then descCpeer d < t.cores.length && descCpeer d != host else descCpeer d == 0)
    && (descPend d != 2 || (descWidth d == 2 && descMode d == 0))
    && (descMode d != 1 || (descPend d == 0 && descCend d == 1))

/-- A team's chute. -/
def Team.chute (t : Team) (q : Nat) : Chute := t.chutes.getD q Chute.fresh

def State.updChute (s : State) (tk q : Nat) (f : Chute → Chute) : State :=
  s.updTeam tk (fun t => { t with chutes := t.chutes.put q (f (t.chute q)) })

/-- The index of a core among the team cores. -/
def Team.coreIndex (t : Team) (core : Nat) : Nat := (t.cores.findIdx? (· == core)).getD 0

/-- The team core of each end (11 Table 11.5); none for the command processor. -/
def producerAt (t : Team) (d : BitVec 64) : Option Nat :=
  if descPend d = 0 then some (t.hostIndex (descBase d)) else if descPend d = 1 then some (descPpeer d) else none
def consumerAt (t : Team) (d : BitVec 64) : Option Nat :=
  if descCend d = 0 then some (t.hostIndex (descBase d)) else some (descCpeer d)

/-- Which lanes may push, pop and close (11 R172), by the team core they run on. -/
def mayPush (t : Team) (d : BitVec 64) (ci : Nat) : Bool := producerAt t d == some ci
def mayPop (t : Team) (d : BitVec 64) (ci : Nat) : Bool := consumerAt t d == some ci || (descMode d == 1 && producerAt t d == some ci)
def mayClose (t : Team) (d : BitVec 64) (ci : Nat) : Bool :=
  if descPend d = 2 then consumerAt t d == some ci else producerAt t d == some ci

/-- Whether an end is remote. -/
def remoteConsumer (d : BitVec 64) : Bool := descCend d == 1
def remoteProducer (d : BitVec 64) : Bool := descPend d == 1

/-- A memory access, not a value being computed: what a push, a fence and a barrier arrival release (18 R265). -/
def OpKind.isAccess : OpKind → Bool
  | .value .. => false
  | .xtld .. => true
  | .fencei => false
  | .sealing .. => false
  | .waits .. => false
  | _ => true

/-- Every push a group made before a serial has reached its ring. -/
def State.pushesLanded (s : State) (gk serial : Nat) : Bool :=
  (s.team (teamOf gk)).chutes.all (fun c => c.2.arriving.all (fun p => p.lane / 32 != gk || serial ≤ p.serial))

/-- Nothing that a group issued before a serial is still on the way to its host: no access, and no push (18 R265). -/
def State.released (s : State) (gk serial : Nat) : Bool :=
  (s.group gk).ops.all (fun o => serial ≤ o.id || !o.kind.isAccess) && s.pushesLanded gk serial

/-- Whether an element of a ring can be popped at its host now (11 R174, R177). -/
def State.poppable (s : State) (e : Element) : Bool := e.landed && e.from_ ≤ s.cycle && s.released e.group e.serial

/-- The closed flag as the host holds it: a close waits for the pushes issued before it (11 R176) and for what it releases (18 R269). -/
def State.closedHere (s : State) (c : Chute) : Bool := c.closed && c.arriving.isEmpty && s.released c.closedBy c.closedSerial

/-- Elements a lane on team core `ci` can pop now: from the window at a remote consumer end, from the tail for the producer of a deque, else
from the head. Ports of one cycle that want the same elements or slots are served one after the other, the later from what the earlier left
(07 R117; DESIGN CHOICE, log 75). -/
def State.poppableCount (s : State) (t : Team) (q ci : Nat) : Nat :=
  let c := t.chute q
  match c.desc with
  | some d =>
    if descMode d = 1 && producerAt t d == some ci then (c.elems.reverse.takeWhile (fun e => !e.forwarded && s.poppable e)).length
    else if remoteConsumer d then c.window.length
    else (c.elems.takeWhile (fun e => s.poppable e)).length
  | none => 0

/-- Whether pops at team core `ci` act on a closed chute whose every element can be popped now: once those are gone a pop never blocks (11 R176). -/
def State.poppedDry (s : State) (t : Team) (q ci : Nat) : Bool :=
  let c := t.chute q
  match c.desc with
  | some d =>
    if remoteConsumer d && consumerAt t d == some ci then c.closedThere
    else s.closedHere c && s.poppableCount t q ci == c.elems.length
  | none => false

/-- Free slots a lane of the producer end can push now (11 R174); a slot freed in this cycle counts from the next. -/
def State.freeCount (s : State) (t : Team) (q : Nat) : Nat :=
  let c := t.chute q
  match c.desc with
  | some d =>
    if descPend d = 0 then descCap d - c.elems.length - (if c.freedAt = s.cycle then c.freedN else 0) else c.free
  | none => 0

/-- Where slot `k` from the head of a ring lies. -/
def slotPhys (t : Team) (c : Chute) (d : BitVec 64) (k : Nat) : Nat :=
  t.chamberPhys (descBase d + (c.head + k) % descCap d * elemBytes (descWidth d))

/-- A slot is freed: a notice goes to a producer end that keeps a mirrored count (11 R174, 04 R75). -/
def Chute.freed (c : Chute) (d : BitVec 64) (now : Nat) : Chute :=
  if descPend d = 0 then { c with freedN := (if c.freedAt = now then c.freedN else 0) + 1, freedAt := now }
  else { c with notices := c.notices + 1 }

/-- The head element leaves the ring. -/
def Chute.dropHead (c : Chute) (d : BitVec 64) (now : Nat) : Chute :=
  { c with elems := c.elems.drop 1, head := (c.head + 1) % descCap d }.freed d now

/-- The bytes of element `k` of a ring: those in its slot, or those of a push that are on their way there; none for a record that CHWR still has to land. -/
def State.elementAt (s : State) (t : Team) (c : Chute) (d : BitVec 64) (k : Nat) : Option (List Byte) :=
  match c.elems[k]? with
  | none => none
  | some e =>
    if e.landed then some (s.mem.readBytes (slotPhys t c d k) (elemBytes (descWidth d)))
    else (s.group e.group).ops.findSome? (fun o => match o.kind with | .push _ _ n b => if n == e.serial then some b else none | _ => none)

/-- The element that a pop at the tail takes: the last one whose bytes are there, be it one that a lower lane of the same step has pushed (11 R175; DESIGN
CHOICE, log 83). -/
def State.tailAt (s : State) (t : Team) (c : Chute) (d : BitVec 64) : Nat :=
  ((List.range c.elems.length).reverse.find? (fun k => (s.elementAt t c d k).isSome)).getD (c.elems.length - 1)

/-- One pop by a lane (11 R174 to R176): the element's bytes, or zero from a closed and empty chute; p6 says which when the chute is closed. -/
def State.pop (s : State) (lk q : Nat) : List Byte × State :=
  let gk := lk / 32
  let tk := teamOf gk
  let t := s.team tk
  let ci := t.coreIndex (s.group gk).core
  let c := t.chute q
  match c.desc with
  | none => ([], s)
  | some d =>
    let w := elemBytes (descWidth d)
    if descMode d = 1 && producerAt t d == some ci then
      if c.elems.isEmpty then
        (List.replicate w 0, if s.closedHere c then s.updLane lk (fun l => l.setPred 6 false) else s)
      else
        let k := s.tailAt t c d
        let at_ := slotPhys t c d k
        let bytes := (s.elementAt t c d k).getD (s.mem.readBytes at_ w)
        let s1 := (s.watchChute lk at_ w false (s.stepPc lk) s.stepSerial).updChute tk q (fun c => { c with elems := c.elems.eraseIdx k, withdrawn := false }.freed d s.cycle)
        (bytes, if s.closedHere c then s1.updLane lk (fun l => l.setPred 6 true) else s1)
    else if remoteConsumer d then
      match c.window with
      | bytes :: rest =>
        let s1 := (s.watchChute lk (slotPhys t c d c.popped) w false (s.stepPc lk) s.stepSerial).updChute tk q (fun c => { c with window := rest, popped := c.popped + 1, poppedAt := some s.cycle })
        (bytes, if c.closedThere then s1.updLane lk (fun l => l.setPred 6 true) else s1)
      | [] => (List.replicate w 0, if c.closedThere then s.updLane lk (fun l => l.setPred 6 false) else s)
    else if c.elems.isEmpty then
      (List.replicate w 0, if s.closedHere c then s.updLane lk (fun l => l.setPred 6 false) else s)
    else
      let bytes := s.mem.readBytes (slotPhys t c d 0) w
      let s1 := (s.watchChute lk (slotPhys t c d 0) w false (s.stepPc lk) s.stepSerial).updChute tk q (fun c => c.dropHead d s.cycle)
      (bytes, if s.closedHere c then s1.updLane lk (fun l => l.setPred 6 true) else s1)

/-- An element enters the ring at its tail, at the host: pushed by lane `lk`, or by no lane, and then it waits for nobody's accesses. -/
def State.land (s : State) (tk q : Nat) (lk : Option Nat) (serial from_ : Nat) (bytes : List Byte) (landed : Bool) (pc : W32) (step : Nat) : State :=
  let t := s.team tk
  let c := t.chute q
  match c.desc with
  | none => s
  | some d =>
    let at_ := slotPhys t c d c.elems.length
    let s := s.setMem (s.mem.writeBytes at_ bytes)
    let s := match lk with | some l => s.watchChute l at_ bytes.length true pc step | none => s
    s.updChute tk q (fun c =>
      { c with
        elems := c.elems ++
          [{ serial := if lk.isSome then serial else 0, group := (lk.getD 0) / 32, from_ := from_, landed := landed, forwarded := false }]
        withdrawn := false })

/-- A push into a local ring that releases accesses not yet performed: its slot is taken at issue, and its bytes go to the ring after those accesses
(18 R265, R269). -/
def State.pushLater (s : State) (lk q : Nat) (d : BitVec 64) (bytes : List Byte) : State :=
  let gk := lk / 32
  let t := s.team (teamOf gk)
  let at_ := slotPhys t (t.chute q) d (t.chute q).elems.length
  let op : LaneOp :=
    { id := s.serial, lane := lk, pc := (s.stepPc lk).toNat, step := s.stepSerial, space := 0, off := at_ % 2 ^ 20,
      kind := .push at_ q s.serial bytes, ctrs := [] }
  let s1 := s.updChute (teamOf gk) q (fun c =>
    { c with
      elems := c.elems ++ [{ serial := s.serial, group := gk, from_ := 0, landed := false, forwarded := false }]
      withdrawn := false })
  (s1.updGroup gk (fun g => { g with ops := g.ops ++ [op] })).bump

/-- One push by a lane (11 R174): into the ring, or on the way from a remote producer, whose mirrored count it spends. -/
def State.push (s : State) (lk q : Nat) (bytes : List Byte) : State :=
  let tk := teamOf (lk / 32)
  match ((s.team tk).chute q).desc with
  | none => s
  | some d =>
    if descPend d = 0 && !s.released (lk / 32) s.serial then s.pushLater lk q d bytes
    else if descPend d = 0 then (s.land tk q (some lk) s.serial (s.cycle + 1) bytes true (s.stepPc lk) s.stepSerial).bump
    else
      (s.updChute tk q (fun c => { c with free := c.free - 1, arriving := c.arriving ++ [⟨s.serial, lk, s.stepPc lk, s.stepSerial, s.cycle + 1, bytes⟩] })).bump

/-! ## Reading and writing an operand -/

/-- The value of an operand of `w` registers in a lane; a chute pops (02 R44, R45). -/
def State.readOp (s : State) (lk : Nat) (o : Operand) (w : Nat) : Nat × State :=
  match o with
  | .v n => ((s.lane lk).regsVal n.val w, s)
  | .z => (0, s)
  | .q n => let r := s.pop lk n.val; (leNat r.1, r.2)

/-- A result written to a destination operand of `w` registers; z discards, a chute takes one push (02 R44). -/
def State.writeOp (s : State) (lk : Nat) (o : Operand) (w x : Nat) : State :=
  match o with
  | .v _ => s.updLane lk (fun l => l.write o w x)
  | .z => s
  | .q n => s.push lk n.val (leBytes (4 * w) x)

/-- The three operands of a word read in operand order: a, b, c. -/
def State.read3 (s : State) (lk : Nat) (a : Operand) (wa : Nat) (b : Operand) (wb : Nat) (c : Operand) (wc : Nat) :
    (Nat × Nat × Nat) × State :=
  let x := s.readOp lk a wa
  let y := x.2.readOp lk b wb
  let z := y.2.readOp lk c wc
  ((x.1, y.1, z.1), z.2)

/-! ## What the operands of a word ask for before it executes -/

/-- A use that names a chute. -/
def useChute (u : Use) : Option Nat := match u.o with | .q n => some n.val | _ => none

/-- A v register beyond the group's allocation (02 R45, 05 R98). -/
def useBeyond (u : Use) (granules : Nat) : Bool :=
  match u.o with
  | .v n => 32 * granules < n.val + u.w
  | _ => false

/-- A trap at a chute use, in the order configuration, width, end, closed (11 R172, R173, R176, R177). -/
def chuteTrap (t : Team) (ci q : Nat) (width : Nat) (pops pushes closes : Bool) : Option Trap :=
  let c := t.chute q
  match c.desc with
  | none => some ⟨160, 17, q⟩
  | some d =>
    if descWidth d ≠ width then some ⟨161, 18, q⟩
    else if (pops && !mayPop t d ci) || (pushes && !mayPush t d ci) || (closes && !mayClose t d ci) then some ⟨162, 19, q⟩
    else if pushes && c.closed then some ⟨163, 20, q⟩
    else none

/-- The chute trap of a use under R44: 4-byte elements in 32-bit positions, 8-byte ones in pairs (11 R173). -/
def useTrap (t : Team) (ci : Nat) (u : Use) : Option Trap :=
  match u.o with
  | .q n => chuteTrap t ci n.val (u.w - 1) (u.dir != .dst) (u.dir != .src) false
  | _ => none

/-- What a word takes from a chute: pops and pushes, by chute. -/
structure Need where
  pops : AList Nat
  pushes : AList Nat
  deriving DecidableEq, Repr

def Need.none : Need := ⟨[], []⟩

def Need.addPop (n : Need) (q : Nat) : Need := { n with pops := n.pops.put q (n.pops.getD q 0 + 1) }
def Need.addPush (n : Need) (q : Nat) : Need := { n with pushes := n.pushes.put q (n.pushes.getD q 0 + 1) }

/-- The pops and pushes of a word's operands (07 R117). -/
def needOf (us : List Use) : Need :=
  us.foldl (fun n u => match u.o with
    | .q k =>
      let n := if u.dir != .dst then n.addPop k.val else n
      if u.dir != .src then n.addPush k.val else n
    | _ => n) Need.none

/-- The sum of two needs. -/
def Need.plus (a b : Need) : Need :=
  { pops := b.pops.foldl (fun m p => m.put p.1 (m.getD p.1 0 + p.2)) a.pops,
    pushes := b.pushes.foldl (fun m p => m.put p.1 (m.getD p.1 0 + p.2)) a.pushes }

/-- What stands in the way of a need after lower lanes have been allotted `spent`: nothing, an empty chute (code 6) or a full one (code 7) (07 R117).
A chute whose use would trap counts as able to serve, so that the trap is raised. A closed chute never blocks a lane once what is left of it is not
allotted to lower lanes: the lane pops what there is, and then zeros (11 R176; log 75). -/
def State.lacks (s : State) (t : Team) (ci : Nat) (us : List Use) (spent need : Need) : Option Nat :=
  let traps (q : Nat) : Bool := us.any (fun u => useChute u == some q && (useTrap t ci u).isSome)
  if need.pops.any (fun p =>
      let given := spent.pops.getD p.1 0
      let count := s.poppableCount t p.1 ci
      (t.chute p.1).desc.isSome && !traps p.1 && count < given + p.2 && !(s.poppedDry t p.1 ci && (given == 0 || count == 0))) then some 6
  else if need.pushes.any (fun p => (t.chute p.1).desc.isSome && !traps p.1
      && s.freeCount t p.1 < spent.pushes.getD p.1 0 + p.2) then some 7
  else none

end Sys2Proof.Machine
end

