-- ==== Sys2Proof/Machine/Access.lean ====
section
/-! DEFINITION. Buffer records (01 R29 to R31), the address of a lane access with its traps (11 R162, R166), the seal check (18 R268), and the
arithmetic of atomics (11 R168). -/

namespace Sys2Proof.Machine

/-! ## Virtual addresses (14 R195, R196) -/

def vaDev (a : Nat) : Nat := bits a 63 53
def vaDie (a : Nat) : Nat := bits a 52 50
def vaOff (a : Nat) : Nat := bits a 49 0

/-- This part's device number (04 R67). -/
def State.device (s : State) : Nat := match s.config with | some r => r.device | none => 0

/-- Whether an address names this part. -/
def State.ownAddr (s : State) (a : Nat) : Bool := vaDev a == 0x7FF || vaDev a == s.device

/-- A reserved device or die (14 R196). -/
def vaReserved (a : Nat) : Bool := (1024 ≤ vaDev a && vaDev a ≤ 2046) || 5 ≤ vaDie a

/-- The virtual page of an address, by its smallest page. -/
def vaPage (a : Nat) : Nat := a / 65536

/-- An address of this part under its one name: the own device number and 0x7FF are the same (14 R196). -/
def State.normVa (s : State) (a : Nat) : Nat := if s.ownAddr a then 0x7FF * 2 ^ 53 + a % 2 ^ 53 else a

/-! ## Fields of a buffer record (01 Table 1.7) -/

def recBase (r : BitVec 256) : Nat := bits r.toNat 63 0
def recExtent (r : BitVec 256) : Nat := bits r.toNat 111 64
def recSpace (r : BitVec 256) : Nat := bits r.toNat 115 112
def recFmt (r : BitVec 256) : Nat := bits r.toNat 119 116
def recBounds (r : BitVec 256) : Nat := bits r.toNat 122 120
def recScope (r : BitVec 256) : Nat := bits r.toNat 126 123
def recStride0 (r : BitVec 256) : Int := toSigned 32 (bits r.toNat 159 128)
def recStride1 (r : BitVec 256) : Int := toSigned 32 (bits r.toNat 191 160)
def recDim0 (r : BitVec 256) : Nat := bits r.toNat 207 192
def recDim1 (r : BitVec 256) : Nat := bits r.toNat 223 208
def recPolicy (r : BitVec 256) : Nat := bits r.toNat 225 224
def recTtlink (r : BitVec 256) : Nat := bits r.toNat 233 226

/-- The element size s of a format code (01 Table 1.8). -/
def elemSize (fmt : Nat) : Nat :=
  match fmt with
  | 0 => 1
  | 1 => 2
  | 2 => 4
  | 3 => 8
  | 4 => 16
  | _ => 64

def recSize (r : BitVec 256) : Nat := elemSize (recFmt r)

/-- Whether a record passes the check of its use (01 R30). -/
def recordOk (r : BitVec 256) : Bool :=
  recSpace r ≤ 3 && recFmt r ≤ 5 && recBounds r ≤ 4 && recScope r ≤ 5 && recPolicy r ≤ 2 && bits r.toNat 127 127 == 0
    && bits r.toNat 255 234 == 0 && recBase r % recSize r == 0

/-- A team's record in a slot. -/
def Team.record_ (t : Team) (slot : Nat) : BitVec 256 := t.slots.getD slot 0

/-- What bounds decide of an access (01 R31, Table 1.10): the index it proceeds with, or what becomes of it. -/
inductive Bounded where
  | at_ (i : Int)
  | trap
  | drop
  | skip
  deriving DecidableEq, Repr

/-- An access in range (01 R31). -/
def inRange (extent s o w : Nat) (i : Int) : Bool := 0 ≤ i * s + o && i * s + o + w ≤ extent

/-- The bounds of an access by mode; clamp and wrap that stay out of range, and an empty extent, act as mode 1 (01 R31). -/
def boundsOf (mode extent s o w : Nat) (i : Int) : Bounded :=
  if inRange extent s o w i then .at_ i
  else
    let n := extent / s
    match mode with
    | 0 => .trap
    | 1 => .drop
    | 2 =>
      let j : Int := if i < 0 then 0 else n - 1
      if n ≠ 0 ∧ inRange extent s o w j then .at_ j else .drop
    | 3 =>
      let j : Int := i % (n : Int)
      if n ≠ 0 ∧ inRange extent s o w j then .at_ j else .drop
    | _ => .skip

/-- A lane access that may proceed: its space and offset there, its physical address, and whether mode 1 drops it. -/
structure Access where
  space : Nat
  off : Nat
  phys : Nat
  drop : Bool
  deriving DecidableEq, Repr

def trapAlign : Trap := ⟨120, 12, 0⟩
def trapBounds : Trap := ⟨130, 13, 0⟩
def trapOut : Trap := ⟨140, 14, 0⟩

/-- The physical address of bytes `off` to `off + w - 1` of a scratch space, or none where one lies outside the allocation (11 R159, R162 step 5). -/
def State.scratchPhys (s : State) (gk space off w : Nat) : Option Nat :=
  let tk := teamOf gk
  let t := s.team tk
  let g := s.group gk
  match space with
  | 0 => if off + w ≤ t.chamberSize then some (t.chamberPhys off) else none
  | 1 =>
    let r := s.cavernRange (s.partitionOf tk) (g.core / 64)
    if off + w ≤ r.2 then some (cavernAddr (g.core / 64) (r.1 + off)) else none
  | _ => if off + w ≤ t.spillSize then some (g.spillPhys off) else none

/-- The address of a lane access of width `w` through a slot, with its traps in the order of 11 R162. -/
def State.laneAccess (s : State) (gk slot : Nat) (i : Int) (o w : Nat) : Except Trap Access :=
  let r := (s.team (teamOf gk)).record_ slot
  if !recordOk r then .error ⟨100, 10, slot⟩
  else if recSpace r = 3 then .error ⟨110, 11, 0⟩
  else
    let sz := recSize r
    let a : Int := recBase r + i * sz + o
    if a % w ≠ 0 then .error trapAlign
    else
      match boundsOf (recBounds r) (recExtent r) sz o w i with
      | .trap => .error trapBounds
      | .skip => .error trapBounds
      | .drop => .ok ⟨recSpace r, 0, 0, true⟩
      | .at_ j =>
        let a : Int := recBase r + j * sz + o
        if a % w ≠ 0 then .error trapAlign
        else
          match s.scratchPhys gk (recSpace r) a.toNat w with
          | some p => .ok ⟨recSpace r, a.toNat, p, false⟩
          | none => .error trapOut

/-- The address of LDSP and STSP (11 R169): alignment, then the spill allocation. -/
def State.spillAccess (s : State) (gk off : Nat) : Except Trap Access :=
  if off % 4 ≠ 0 then .error trapAlign
  else
    match s.scratchPhys gk 2 off 4 with
    | some p => .ok ⟨2, off, p, false⟩
    | none => .error trapOut

/-- The number of the seal-table entry that covers a byte of a range of a space, as seen from a team on a die (18 R268, R274); one whose UNSEAL is pending
still stands, and keeps its number. -/
def State.sealHit (s : State) (tk die space off len : Nat) : Option Nat :=
  let part := s.partitionOf tk
  let off := if space = 3 then s.normVa off else off
  ((s.sealTables.getD part []).find? (fun e =>
      e.2.space == space && overlaps off len e.2.base e.2.len
        && (space != 0 || e.2.team == tk) && (space != 1 || e.2.die == die))).map (fun e => e.1 % 16)

/-- A write into a sealed scratch range traps at issue (11 R166). -/
def State.sealTrap (s : State) (gk space off len : Nat) : Option Trap :=
  match s.sealHit (teamOf gk) ((s.group gk).core / 64) space off len with
  | some e => some ⟨150, 15, e⟩
  | none => none

/-- The operation of an atomic of `w` bytes, with its flags (11 R168). -/
def atomicOp (aop w old x : Nat) : Nat × Flags :=
  let b := 8 * w
  match aop with
  | 0 => ((old + x) % 2 ^ b, 0)
  | 1 => (old &&& x, 0)
  | 2 => (old ||| x, 0)
  | 3 => (old ^^^ x, 0)
  | 4 => (if toSigned b x < toSigned b old then x else old, 0)
  | 5 => (if x < old then x else old, 0)
  | 6 => (if toSigned b old < toSigned b x then x else old, 0)
  | 7 => (if old < x then x else old, 0)
  | 8 => (x, 0)
  | _ => f32.add 1 old x

end Sys2Proof.Machine
end

