-- ==== Sys2Proof/Machine/Flit.lean ====
section
/-! DEFINITION. Link flits (14 R207, R208): the fields of a flit, the receiver's order, and the sender's window and retry buffer. -/

namespace Sys2Proof.Machine

/-! ## The flit (14 Table 14.8) -/

def flitSeq (f : List Byte) : Nat := bits (leNat ((f.drop 64).take 2)) 11 0
def flitType (f : List Byte) : Nat := bits (leNat ((f.drop 64).take 2)) 15 12
def flitAck (f : List Byte) : Nat := bits (leNat ((f.drop 66).take 2)) 11 0

/-- A flit of a type: 0 data, 1 idle, 2 replay request, 3 acknowledgement. -/
def flitBytes (payload : List Byte) (type seq ack : Nat) : List Byte :=
  let body := (payload ++ List.replicate 64 0).take 64 ++ leBytes 2 (seq % 4096 + 4096 * type) ++ leBytes 2 (ack % 4096)
  body ++ leBytes 4 (crc32c body).toNat

/-- A flit that a receiver treats as lost (14 R208). -/
def flitLost (f : List Byte) : Bool :=
  f.length != 72 || (crc32c (f.take 68)).toNat != leNat (f.drop 68) || 3 < flitType f || bits (leNat ((f.drop 66).take 2)) 15 12 != 0

/-- The distance from one sequence number to another, modulo 4096. -/
def seqAhead (a b : Nat) : Nat := (b + 4096 - a) % 4096

/-! ## The receiver (14 R208) -/

/-- Held flits delivered as far as they follow on. -/
def Link.drain (l : Link) : Nat → Link
  | 0 => l
  | n + 1 =>
    match l.held.get? l.rxNext with
    | some p => Link.drain { l with held := l.held.del l.rxNext, delivered := l.delivered ++ [p], rxNext := (l.rxNext + 1) % 4096 } n
    | none => l

/-- The highest sequence number received in order. -/
def Link.ackNumber (l : Link) : Nat := (l.rxNext + 4095) % 4096

/-- Flits up to an acknowledged one leave the retry buffer, with what failed of them. -/
def Link.acked (l : Link) (a : Nat) : Link :=
  let kept := l.retry.filter (fun r => 1024 ≤ seqAhead r.1 a)
  { l with
    retry := kept
    resend := l.resend.filter (fun k => kept.any (fun r => r.1 == k))
    failures := l.failures.filter (fun f => kept.any (fun r => r.1 == f.1)) }

/-! ## The sender (14 R207, R208) -/

/-- Whether a link carries flits now. -/
def Link.running (l : Link) : Bool := l.enabled && l.up && !l.retraining

/-- The flits that a link sends now: the replays asked for, ahead of new flits, and new flits as far as the send window of 1024 takes them. What is not
sent stays in the buffers. -/
def Link.emit (l : Link) : Nat → Link × List (List Byte)
  | 0 => (l, [])
  | n + 1 =>
    if !l.running then (l, [])
    else
      match l.resend, l.queue with
      | k :: ks, _ =>
        let r := Link.emit { l with resend := ks } n
        (r.1, (l.retry.filter (fun x => x.1 == k)).map (fun x => flitBytes x.2 0 k l.ackNumber) ++ r.2)
      | [], p :: ps =>
        if 1024 ≤ l.retry.length then (l, [])
        else
          let r := Link.emit { l with queue := ps, retry := l.retry ++ [(l.txNext, p)], txNext := (l.txNext + 1) % 4096 } n
          (r.1, flitBytes p 0 l.txNext l.ackNumber :: r.2)
      | [], [] => (l, [])

/-- Bytes that leave the part on a link: kind 5 of what goes out, the link, the bytes. -/
def State.onWire (s : State) (link : Nat) (fs : List (List Byte)) : State :=
  { s with netOut := s.netOut ++ fs.map (fun f => [5, link] ++ f.map (fun b => b.toNat)) }

/-- A link sends what it can. -/
def State.pump (s : State) (link : Nat) : State :=
  let l := s.link link
  let r := l.emit (l.resend.length + l.queue.length)
  (s.setLink link r.1).onWire link r.2

/-- A packet handed to a link: its beats make one flit's payload, which waits where the window is full or the link is down (14 R207; log 15). -/
def State.sendPacket (s : State) (link : Nat) (packet : List Nat) : State :=
  (s.setLink link { s.link link with queue := (s.link link).queue ++ [leBytes 64 (Config.beats packet).toNat] }).pump link

end Sys2Proof.Machine
end

