-- ==== Sys2Proof/Machine/Fabric.lean ====
section
/-! DEFINITION. Beyond the scratch spaces: virtual addresses, translation and service at the owner die, seal registrations and replicas (14), and one
engine element's access (15 R214). -/

namespace Sys2Proof.Machine

/-! ## Tables and translation (14 R197 to R202) -/

/-- Where a table's physical address lies: bits [37:36] name the compute die (log 11). -/
def tableAddr (pa : Nat) : Nat := dramAddr (pa / 2 ^ 36 % 4) (pa % 2 ^ 36)

/-- The PTE word of entry `j` of a table. -/
def State.pte (s : State) (table j : Nat) : Nat := leNat (s.mem.readBytes (tableAddr (table + 16 * j)) 8)

def pteValid (e : Nat) : Bool := bit e 0
def pteWritable (e : Nat) : Bool := bit e 1
def pteLeaf (e : Nat) : Bool := bit e 3
def pteKind (e : Nat) : Nat := bits e 6 4
def pteFrame (e : Nat) : Nat := bits e 51 16 * 65536
/-- The reserved bits of a PTE word (14 Table 14.3), with a kind above 2 in a leaf. -/
def pteReserved (e : Nat) : Bool := bits e 63 52 != 0 || bits e 15 7 != 0

/-- A leaf found by a walk: its address, its PTE word, and how many offset bits its page covers. -/
structure Leaf where
  entry : Nat
  word : Nat
  page : Nat
  deriving DecidableEq, Repr

/-- The table walk of 14 R199. -/
def State.walk (s : State) (owner part off : Nat) : Except Nat Leaf :=
  match s.roots.get? (owner * 256 + part) with
  | none => .error 5
  | some root =>
    let e1 := s.pte root (bits off 49 38)
    if !pteValid e1 then .error 1
    else if pteLeaf e1 || pteReserved e1 || pteKind e1 != 0 || pteWritable e1 then .error 3
    else
      let t2 := pteFrame e1
      let e2 := s.pte t2 (bits off 37 27)
      if !pteValid e2 then .error 1
      else if pteLeaf e2 then
        if pteReserved e2 || 3 ≤ pteKind e2 || bits e2 26 16 != 0 then .error 3
        else .ok ⟨t2 + 16 * bits off 37 27, e2, 27⟩
      else if pteReserved e2 || pteKind e2 != 0 || pteWritable e2 then .error 3
      else
        let t3 := pteFrame e2
        let e3 := s.pte t3 (bits off 26 16)
        if !pteValid e3 then .error 1
        else if !pteLeaf e3 || pteReserved e3 || 3 ≤ pteKind e3 then .error 3
        else .ok ⟨t3 + 16 * bits off 26 16, e3, 16⟩

/-- The memory behind a physical address of a kind on a die, where it is in that kind's space and in a channel of the partition (14 R202). -/
def State.spaceOf (s : State) (owner part kind pa : Nat) : Option Nat :=
  if owner < 4 then
    (if kind = 0 ∧ pa < 2 ^ 36 ∧ s.partChannel part owner (pa / 2 ^ 31) then some (dramAddr owner pa) else none)
  else
    match kind, s.config with
    | 1, some r =>
      if (pa < 2 ^ 42 ∧ pa < r.cxl0) ∨ (2 ^ 42 ≤ pa ∧ pa < 2 ^ 43 ∧ pa - 2 ^ 42 < r.cxl1) then some (cxlAddr pa) else none
    | 2, _ => some (hostAddr pa)
    | _, _ => none

/-- The companion bit of a requester (14 Table 14.4); the host and Ethernet have none. -/
def requesterBit (r : Requester) : Nat :=
  match r with
  | .die d => 2 ^ d
  | .part n => 2 ^ (5 + n % 59)
  | .host => 0
  | .ethernet => 0

/-- The key of a page in the owner's translation cache. -/
def cacheKey (owner part off : Nat) : Nat := (owner * 256 + part) * 2 ^ 34 + off / 65536

/-- A word of memory ORed with bits, eight bytes. -/
def State.orWord (s : State) (a x : Nat) : State :=
  s.setMem (s.mem.writeBytes a (leBytes 8 (leNat (s.mem.readBytes a 8) ||| x)))

/-- Translation at the owner (14 R199): the address of the byte in the model's memory, or a fabric fault; the companion bit and, for a write, the
dirty bit are set by atomic ORs (R200). PROBE makes no dirty bit. -/
def State.translate (s : State) (req : Requester) (owner part off : Nat) (write dirties : Bool) : Except Nat Nat × State :=
  let found : Except Nat Leaf :=
    match s.roots.get? (owner * 256 + part), s.tcache.get? (cacheKey owner part off) with
    | some _, some c => .ok ⟨c.1, c.2, if c.2 / 2 ^ 60 = 1 then 27 else 16⟩
    | _, _ => s.walk owner part off
  match found with
  | .error f => (.error f, s)
  | .ok l =>
    let w := l.word % 2 ^ 60
    if write && !pteWritable w then (.error 2, s)
    else
      let pa := if l.page = 27 then bits w 51 27 * 2 ^ 27 + off % 2 ^ 27 else pteFrame w + off % 65536
      match s.spaceOf owner part (pteKind w) pa with
      | none => (.error 4, s)
      | some a =>
        let s := { s with tcache := s.tcache.put (cacheKey owner part off) (l.entry, w + (if l.page = 27 then 2 ^ 60 else 0)) }
        let s := s.orWord (tableAddr (l.entry + 8)) (requesterBit req)
        let s := if dirties then s.orWord (tableAddr l.entry) 4 else s
        (.ok a, s)

/-- Where an offset's byte lies, as the tables stand: no cache and no bit is touched. -/
def State.placeOf (s : State) (owner part off : Nat) : Option Nat :=
  match s.walk owner part off with
  | .error _ => none
  | .ok l =>
    s.spaceOf owner part (pteKind l.word)
      (if l.page = 27 then bits l.word 51 27 * 2 ^ 27 + off % 2 ^ 27 else pteFrame l.word + off % 65536)

/-- Whether bytes of the model's memory are among those that a range of this part's addresses translates to for a partition, page by page (14 R204). -/
def State.rangeHolds (s : State) (part va len a n : Nat) : Bool :=
  (List.range (len / 65536)).any (fun k =>
    s.ownAddr (va + 65536 * k)
      && (s.placeOf (vaDie (va + 65536 * k)) part (vaOff (va + 65536 * k))).any (fun p => overlaps a n p 65536))

/-- Whether bytes of the model's memory lie in a sealed range registered at this part: by its own SEALs, or by another part's (14 R204). -/
def State.sealedAt (s : State) (a n : Nat) : Bool :=
  s.sealTables.any (fun t => t.2.any (fun e => e.2.space == 3 && e.2.ready && s.rangeHolds t.1 e.2.base e.2.len a n))
    || s.farSeals.any (fun f => s.rangeHolds f.partition (0x7FF * 2 ^ 53 + f.die * 2 ^ 50 + f.off) f.len a n)

/-- A request translated and served at its owner (14 R199, R201, R204): the bytes read, or none for a write; or the fabric fault. -/
def State.serve (s : State) (req : Requester) (owner part off len : Nat) (write : Option (List Byte)) : Except Nat (List Byte) × State :=
  let t := s.translate req owner part off write.isSome write.isSome
  match t.1 with
  | .error f => (.error f, t.2)
  | .ok a =>
    match write with
    | none => (.ok (t.2.mem.readBytes a len), t.2)
    | some bs =>
      if t.2.sealedAt a bs.length then
        (.error 10, t.2.updHealth owner (fun h => { h with sealRefused := satInc h.sealRefused }))
      else (.ok [], t.2.setMem (t.2.mem.writeBytes a bs))

/-! ## Replicas (14 R204, 05 R92) -/

/-- The bytes of a range moved to another place, as they stand. -/
def Memory.copyRange (m : Memory) (src dst n : Nat) : Memory :=
  (m.filter (fun c => src ≤ c.1 && c.1 < src + n)).foldl (fun acc c => acc.write (dst + (c.1 - src)) c.2) (m.clear dst n)

/-- A local replica of a page, if one stands on the die. -/
def State.replicaOf (s : State) (die part page : Nat) : Option Replica :=
  s.replicas.find? (fun r => r.die == die && r.partition == part && r.page == page)

/-- Whether a page of this part lies wholly in a completed memory seal of a partition. -/
def State.sealedPage (s : State) (part page : Nat) : Bool :=
  (s.sealTables.getD part []).any (fun e => e.2.space == 3 && e.2.ready && e.2.base ≤ page * 65536 && (page + 1) * 65536 ≤ e.2.base + e.2.len)

/-- The reserved replica slice of a partition on a die: its first cavern byte, or none (05 R92). -/
def State.reservedSlice (s : State) (part die : Nat) : Option Nat :=
  let e := s.mapWord part 3
  let cavs := bits e (16 * die + 7) (16 * die)
  let cavn := bits e (16 * die + 15) (16 * die + 8)
  if cavn = 0 then none else some ((cavs + cavn - 1) * 2 ^ 20)

/-- The first free page place of the reserved slice. -/
def State.replicaRoom (s : State) (part die : Nat) : Option Nat :=
  match s.reservedSlice part die with
  | none => none
  | some base =>
    ((List.range 16).map (fun k => base + 65536 * k)).find?
      (fun a => !s.replicas.any (fun r => r.die == die && r.partition == part && r.at_ == a))

/-- The page of an address as a fault, a replica and the pager name it (21 R290). -/
def State.pageOf (s : State) (va : Nat) : Nat := vaPage (s.normVa va)

/-- The replica that serves a read under a policy (01 Table 1.9). -/
def State.replicaFor (s : State) (die part policy va : Nat) : Option Replica :=
  if policy = 1 then none else s.replicaOf die part (s.pageOf va)

/-- The place of the replica that a first read under policy 2 makes: the page is sealed, and the reserved slice has room (14 R204). -/
def State.replicaPlace (s : State) (die part policy va : Nat) : Option Nat :=
  if policy = 2 && s.sealedPage part (s.pageOf va) then s.replicaRoom part die else none

def State.addReplica (s : State) (die part va at_ : Nat) : State :=
  { s with replicas := s.replicas ++ [{ die := die, partition := part, page := s.pageOf va, at_ := at_ }] }

/-- A read of main memory of this part from its owner; policy 2 makes a replica of a sealed page at its first read if there is room. -/
def State.readMain (s : State) (die part policy va len : Nat) : Except Nat (List Byte) × State :=
  let r := s.serve (.die die) (vaDie va) part (vaOff va) len none
  match r.1, s.replicaPlace die part policy va with
  | .ok _, some at_ =>
    let t := r.2.translate (.die die) (vaDie va) part (vaOff va / 65536 * 65536) false false
    (match t.1 with
     | .error _ => r
     | .ok a => (r.1, (t.2.setMem (t.2.mem.copyRange a (cavernAddr die at_) 65536)).addReplica die part va at_))
  | _, _ => r

/-! ## One element of an engine command (15 R214) -/

/-- What an element's access comes to. -/
inductive Elem where
  | bytes (b : List Byte)
  /-- Mode 1: read as zero, or the write dropped, OOB noted. -/
  | dropped
  /-- Mode 4: neither read nor written, counted. -/
  | skipped
  | fault (code addr : Nat)
  deriving DecidableEq, Repr

/-- Whether a device is in the domain (14 R209). -/
def State.present (s : State) (dev : Nat) : Bool := !s.absent.contains dev

/-- The link a request to another part leaves on: of those enabled and up, the one with the fewest outstanding requests to that part, ties to the
lowest (14 R209). -/
def State.linkFor (s : State) (part : Nat) : Option Nat :=
  let ls := s.links.filter (fun l => l.1 < 16 && l.2.enabled && l.2.up)
  (ls.foldl (fun best l => match best with
    | none => some l
    | some b => if l.2.outstanding.getD part 0 < b.2.outstanding.getD part 0 then some l else some b) (none : Option (Nat × Link))).map (·.1)

/-- Whether a Drexon link carries traffic now: enabled, up, and not retraining (14 R209). -/
def State.linked (s : State) (link : Nat) : Bool := link < 16 && (s.link link).running

/-- What a request's packet says it asks (14 R199; log 15). -/
def actFields : OwnerAct → List Nat
  | .read n => [0, n]
  | .write b => 1 :: b.map (fun x => x.toNat)
  | .add x => [2, x]
  | .set x => [3, x]
  | .wait v => [4, v]
  | .coll r b => [5, r] ++ b.map (fun x => x.toNat)
  | .ccan => [6]
  | .cstat => [7]
  | .probe => [8]
  | .register n => [9, n]
  | .unregister n => [10, n]
  | .fadd x => [11, x]
  | .cabandon r => [12, r]

/-- A request to another part leaves on a link, with its address, its partition, its source number and the device number of this part (14 R199,
R209). -/
def State.requestTo (s : State) (part va partition source : Nat) (act : OwnerAct) : Option (Nat × State) :=
  match s.linkFor part with
  | none => none
  | some l =>
    let s := s.sendPacket l ([va, partition, source, s.device] ++ actFields act)
    some (l, s.setLink l { s.link l with outstanding := (s.link l).outstanding.put part ((s.link l).outstanding.getD part 0 + 1) })

/-- An answer of an owner die to what asked it: back on the link that the request of another part came on, and out as kind 4 otherwise (14 R209; log
15). -/
def State.answerTo (s : State) (r : Requester) (link : Nat) (out : List Nat) : State :=
  match r with
  | .part n => s.sendPacket link (n :: out)
  | .die d => { s with netOut := s.netOut ++ [[4, d] ++ out] }
  | .host => { s with netOut := s.netOut ++ [[4, 5] ++ out] }
  | .ethernet => { s with netOut := s.netOut ++ [[4, 6] ++ out] }

/-- A main-memory access of an engine for a partition from a die: from a local replica, from another part, whose answer comes in from outside, or from
this part's owner die, whose data may come poisoned or with an uncorrectable error (14 R201, R203, R204). The answer of another part to a read that
makes a replica is the whole page. -/
def State.mainAccess (s : State) (die part policy va len : Nat) (write : Option (List Byte)) (ans : Answer) : Elem × State :=
  if vaReserved va then (.fault 6 va, s)
  else
    match write, s.replicaFor die part policy va with
    | none, some r => (.bytes (s.mem.readBytes (cavernAddr die (r.at_ + va % 65536)) len), s)
    | _, _ =>
      if !s.ownAddr va then
        match ans, write with
        | .fault c, _ => (.fault c va, s)
        | .data b, none =>
          if b.length = 65536 then
            (.bytes ((b.drop (va % 65536)).take len),
              match s.replicaPlace die part policy va with
              | some at_ => (s.setMem (s.mem.writeBytes (cavernAddr die at_) b)).addReplica die part va at_
              | none => s)
          else (.bytes ((b ++ List.replicate len 0).take len), s)
        | .data _, some _ => (.bytes [], s)
      else
        match write with
        | none =>
          let r := s.readMain die part policy va len
          (match r.1, ans with
           | .error c, _ => (.fault c va, r.2)
           | .ok _, .fault 9 => (.fault 9 va, r.2)
           | .ok b, _ => (.bytes b, r.2))
        | some _ =>
          let r := s.serve (.die die) (vaDie va) part (vaOff va) len write
          (match r.1 with
           | .error c => (.fault c va, r.2)
           | .ok b => (.bytes b, r.2))

/-- One element of a record reached by an engine command of group `gk` whose word stands at `pc` (15 R214): bounds, then space, then the access. -/
def State.engineElem (s : State) (gk pc : Nat) (r : BitVec 256) (f : Int) (write : Option (List Byte)) (ans : Answer) : Elem × State :=
  let sz := recSize r
  match boundsOf (recBounds r) (recExtent r) sz 0 sz f with
  | .trap => (.fault 16 (ofSigned 64 ((recBase r : Int) + f * sz)), s)
  | .drop => (.dropped, s)
  | .skip => (.skipped, s)
  | .at_ j =>
    let a := ((recBase r : Int) + j * sz).toNat
    if recSpace r = 3 then
      s.mainAccess ((s.group gk).core / 64) (s.partitionOf (teamOf gk)) (recPolicy r) a sz write ans
    else
      match s.scratchPhys gk (recSpace r) a sz with
      | none => (.fault 17 a, s)
      | some p =>
        match write, ans with
        | none, .fault 9 => (.fault 9 a, s)
        | none, _ => (.bytes (s.mem.readBytes p sz), s.watch gk p sz true false 1 0 (BitVec.ofNat 32 pc) 0)
        | some b, _ => (.bytes [], (s.setMem (s.mem.writeBytes p b)).watch gk p sz false true 1 0 (BitVec.ofNat 32 pc) 0)

end Sys2Proof.Machine
end

