-- ==== Sys2Proof/Machine/Tensor.lean ====
section
/-! DEFINITION. Tensor-table entries (01 R32, R33) and the operand formats with their layouts (17 R235 to R240). -/

namespace Sys2Proof.Machine

/-! ## Fields of an entry (01 Table 1.11) -/

abbrev Entry := BitVec 128

def ttFmt (e : Entry) : Nat := bits e.toNat 3 0
def ttRowMajor (e : Entry) : Bool := bit e.toNat 4
def ttScale (e : Entry) : Int := toSigned 8 (bits e.toNat 15 8)
def ttBase (e : Entry) : Nat := bits e.toNat 35 16
def ttRows (e : Entry) : Nat := bits e.toNat 49 36 + 1
def ttCols (e : Entry) : Nat := bits e.toNat 63 50 + 1
def ttRstride (e : Entry) : Nat := bits e.toNat 83 64
def ttPstride (e : Entry) : Nat := bits e.toNat 103 84
def ttExpoff (e : Entry) : Nat := bits e.toNat 123 104

/-- Row blocks and column blocks of 32 (17 R238). -/
def ttRB (e : Entry) : Nat := (ttRows e + 31) / 32
def ttEB (e : Entry) : Nat := (ttCols e + 31) / 32

def isBfp (fmt : Nat) : Bool := fmt ≤ 6
def isFloat (fmt : Nat) : Bool := fmt == 10 || fmt == 11

/-- Bit planes of a format (17 Table 17.1). -/
def planes (fmt : Nat) : Nat :=
  if fmt ≤ 6 then fmt + 2 else if fmt = 7 then 8 else if fmt = 8 then 4 else if fmt = 9 then 2 else if fmt = 10 then 12 else 9

/-- Bytes of one row in row-major layout (17 Table 17.2). -/
def rowBytes (e : Entry) : Nat :=
  let c := ttCols e
  match ttFmt e with
  | 7 => c
  | 8 => (c + 1) / 2
  | 9 => (c + 4) / 5
  | 10 => 2 * c
  | 11 => 2 * c
  | 12 => 4 * c
  | 13 => 4 * c
  | f => ttEB e * (1 + 4 * (f + 2))

/-- Whether an entry meets R32 and names a format that TTSET admits (17 R252, reason 3). -/
def entryOk (e : Entry) : Bool :=
  bits e.toNat 127 124 == 0 && bits e.toNat 7 5 == 0 && ttFmt e ≤ 13
    && (if ttRowMajor e then ttBase e % 4 == 0 && ttRstride e % 4 == 0
        else ttBase e % 128 == 0 && ttPstride e % 128 == 0 && ttRstride e % 128 == 0 && ttFmt e ≤ 11)

/-! ## Where the bytes of a plane tensor lie (17 R238) -/

/-- The plane block of bit `j` at a row and a column block. -/
def blockAt (e : Entry) (j rb eb : Nat) : Nat := ttBase e + j * ttPstride e + rb * ttRstride e + eb * 128

/-- Bytes of the exponent vector for one row: one to a block, or one to an element. -/
def expRow (e : Entry) : Nat := if isBfp (ttFmt e) then ttEB e else if isFloat (ttFmt e) then 32 * ttEB e else 0

/-- The byte ranges of a tensor's footprint: its plane blocks and its exponent bytes. -/
def footprint (e : Entry) : List (Nat × Nat) :=
  (List.range (planes (ttFmt e))).flatMap (fun j =>
    (List.range (ttRB e)).map (fun rb => (blockAt e j rb 0, 128 * ttEB e)))
    ++ (if expRow e = 0 then [] else [(ttExpoff e, ttRows e * expRow e)])

/-! ## Elements -/

/-- An element as the engine reads it (17 R235 to R237): a finite value q × 2^x before the tensor's scale, an infinity or a NaN. -/
inductive TVal where
  | fin (q : Int) (x : Int)
  | inf (neg : Bool)
  | nan
  deriving DecidableEq, Repr

/-- What significand q and exponent byte x stand for in a format (17 Table 17.1, R236, R237). -/
def tval (fmt : Nat) (q : Int) (x : Nat) : TVal :=
  if fmt ≤ 6 then (if x = 255 then .nan else .fin q ((x : Int) - 127 - (fmt + 1)))
  else if fmt = 10 then
    (if x = 255 then (if q = 0 then .nan else .inf (q < 0)) else if 31 ≤ x then .nan else .fin q ((x : Int) - 25))
  else if fmt = 11 then (if x = 255 then (if q = 0 then .nan else .inf (q < 0)) else .fin q ((x : Int) - 134))
  else .fin q 0

/-- One byte of a chamber. -/
def State.chamberByte (s : State) (t : Team) (o : Nat) : Byte := s.mem.read (t.chamberPhys o)

/-- The significand of an element in plane layout. -/
def State.planeQ (s : State) (t : Team) (e : Entry) (row col : Nat) : Int :=
  let p := planes (ttFmt e)
  let n := (List.range p).foldl (fun acc j =>
    let o := blockAt e j (row / 32) (col / 32) + 4 * (row % 32) + col % 32 / 8
    acc + b2n ((s.chamberByte t o).toNat.testBit (col % 8)) * 2 ^ j) 0
  toSigned p n

/-- The exponent byte of an element, 0 where its format has none. -/
def State.expByte (s : State) (t : Team) (e : Entry) (row col : Nat) : Nat :=
  if isBfp (ttFmt e) then (s.chamberByte t (ttExpoff e + row * ttEB e + col / 32)).toNat
  else if isFloat (ttFmt e) then (s.chamberByte t (ttExpoff e + row * 32 * ttEB e + col)).toNat
  else 0

/-- Elem of 17 R254: the element, or zero outside the tensor. -/
def State.elem (s : State) (t : Team) (e : Entry) (row col : Nat) : TVal :=
  if ttRows e ≤ row || ttCols e ≤ col then .fin 0 0
  else tval (ttFmt e) (s.planeQ t e row col) (s.expByte t e row col)

/-! ## From a row-major source to planes (17 R239, R240) -/

/-- What CPYT makes of one element of a source row: its significand, its exponent byte, and FMT for an illegal T5P code. -/
def rowElem (e : Entry) (row : List Byte) (col : Nat) : Int × Nat × Bool :=
  let byteAt (k : Nat) : Nat := (row.getD k 0).toNat
  match ttFmt e with
  | 7 => (toSigned 8 (byteAt col), 0, false)
  | 8 => (toSigned 4 (byteAt (col / 2) / 16 ^ (col % 2) % 16), 0, false)
  | 9 =>
    let b := byteAt (col / 5)
    if 243 ≤ b then (0, 0, true) else ((b / 3 ^ (4 - col % 5) % 3 : Nat) - 1, 0, false)
  | 10 =>
    let n := byteAt (2 * col) + 256 * byteAt (2 * col + 1)
    let ex := bits n 14 10
    let fr := bits n 9 0
    let sg : Int := if bit n 15 then -1 else 1
    if ex = 31 then ((if fr = 0 then sg else 0), 255, false)
    else (sg * ((fr + (if ex = 0 then 0 else 1024) : Nat) : Int), (if ex = 0 then 1 else ex), false)
  | 11 =>
    let n := byteAt (2 * col) + 256 * byteAt (2 * col + 1)
    let ex := bits n 14 7
    let fr := bits n 6 0
    let sg : Int := if bit n 15 then -1 else 1
    if ex = 255 then ((if fr = 0 then sg else 0), 255, false)
    else (sg * ((fr + (if ex = 0 then 0 else 128) : Nat) : Int), (if ex = 0 then 1 else ex), false)
  | f =>
    let m := f + 2
    let blk := (row.drop (col / 32 * (1 + 4 * m)))
    (toSigned m (leNat ((blk.drop 1).take (4 * m)) / 2 ^ (m * (col % 32))), (blk.headD 0).toNat, false)

/-- The bytes of a plane tensor's footprint from its elements' significands and exponent bytes: (offset, row, byte). -/
def planeBytes (e : Entry) (q : Nat → Nat → Int) (x : Nat → Nat → Nat) : List (Nat × Nat × Byte) :=
  let p := planes (ttFmt e)
  let code (row col : Nat) : Nat := if ttRows e ≤ row || ttCols e ≤ col then 0 else ofSigned p (q row col)
  let ps := (List.range p).flatMap (fun j => (List.range (ttRB e)).flatMap (fun rb => (List.range (ttEB e)).flatMap (fun eb =>
    (List.range 32).flatMap (fun r => (List.range 4).map (fun k =>
      (blockAt e j rb eb + 4 * r + k, 32 * rb + r,
        BitVec.ofNat 8 ((List.range 8).foldl
          (fun acc i => acc + b2n ((code (32 * rb + r) (32 * eb + 8 * k + i)).testBit j) * 2 ^ i) 0)))))))
  let xs :=
    if isBfp (ttFmt e) then (List.range (ttRows e)).flatMap (fun r => (List.range (ttEB e)).map (fun eb =>
      (ttExpoff e + r * ttEB e + eb, r, BitVec.ofNat 8 (x r (32 * eb)))))
    else if isFloat (ttFmt e) then (List.range (ttRows e)).flatMap (fun r => (List.range (32 * ttEB e)).map (fun c =>
      (ttExpoff e + r * 32 * ttEB e + c, r, BitVec.ofNat 8 (if ttCols e ≤ c then 0 else x r c))))
    else []
  ps ++ xs

/-- What CPYT writes (17 R240) from the source rows: the footprint, and whether FMT is noted. -/
def convertRows (e : Entry) (rows : Nat → List Byte) : List (Nat × Nat × Byte) × Bool :=
  (planeBytes e (fun r c => (rowElem e (rows r) c).1) (fun r c => (rowElem e (rows r) c).2.1),
    (List.range (ttRows e)).any (fun r => (List.range (ttCols e)).any (fun c => (rowElem e (rows r) c).2.2)))

end Sys2Proof.Machine
end

