-- ==== Sys2Proof/Machine/Words.lean ====
section
/-! DEFINITION. Executing lane words: readiness (07 R116, R117), the checks of a word (02 R52), and what a word of a step does in one lane
(06 R107). Every meaning of a lane word is one `laneWord` over its point. -/

namespace Sys2Proof.Machine

/-- Where a word executes: its group, lane position and address, and the step it belongs to. -/
structure Ctx where
  gk : Nat
  pos : Nat
  at_ : Nat
  st : IssueStep
  /-- The clause the word lies in, whose header names the counters of its flag select (02 R40). -/
  clause : Option Clause := none
  deriving DecidableEq, Repr

def Ctx.lk (c : Ctx) : Nat := laneKey c.gk c.pos
def Ctx.tk (c : Ctx) : Nat := teamOf c.gk
/-- The team core index of the lane. -/
def Ctx.ci (c : Ctx) (s : State) : Nat := (s.team c.tk).coreIndex (s.group c.gk).core

/-- What a point is to a lane: whether its word keeps the lane in place until something completes, whether it acts in lanes whose guard is false
(07 R122), its own traps after those of 02 Table 2.29, and its effect. -/
structure Point where
  hold : Bool
  always : Bool
  own : Ctx → State → Option Trap
  eff : Ctx → State → State

/-- A point without traps of its own. -/
def plain (eff : Ctx → State → State) : Point := { hold := false, always := false, own := fun _ _ => none, eff := eff }
/-- A point with traps of its own. -/
def trapping (own : Ctx → State → Option Trap) (eff : Ctx → State → State) : Point :=
  { hold := false, always := false, own := own, eff := eff }
/-- A point that may keep its lane in place. -/
def holding (own : Ctx → State → Option Trap) (eff : Ctx → State → State) : Point :=
  { hold := true, always := false, own := own, eff := eff }

/-! ## The checks of a word (02 Table 2.29) -/

/-- A flag select that names a flag whose header field is 15 (02 R41). -/
def selBad (cl : Option Clause) (fsel : Nat) : Bool :=
  match cl with
  | some c => (fsel.testBit 0 && c.seta == 15) || (fsel.testBit 1 && c.setb == 15)
  | none => fsel != 0


/-- Order 2 beyond the fields of the word: a flag select that breaks 02 R41, and points outside the code that may hold them (04 R80, R82, R85,
18 R273, 21 R289, R298, R299). -/
def order2 (c : Ctx) (v : View) (s : State) : Bool :=
  let t := s.team c.tk
  let task : Bool := match t.kind with | .task .. => true | .message _ => true | _ => false
  selBad (s.lane c.lk).clause v.fsel
    || (match v with
        | .s op _ _ =>
          (op == 0x1A4 && !(s.group c.gk).handler)
            || ((op == 0x1B2 || op == 0x1B3) && t.kind != .service)
            || ((op == 0x185 || op == 0x186) && !t.kernel.coop)
            || ((op == 0x1A5 || op == 0x1A6) && task)
        | _ => false)

/-- Every operand field of a word. -/
def operandsOf (v : View) : List Operand :=
  match v with
  | .rrr _ _ f => [f.d, f.a, f.b, f.c]
  | .ri _ _ f => [f.d, f.a]
  | .m _ _ f => [f.d, f.idx]
  | .a _ _ f => [f.d, f.idx, f.a]
  | .g _ _ f => [f.d, f.a, f.b, f.c]
  | .e _ _ f => [f.d, f.cnt, f.aux]
  | .x _ _ f => [f.d, f.a, f.b]
  | .b _ _ f => [f.reg]
  | .s _ _ f => [f.d, f.a, f.b]
  | .ms _ _ _ => []
  | .event => []

/-- A chute beyond the team's count (02 R45). -/
def order3 (t : Team) (v : View) : Bool :=
  (operandsOf v).any (fun o => match o with | .q n => t.kernel.chutes ≤ n.val | _ => false)

/-- A register beyond the group's allocation (02 R45). -/
def order4 (g : Group) (v : View) : Bool := v.uses.any (fun u => useBeyond u g.granules.length)

def trap2 : Trap := ⟨2, 2, 0⟩
def trap3 : Trap := ⟨3, 3, 0⟩
def trap4 : Trap := ⟨4, 4, 0⟩

/-- The lower in rank of two traps. -/
def firstTrap (a b : Option Trap) : Option Trap :=
  match a, b with
  | some x, some y => if y.rank < x.rank then some y else some x
  | some x, none => some x
  | none, y => y

/-- The first trap in rank among chute uses, in operand order on ties, for a lane whose guard is true (11 R172, R173, R176, R177). -/
def usesTrap (c : Ctx) (v : View) (s : State) : Option Trap :=
  v.uses.foldl (fun a u => firstTrap a (useTrap (s.team c.tk) (c.ci s) u)) none

/-- Whether a lane's guard is true; a word without a guard executes. -/
def guardOn (l : Lane) (v : View) : Bool := match v.guard with | some g => l.guard g | none => true

/-- The trap of a decoded word in a lane: orders 2 to 4 whatever the guard says, then its own traps where it acts (02 R51 to R53). -/
def viewTrap (c : Ctx) (v : View) (p : Point) (s : State) : Option Trap :=
  if order2 c v s then some trap2
  else if order3 (s.team c.tk) v then some trap3
  else if order4 (s.group c.gk) v then some trap4
  else
    let on := guardOn (s.lane c.lk) v
    if on || p.always then firstTrap (p.own c s) (if on then usesTrap c v s else none) else none

/-- The trap of a word that does not decode. -/
def undecoded (c : Ctx) (word : Nat) (e : DecodeError) (s : State) : Trap :=
  match e with
  | .illegalInstruction => trap2
  | .illegalOperand => (match viewOf word with | some v => if order2 c v s then trap2 else trap3 | none => trap2)

/-- The state after a lane's source operands have been read: what the lanes above find in the chutes (07 R117). -/
def State.popUses (s : State) (lk : Nat) (us : List Use) : State :=
  us.foldl (fun s u => if u.dir != .dst then (s.readOp lk u.o u.w).2 else s) s

/-! ## Scopes (18 R262) -/

/-- A party of the memory model (18 Table 18.1). -/
inductive Party where
  | group (gk : Nat)
  | front (core : Nat)
  | sequencer (core : Nat)
  | sump (die : Nat)
  | bank (die : Nat)
  | commandProcessor
  | fiaris
  /-- Any party of another part of the domain. -/
  | beyond
  deriving DecidableEq, Repr

/-- The core of a party of this part that sits at one. -/
def State.partyCore (s : State) : Party → Option Nat
  | .group gk => some (s.group gk).core
  | .front c => some c
  | .sequencer c => some c
  | _ => none

/-- The die of a sump or a cavern bank. -/
def Party.memoryDie : Party → Option Nat
  | .sump d => some d
  | .bank d => some d
  | _ => none

/-- Whether a party is within a scope of a group (18 Table 18.1): the group alone; its core; the cores of its cluster; those of its die, with the die's
sumps and cavern banks; the part; the domain. -/
def State.within (s : State) (scope gk : Nat) (y : Party) : Bool :=
  let core := (s.group gk).core
  match scope with
  | 0 => y == .group gk
  | 1 => s.partyCore y == some core
  | 2 => (s.partyCore y).any (fun c => c / 8 == core / 8)
  | 3 => (s.partyCore y).any (fun c => c / 64 == core / 64) || y.memoryDie == some (core / 64)
  | 4 => y != .beyond
  | _ => true

/-! ## Fences (18 R271) -/

/-- Stores: those of MEMS and CHRD, the call entry of CALL and CALLI (11 R169), and the record that TASKP writes (04 R87). -/
def storeLike (op : Nat) : Bool := (0x127 ≤ op && op ≤ 0x131) || op == 0x133 || op == 0x136 || op == 0x008 || op == 0x009 || op == 0x1A8
/-- Loads: those of MEMS, CHWR, WAITS and XTLD, the call entry of RET (11 R169), and the records that LAUNCH and TASK read (04 R82, R87). -/
def loadLike (op : Nat) : Bool :=
  (0x120 ≤ op && op ≤ 0x126) || op == 0x132 || op == 0x134 || op == 0x137 || op == 0x189 || op == 0x0E0 || op == 0x00A
    || op == 0x1A5 || op == 0x1A7
def engineIssue (op : Nat) : Bool := (0x140 ≤ op && op ≤ 0x152) || op == 0x155 || op == 0x162
def barrierArrival (op : Nat) : Bool := op == 0x181 || op == 0x182 || op == 0x185
/-- A chute a word pops or pushes: its operands under 02 R44, those of CHRD and CHWR, and the task deque of TASKP and TASK (11 R175). -/
def popsChute (v : View) : Bool := v.opcode == some 0x136 || v.opcode == some 0x1A8 || v.uses.any (fun u => (useChute u).isSome && u.dir != .dst)
def pushesChute (v : View) : Bool := v.opcode == some 0x137 || v.opcode == some 0x1A7 || v.uses.any (fun u => (useChute u).isSome && u.dir != .src)

/-- What returns a value to its group: a RED does not (18 R271). -/
def OpKind.returns (k : OpKind) : Bool :=
  match k with
  | .load .. => true
  | .atomic _ _ _ _ _ ret _ _ _ _ => ret
  | .cas .. => true
  | .waits .. => true
  | .brld .. => true
  | .chwr .. => true
  | .xtld .. => true
  | _ => false
def OpKind.writes (k : OpKind) : Bool :=
  match k with
  | .store .. => true
  | .atomic .. => true
  | .cas .. => true
  | .chwr .. => true
  | .push .. => true
  | _ => false
/-- The scope at which an operation acquires, if it does (18 Table 18.2); that of a WAITS is taken as the widest. -/
def OpKind.acquireScope (k : OpKind) : Option Nat :=
  match k with
  | .atomic _ _ _ _ _ _ true _ _ scope => some scope
  | .cas _ _ _ _ _ true _ _ scope => some scope
  | .waits .. => some 5
  | _ => none

/-- What acquires, for a scope that holds another party (18 Table 18.2). -/
def OpKind.acquires (k : OpKind) : Bool := k.acquireScope.any (· != 0)

/-- Whether a fence in force holds a word of its group; it does so whatever its scope (18 R271). -/
def State.fenceHolds (s : State) (gk : Nat) (v : View) (f : Fence) : Bool :=
  match v.opcode with
  | none => false
  | some op =>
    let ops := (s.group gk).ops.filter (fun o => o.id < f.serial)
    (2 ≤ f.kind && (storeLike op || pushesChute v || barrierArrival op || engineIssue op)
        && !s.released gk f.serial)
      || (f.kind % 2 == 1 && (loadLike op || storeLike op || popsChute v || pushesChute v || engineIssue op)
          && ops.any (fun o => o.kind.returns))
      || (f.kind == 3 && (loadLike op || popsChute v) && (ops.any (fun o => o.kind.writes) || !s.pushesLanded gk f.serial))

/-- Whether a fence is done with: nothing it covers is in flight. -/
def State.fenceDone (s : State) (gk : Nat) (f : Fence) : Bool :=
  (s.group gk).ops.all (fun o => f.serial ≤ o.id || o.kind matches .value .. | .fencei | .sealing ..) && s.pushesLanded gk f.serial

/-! ## At the host (18 R258 to R261) -/

/-- The place of an operation's bytes, none where bounds mode 1 dropped it; that of an XTLD that has not yet read is its image's header (State.hostsOf gives the rest). -/
def OpKind.place (k : OpKind) : Option (Nat × Nat) :=
  match k with
  | .load a w _ _ _ false => some (a, w)
  | .store a d false => some (a, d.length)
  | .atomic a w _ _ _ _ _ _ false _ => some (a, w)
  | .cas a w _ _ _ _ _ false _ => some (a, w)
  | .brld a _ false => some (a, 32)
  | .chwr a _ _ false => some (a, 64)
  | .waits a _ _ false => some (a, 4)
  | .push a _ _ b => some (a, b.length)
  | .xtld a _ _ _ _ none => some (a, 32)
  | _ => none

/-- The scope at which an operation releases, if it does (18 Table 18.2); that of a push is taken as the widest. -/
def OpKind.releaseScope (k : OpKind) : Option Nat :=
  match k with
  | .atomic _ _ _ _ _ _ _ true _ scope => some scope
  | .cas _ _ _ _ _ _ true _ scope => some scope
  | .push .. => some 5
  | _ => none

/-- What releases, for a scope that holds another party, and a push always (18 Table 18.2). -/
def OpKind.releases (k : OpKind) : Bool := k.releaseScope.any (· != 0)

/-- Whether the order that a scope gives to an access of a group serves anyone but the group itself, whose own order needs none: a group of its team within
the scope, or for memory that other teams reach too, anyone of a scope wider than the group. Under a scope too narrow for that the access keeps no order
(18 R262, R263; log 40). -/
def State.servesOthers (s : State) (gk scope : Nat) (k : OpKind) : Bool :=
  scope != 0 && (k.place.all (fun p => 2 ^ 28 ≤ p.1) || (s.teamGroups (teamOf gk)).any (fun g =>
    g != gk && !(s.group g).retired && s.within scope gk (.group g)))

/-- An atomic or CAS, which is performed at the head of the store queue (18 R260). -/
def OpKind.isAtomic (k : OpKind) : Bool := match k with | .atomic .. => true | .cas .. => true | _ => false

/-- Whether an earlier operation of the group keeps a later one from its host: the store queue is first in, first out to one host; loads of one host
keep their order, and follow its atomics; nothing overtakes an acquiring atomic, and a releasing one overtakes nothing (18 R260, R261,
R265). `serves` says whether a scope gives an access an order that anyone sees. -/
def holdsBack (serves : Nat → OpKind → Bool) (early late : OpKind) : Bool :=
  early.isAccess && !(early matches .waits ..)
    && ((early.isAtomic && early.acquireScope.any (fun c => serves c late)) || late.releaseScope.any (fun c => serves c early)
        || ((early matches .xtld _ _ _ _ _ none) && late.writes) || ((late matches .xtld _ _ _ _ _ none) && early.isAtomic)
        || (match early.place, late.place with
            | some p, some q =>
              hostOf p.1 == hostOf q.1 && (late.writes && !(late matches .chwr ..) || early.isAtomic
                || (early.returns && late.returns))
            | _, _ => false))

/-- The spill offset of call entry `k` of a lane position (06 R111). -/
def entryAt (t : Team) (k pos : Nat) : Nat := t.spillSize - 128 * (k + 1) + 4 * pos

/-- The byte at an address that a queued store, or a push on its way to its ring, is about to write. -/
def OpKind.stores (k : OpKind) (a : Nat) : Option Byte :=
  match k with
  | .store b d false => if b ≤ a && a < b + d.length then d[a - b]? else none
  | .push b _ _ d => if b ≤ a && a < b + d.length then d[a - b]? else none
  | _ => none

/-- The byte a load of a group finds: the youngest queued store of the group to it, else its host's (18 R260). -/
def State.loadByte (s : State) (gk a : Nat) : Byte :=
  let q := (s.group gk).ops.reverse.findSome? (fun o => o.kind.stores a)
  match q with | some b => b | none => s.mem.read a

/-- The bytes a load of a group finds (18 R260). -/
def State.loadBytes (s : State) (gk a n : Nat) : List Byte := (List.range n).map (fun k => s.loadByte gk (a + k))

/-! ## Readiness (07 R116, R117) -/

/-- The registers an operation in flight still has to write. -/
def OpKind.target (k : OpKind) : List (Nat × Nat) :=
  match k with
  | .value ws _ _ => ws.map (fun w => (w.1, 1))
  | .load _ _ _ (.v n) r _ => [(n.val, r)]
  | .atomic _ w _ _ (.v n) true _ _ _ _ => [(n.val, w / 4)]
  | .cas _ w _ _ (.v n) _ _ _ _ => [(n.val, w / 4)]
  | .waits _ _ (.v n) _ => [(n.val, 1)]
  | _ => []

/-- The registers a PROBE or a CSTAT still has to write (15 R217). -/
def Command.target (c : Command) : List (Nat × Nat) :=
  match c.dst with
  | .v n => if c.st = .done then [] else if c.op = 0x155 then [(n.val, 1)] else if c.op = 0x152 then [(n.val, 2)] else []
  | _ => []

/-- The hardware interlock within a clause (02 R42): a register of the word that an earlier word of the same clause still has to write, be it a lane
operation or a command. -/
def State.interlocked (s : State) (gk pos : Nat) (us : List Use) : Bool :=
  let lk := laneKey gk pos
  let entered := (s.lane lk).entered
  let meets (ts : List (Nat × Nat)) : Bool :=
    ts.any (fun t => us.any (fun u => match u.o with | .v n => overlaps t.1 t.2 n.val u.w | _ => false))
  (s.group gk).ops.any (fun o => o.lane == lk && entered ≤ o.id && meets o.kind.target)
    || s.cmds.any (fun c => c.2.group == gk && c.2.inh == (s.group gk).handler && c.2.lane == pos && entered ≤ c.1 && meets c.2.target)

/-- The counters a word's flag select names, with their amounts (02 R40). -/
def selCtrs (cl : Option Clause) (fsel : Nat) : List (Nat × Nat) :=
  match cl with
  | none => []
  | some c =>
    let a := if fsel.testBit 0 && c.seta < 12 then [(c.seta, 1)] else []
    let b := if fsel.testBit 1 && c.setb < 12 then [(c.setb, 1)] else []
    match a, b with
    | [(x, _)], [(y, _)] => if x = y then [(x, 2)] else [(x, 1), (y, 1)]
    | _, _ => a ++ b

/-- A counter of the lane would pass 15. -/
def counterFull (l : Lane) (fsel : Nat) : Bool := (selCtrs l.clause fsel).any (fun k => 15 < l.ctr k.1 + k.2)

/-- Whether the word names a calliope context that is loading: the copy of its own core, and for a load or a release, which change every copy, that of
any core of the team. XQRY never waits, and XSTR and XSTW name no context (12 R187 to R189). -/
def contextBusy (t : Team) (ci : Nat) (v : View) : Bool :=
  match v with
  | .x op _ f =>
    let loading (k : Nat) : Bool := (t.contexts.getD (k * 8 + f.xc.val) Context.empty).cond == 1
    op != 0xEB && op != 0xE8 && op != 0xE9 && (loading ci || ((op == 0xE0 || op == 0xE1) && (List.range t.cores.length).any loading))
  | _ => false

/-- Whether a load or a release names a context whose load is in flight for some core's copy: it waits for the completion, so that loads of one context
stand in the order of their issue (12 R188, R189). -/
def State.loadsContext (s : State) (tk : Nat) (v : View) : Bool :=
  match v with
  | .x op _ f =>
    (op == 0xE0 || op == 0xE1)
      && s.groups.any (fun g => teamOf g.1 == tk && g.2.ops.any (fun o => match o.kind with | .xtld _ c _ _ _ _ => c == f.xc.val | _ => false))
  | _ => false

/-- The engine class of a command word (15 Table 15.2): copy 0, gather 1, signal 2, matrix 3. -/
def commandClass (v : View) : Option Nat :=
  match v with
  | .e op _ f => if engineIssue op then some f.oclass.val else none
  | .s op _ _ => if op = 0x162 then some 3 else none
  | _ => none

/-- What the lanes of one class have been allotted so far in a survey: chute elements and slots, queue places, counter room, outbound places; and the
fences and WAITS among them. -/
structure Spend where
  need : Need
  places : Nat
  ctr : AList Nat
  msgs : Nat
  fences : List Fence
  waits : Bool
  deriving DecidableEq, Repr

def Spend.zero : Spend := ⟨Need.none, 0, [], 0, [], false⟩

/-- The fence that a word puts into force from a serial on (18 R271). -/
def fenceOf (v : View) (serial : Nat) : List Fence :=
  match v with
  | .s 0x180 _ f => [⟨f.imm.toNat % 4, serial, f.imm.toNat / 4⟩]
  | _ => []

/-- What a word takes from chutes: its operands, and the chute that CHRD pops or CHWR pushes. -/
def wordNeed (v : View) : Need :=
  let n := needOf v.uses
  match v with
  | .m op _ f =>
    (match f.d with
     | .q k => if op = 0x136 then n.addPop k.val else if op = 0x137 then n.addPush k.val else n
     | _ => n)
  | _ => n

/-- The operands that the PSWRs and PCTXs of a step read, lane by lane, each on the state that the words below it leave in the chutes (21 R298, R299). -/
def State.sysReads (s : State) (gk : Nat) (xs : List StepLane) : List SysRead :=
  if xs.any (fun x => bits x.word 8 0 == 0x1B2 || bits x.word 8 0 == 0x1B3) then
    (xs.foldl (fun (acc : List SysRead × State) x =>
      let lk := laneKey gk x.pos
      match decodeView x.word with
      | .ok v =>
        if !guardOn (acc.2.lane lk) v then acc
        else
          let s := acc.2.popUses lk v.uses
          (match v with
           | .s op _ f =>
             if op = 0x1B2 || op = 0x1B3 then
               let a := acc.2.readOp lk f.a (if op = 0x1B2 then 1 else 2)
               (acc.1 ++ [⟨x.pos, x.word, a.1, (a.2.readOp lk f.b 1).1⟩], s)
             else (acc.1, s)
           | _ => (acc.1, s))
      | .error _ => acc) ([], s)).1
  else []

/-- Commands standing in a core's queue (15 R211); a matrix stream is none of them, and those of a saved team travel in its image (R216). -/
def State.queued (s : State) (core : Nat) : Nat :=
  (s.cmds.filter (fun c => c.2.st != .done && !c.2.frozen && c.2.op != 0x162 && (s.group c.2.group).core == core)).length

/-- The stall reason of a group of a team that is halted (21 R283, R297): 3 for a page waiter, 2 for the group whose trap is taken, 1 for every other, for
the handler group when it is halted, and under a debug stop. -/
def State.haltCode (s : State) (gk : Nat) : Nat :=
  if ((s.team (teamOf gk)).residency matches .saved 3 _ _ _) && (s.team (teamOf gk)).stops.isEmpty then 3
  else if (s.team (teamOf gk)).record.any (fun r => r.group == indexOf gk && r.inhdl == (s.group gk).handler) && (s.team (teamOf gk)).stops.isEmpty
  then 2 else 1

/-- What a word reads at issue, which follows the same operations as a load of the lane (18 R260): the call entry of RET (06 R111), and the records of
LAUNCH and TASK (04 R82, R87). -/
def State.issueReads (s : State) (gk pos : Nat) (v : View) : Option (Nat × Nat) :=
  let lk := laneKey gk pos
  match v with
  | .b op _ _ => if op = 0x00A then some ((s.group gk).spillPhys (entryAt (s.team (teamOf gk)) ((s.lane lk).cd - 1) pos), 4) else none
  | .s op _ f =>
    if op = 0x1A5 || op = 0x1A7 then
      (match s.laneAccess gk (f.imm.toNat % 64) (toSigned 32 (s.readOp lk f.a 1).1) 0 64 with
       | .ok x => if x.drop then none else some (x.phys, 64)
       | .error _ => none)
    else none
  | _ => none

/-- The codes that keep a lane from its word whatever its neighbours do (07 R116, Table 7.4), and its word. -/
def State.laneCodes (s : State) (gk pos : Nat) : List Nat × Option View :=
  let g := s.group gk
  let tk := teamOf gk
  let lk := laneKey gk pos
  let l := s.lane lk
  let halted := if s.groupHalted gk then [s.haltCode gk] else []
  let blocked := match l.block with
    | .free => []
    | .rendezvous _ => if g.grant.isSome then [] else [5]
    | .barArrive .. => [4]
    | .barWait .. => [4]
    | .waitc .. => [8]
    | .op id => [if g.ops.any (fun o => o.id == id && o.kind matches .waits ..) then 11 else 10]
    | .children _ => [10]
    | .park since owed => if since + owed ≤ s.cycle && since < s.cycle then [] else [11]
    | .yield opps since => if opps < g.opps || since + 8 ≤ s.cycle then [] else [11]
  let grant := if g.grant.isSome then [9] else []
  let early := if s.cycle < l.readyAt then [10] else []
  -- a lane kept in place by an operation of its word waits for nothing else (18 R275)
  let kept : Bool := match l.block with | .op _ => true | .children _ => true | _ => false
  if kept then (halted ++ blocked ++ grant, none)
  else match l.clause with
  | none => (halted ++ blocked ++ grant ++ [10], none)
  | some c =>
    let wait := if l.pc.toNat = c.at_ && (List.range 12).any (fun k => c.waitMask.testBit k && l.ctr k != 0) then [8] else []
    let unit := if s.cycle < (s.core g.core).busy.getD (g.port * 16 + c.cls) 0 then [10] else []
    match l.nextWord with
    | none => (halted ++ blocked ++ grant ++ [10], none)
    | some w =>
      match decodeView w with
      | .error _ => (halted ++ blocked ++ wait ++ grant ++ early ++ unit, none)
      | .ok v =>
        let on := guardOn l v
        let full := if on && counterFull l v.fsel then [8] else []
        let held := if on && (g.fences.any (fun f => s.fenceHolds gk v f)
            || ((popsChute v || pushesChute v || v.opcode.any engineIssue) && g.ops.any (fun o => o.kind.isAccess && o.kind.acquires))) then [10] else []
        let entry := if on && (s.issueReads gk pos v).any (fun r => g.ops.any (fun o => holdsBack (s.servesOthers gk) o.kind (.load r.1 r.2 false .z 0 false)))
          then [10] else []
        let lock := if on && s.interlocked gk pos v.uses then [10] else []
        let ctx := if contextBusy (s.team tk) ((s.team tk).coreIndex g.core) v || s.loadsContext tk v then [10] else []
        (halted ++ blocked ++ wait ++ full ++ grant ++ early ++ unit ++ held ++ entry ++ lock ++ ctx, some v)

/-- What stands in the way of a word's need after the lower lanes of its class: codes 6, 7 and 10. RETH is held until its group's operations and
commands are done (21 R289). -/
def State.roomCodes (s : State) (gk : Nat) (v : View) (sp : Spend) : List Nat :=
  let t := s.team (teamOf gk)
  let g := s.group gk
  let chute := match s.lacks t (t.coreIndex g.core) v.uses sp.need (wordNeed v) with | some c => [c] | none => []
  let cmd := match commandClass v with
    | some k =>
      if (k < 3 && 512 ≤ s.queued g.core + sp.places) || 255 ≤ g.oc.getD k 0 + sp.ctr.getD k 0 then [10] else []
    | none => []
  let msg := match v with
    | .s op _ _ =>
      if (op = 0x1AA || op = 0x1AB) && 16 ≤ (s.core g.core).outbox.length + sp.msgs then [7]
      else if op = 0x1A8 && (s.core g.core).dqTasks.getLast?.any (fun r => !s.released r.group r.serial) then [6]
      else if op = 0x1A4 && g.handler && (!g.ops.isEmpty || s.cmds.any (fun c => c.2.group == gk && c.2.inh && c.2.st != .done)) then [10]
      else []
    | _ => []
  -- a fence of a lower lane of the step holds the word as one issued before it does; it also waits for the WAITS below it (18 R258, R271)
  let fence := if sp.fences.any (fun f => s.fenceHolds gk v f || (f.kind % 2 == 1 && sp.waits && v.opcode == some 0x189)) then [10] else []
  chute ++ cmd ++ msg ++ fence

/-- The allotment with a word's share added. -/
def Spend.take (sp : Spend) (v : View) (serial : Nat) : Spend :=
  { need := sp.need.plus (wordNeed v),
    places := sp.places + (match commandClass v with | some k => if k < 3 then 1 else 0 | none => 0),
    ctr := (match commandClass v with | some k => sp.ctr.put k (sp.ctr.getD k 0 + 1) | none => sp.ctr),
    msgs := sp.msgs + (match v with | .s op _ _ => if op = 0x1AA || op = 0x1AB then 1 else 0 | _ => 0),
    fences := sp.fences ++ fenceOf v serial,
    waits := sp.waits || v.opcode == some 0x189 }

/-- Every live lane of a group, in ascending order, with its class and its codes: an empty list means ready (07 R116, R117).
A lane that lacks what it needs takes no allotment, so a higher lane of its class may have what is left (DESIGN CHOICE, log 75). -/
def State.survey (s : State) (gk : Nat) : List (Nat × Nat × List Nat) :=
  ((s.liveLanes gk).foldl
    (fun (acc : AList Spend × List (Nat × Nat × List Nat)) pos =>
      let cls := match (s.lane (laneKey gk pos)).clause with | some c => c.cls | none => 14
      match s.laneCodes gk pos with
      | ([], some v) =>
        let sp := acc.1.getD cls Spend.zero
        if guardOn (s.lane (laneKey gk pos)) v then
          (match s.roomCodes gk v sp with
           | [] => (acc.1.put cls (sp.take v s.serial), (pos, cls, []) :: acc.2)
           | cs => (acc.1, (pos, cls, cs) :: acc.2))
        else (acc.1, (pos, cls, []) :: acc.2)
      | (cs, _) => (acc.1, (pos, cls, cs) :: acc.2))
    (([] : AList Spend), [])).2.reverse

/-- The stall reason of Table 7.4: the least code. -/
def stallReason (codes : List Nat) : Nat := codes.foldl (fun m c => if m = 0 || c < m then c else m) 0

/-- The stall reason that a lane reports: from the trigger cycle of a halt on that of the halt, and otherwise the least of its codes (07 R120, 21 R283). A
ready lane that is not taken reports 10. -/
def State.stallOf (s : State) (gk pos : Nat) : Nat :=
  let t := s.team (teamOf gk)
  let stepping := s.dbg.stepping == some gk && s.dbg.left != 0
  if (t.trigger.isSome || (s.group gk).halted || t.residency != .resident) && !stepping then s.haltCode gk
  else
    match (s.survey gk).find? (fun x => x.1 == pos) with
    | some (_, _, cs) => if cs.isEmpty then 10 else stallReason cs
    | none => 0

/-! ## One lane of an issue step -/

/-- The context of a lane of a step. -/
def ctxOf (st : IssueStep) (x : StepLane) : Ctx := { gk := st.group, pos := x.pos, at_ := x.pc, st := st }

/-- A word executes in a lane: the lane moves on (06 R107) unless the point holds it, and the point acts where the guard is true. -/
def laneStep (v : View) (p : Point) (st : IssueStep) (x : StepLane) (rest : List StepLane) (s : State) : State :=
  let c := { ctxOf st x with clause := (s.lane (ctxOf st x).lk).clause }
  let s := s.setTurn (.issue { st with todo := rest })
  let on := guardOn (s.lane c.lk) v
  let s := s.updLane c.lk (fun l => { l with block := .free })
  if p.hold && (on || p.always) then p.eff c (s.updLane c.lk (fun l => { l with pc := BitVec.ofNat 32 x.pc }))
  else if on || p.always then p.eff c (s.retire c.lk x.pc)
  else s.retire c.lk x.pc

/-- What an unchecked word of a step meets in its lane: a trap, a reason to wait, or nothing. -/
def laneCheck (v : View) (p : Point) (st : IssueStep) (x : StepLane) (s : State) : Except Trap Bool :=
  match viewTrap (ctxOf st x) v p s with
  | some tr => .error tr
  | none => .ok (!guardOn (s.lane (ctxOf st x).lk) v || (s.roomCodes st.group v Spend.zero).isEmpty)

/-- THE MEANING OF A LANE WORD: the word of the next lane of the issue step in progress. Where the step's checks have been made, it executes; where
not (a word placed by itself), the lane's own checks come first, its trap is taken, and a lane that is not ready drops out of the step. -/
def laneWord (v : View) (p : Point) (s : State) : Result :=
  match s.turn with
  | .issue st =>
    (match st.todo with
     | x :: rest =>
       if st.checked then .next (laneStep v p st x rest s)
       else
         (match laneCheck v p st x s with
          | .error tr => .next (takeTrap s st.group tr (1#32 <<< x.pos) (BitVec.ofNat 32 x.pc) false)
          | .ok true => .next (laneStep v p st x rest s)
          | .ok false => .next (s.setTurn (.issue { st with todo := rest, all := st.all.filter (fun y => y.pos != x.pos) })))
     | [] => .fault .noWordHere)
  | _ => .fault .noWordHere

/-- A lane leaves an effect for the end of its step. -/
def State.leave (s : State) (p : Pend) : State :=
  match s.turn with
  | .issue st => s.setTurn (.issue { st with pend := st.pend ++ [p] })
  | _ => s

/-! ## Long-latency operations -/

/-- Counters raised by a flag select, and one lowered (02 R40). -/
def Lane.raise (l : Lane) (ks : List (Nat × Nat)) : Lane := { l with c := ks.foldl (fun m k => m.put k.1 (m.getD k.1 0 + k.2)) l.c }
def Lane.lower (l : Lane) (k n : Nat) : Lane := { l with c := l.c.put k (l.ctr k - n) }

/-- A long-latency operation enters flight: its counters rise and fall again with it (02 R40). -/
def State.addOp (s : State) (c : Ctx) (fsel space off : Nat) (kind : OpKind) : State :=
  let sel := selCtrs c.clause fsel
  let ctrs := sel.map (fun k => (c.pos * 16 + k.1, k.2))
  let op : LaneOp := { id := s.serial, lane := c.lk, pc := c.at_, step := c.st.serial, space := space, off := off, kind := kind, ctrs := ctrs }
  let s := s.updLane c.lk (fun l => l.raise sel)
  (s.updGroup c.gk (fun g => { g with ops := g.ops ++ [op] })).bump

/-- An operation leaves flight: its counters fall, each in the lane that raised it (02 R40). -/
def State.dropOp (s : State) (gk : Nat) (o : LaneOp) : State :=
  let s := s.updGroup gk (fun g => { g with ops := g.ops.filter (fun x => x.id != o.id) })
  o.ctrs.foldl (fun s k => s.updLane (laneKey gk (k.1 / 16)) (fun l => l.lower (k.1 % 16) k.2)) s

/-- The operation in flight with an id. -/
def Group.op? (g : Group) (id : Nat) : Option LaneOp := g.ops.find? (fun o => o.id == id)

/-- Registers and flags written at completion; an exited lane receives them too (08 R137). -/
def State.landRegs (s : State) (lk : Nat) (writes : List (Nat × W32)) (flags : BitVec 9) : State :=
  s.updLane lk (fun l => (writes.foldl (fun l w => l.setReg w.1 w.2) l).orFlags flags)

/-- The register writes of a result of `w` registers to an operand. -/
def regWrites (o : Operand) (w x : Nat) : List (Nat × W32) :=
  match o with
  | .v n => (regsOf w x).zipIdx.map (fun p => (n.val + p.2, p.1))
  | _ => []

end Sys2Proof.Machine
end

