-- ==== Sys2Proof/Machine/Commands.lean ====
section
/-! DEFINITION. Engine commands (15 R211 to R218): their records and issue traps, the counters, their start, completion and faults, parking and
resuming, and the waits of WAITC. -/

namespace Sys2Proof.Machine

/-! ## Tables of the points (15 Table 15.2) -/

/-- Whether the list entries of a point are 8 bytes: GATH64, SCATA64, SUMPW. -/
def wideList (op : Nat) : Bool := op == 0x147 || op == 0x14A || op == 0x14C
def isSump (op : Nat) : Bool := op == 0x14B || op == 0x14C
def isGather (op : Nat) : Bool := op == 0x146 || op == 0x147
def isScatter (op : Nat) : Bool := op == 0x148 || op == 0x149 || op == 0x14A
def isAdding (op : Nat) : Bool := op == 0x149 || op == 0x14A
def isListed (op : Nat) : Bool := isGather op || isScatter op || isSump op
def isSignal (op : Nat) : Bool := op == 0x14D || op == 0x14E

/-- The table record of a listed point: D for scatters, S otherwise (15 section 15.4). -/
def Command.table (c : Command) : BitVec 256 := if isScatter c.op then c.sd else c.ss
/-- The tensor entry a CPYT captured at issue. -/
def Command.entry (c : Command) : Entry := c.sd.setWidth 128

/-- A number read as a signed 32-bit index (15 R217). -/
def idx32 (x : Nat) : Int := toSigned 32 x

/-- The columns of a listed point's rows; an entry of rows without a column is still read, by one element of its own (15 R222). -/
def Command.cols (c : Command) : Nat := max 1 (recDim0 c.table)

/-- The number of elements of a command: CPY2's and a listed point's rows by dim0, CPYT's source bytes and its conversion, SUMP's result row. -/
def Command.units (c : Command) : Nat :=
  match c.op with
  | 0x141 => recDim0 c.ss * recDim1 c.ss
  | 0x143 => ttRows c.entry * rowBytes c.entry + 1
  | 0x162 => 0
  | op =>
    if isSump op then c.cnt * c.cols + 1
    else if isListed op then c.cnt * c.cols
    else if op ≤ 0x145 then c.cnt
    else 1

/-- The fault ordinal of a unit: the list entry of a listed point, the unit itself otherwise (15 R219 to R224). -/
def Command.ordinal (c : Command) (u : Nat) : Nat :=
  if isListed c.op then (if isSump c.op && u = c.cnt * c.cols then c.cnt else u / c.cols) else u

/-! ## Destination ranges and the seal trap (15 R218) -/

/-- The ranges a command writes: space, base, length; main memory under its normal address. -/
def State.destRanges (s : State) (tk op : Nat) (sd : BitVec 256) (mask : Nat) (e : Entry) : List (Nat × Nat × Nat) :=
  let t := s.team tk
  match op with
  | 0x143 => (footprint e).map (fun r => (0, r.1, r.2))
  | 0x144 => ((List.range t.cores.length).filter (fun k => mask.testBit k)).map (fun k =>
      (0, k * t.unitsPer * 4096 + recBase sd, recExtent sd))
  | _ => [(recSpace sd, if recSpace sd = 3 then s.normVa (recBase sd) else recBase sd, recExtent sd)]

/-- Whether a point writes a destination record. -/
def writesDest (op : Nat) : Bool := op ≤ 0x14E

def Command.dest (c : Command) (s : State) : List (Nat × Nat × Nat) :=
  if writesDest c.op then s.destRanges (teamOf c.group) c.op c.sd c.d c.entry else []

/-! ## Issue traps (15 R218) -/

/-- The slots a point uses, in the order sd, ss, sx. -/
def slotsOf (r : ERow) (f : EF) : List Nat :=
  (if r.sd then [f.sd.val] else []) ++ (if r.ss then [f.ss.val] else []) ++ (if r.sx then [f.sx.val] else [])

/-- Whether a stride is a multiple of an element size. -/
def strideOk (x : Int) (sz : Nat) : Bool := x % (sz : Int) == 0

/-- An even register pair or z, as FILL of 8 bytes and more asks (15 R218). -/
def pairOrZ (o : Operand) : Bool := match o with | .v n => n.val % 2 == 0 | .z => true | .q _ => false

/-- Whether the operands of a command are admissible (15 R218, engine-operand). -/
def operandsOk (op : Nat) (t : Team) (d s x : BitVec 256) (f : EF) (dv aux : Nat) : Bool :=
  let same := recSize d == recSize s
  let rows := strideOk (recStride0 s) (recSize s) && strideOk (recStride0 d) (recSize d)
  let list := recSize x == (if wideList op then 8 else 4)
  match op with
  | 0x140 => same
  | 0x141 => same && rows && strideOk (recStride1 s) (recSize s) && strideOk (recStride1 d) (recSize d)
  | 0x142 => same && recSize x == 1 && aux % 2 == 0
  | 0x143 =>
    let id := recTtlink s
    let e := t.tt.getD id 0
    recSize s == 1 && id < 64 * t.kernel.acc && !ttRowMajor e && ttFmt e ≤ 11
  | 0x144 => same && recSpace d == 0 && dv != 0 && dv < 2 ^ t.cores.length
  | 0x145 => recSize d ≤ 4 || pairOrZ f.aux
  | 0x14D => recSpace d == 3 && recSize d == 8
  | 0x14E => recSpace d == 3 && recSize d == 8
  | 0x14F => recSpace d == 3 && recSize d == 8
  | 0x150 => recSpace x == 3 && recSize x == 64
  | 0x151 => recSpace x == 3 && recSize x == 64
  | 0x152 => recSpace x == 3 && recSize x == 64
  | 0x155 => true
  | _ =>
    rows && list && (isSump op || same) && (!isAdding op || recSize d == 4)
      && (!isSump op || (recSize s == 4 && recSize d == 4 && recSpace s == 3))

/-- The operands of a command word in operand order: d where it is a source, aux, cnt (07 R117). -/
def readCommand (op : Nat) (r : ERow) (f : EF) (lk : Nat) (s : State) : (Nat × Nat × Nat) × State :=
  let rd (sl : Slot) (o : Operand) (s : State) : Nat × State :=
    match sl with
    | .reg w .src _ _ => s.readOp lk o w
    | .lax .src => s.readOp lk o 1
    | _ => (0, s)
  let d := rd r.d f.d s
  let wide := op == 0x145 && 4 < recSize ((s.team (teamOf (lk / 32))).record_ f.sd.val)
  let aux := if wide then d.2.readOp lk f.aux 2 else rd r.aux f.aux d.2
  let cnt := rd r.cnt f.cnt aux.2
  ((d.1, aux.1, cnt.1), cnt.2)

/-- The issue traps of a command (15 R218), after those of 02 Table 2.29. -/
def commandTrap (op : Nat) (r : ERow) (f : EF) (c : Ctx) (s : State) : Option Trap :=
  let t := s.team c.tk
  match (slotsOf r f).find? (fun k => !recordOk (t.record_ k)) with
  | some k => some ⟨100, 10, k⟩
  | none =>
    let v := (readCommand op r f c.lk s).1
    let d := t.record_ f.sd.val
    let src := t.record_ f.ss.val
    if !operandsOk op t d src (t.record_ f.sx.val) f v.1 v.2.1 then some ⟨105, 26, 0⟩
    else if writesDest op then
      ((s.destRanges c.tk op d v.1 (t.tt.getD (recTtlink src) 0)).findSome? (fun x =>
        s.sealTrap c.gk x.1 x.2.1 x.2.2))
    else none

/-! ## Counters, completion and the waits of WAITC (15 R212, R229) -/

def Group.outstanding (g : Group) (cls : Nat) : Nat := g.oc.getD cls 0

/-- Whether a command is of the group that stands under a key: while a handler group runs there, of the handler's own (21 R287). -/
def State.owns (s : State) (gk : Nat) (c : Command) : Bool := c.group == gk && c.inh == (s.group gk).handler

/-- Two commands of one group. -/
def Command.sameGroup (a b : Command) : Bool := a.group == b.group && a.inh == b.inh

/-- Whether the group of a command stands in its team's trap frame, while a handler runs in its slot (21 R287). -/
def State.inFrame (s : State) (c : Command) : Bool := !c.inh && (s.group c.group).handler

/-- The group of a command changed, where it stands. -/
def State.updCmdGroup (s : State) (c : Command) (f : Group → Group) : State :=
  if s.inFrame c then
    s.updTeam (teamOf c.group) (fun t => { t with frame := t.frame.map (fun x => { x with group := f x.group }) })
  else s.updGroup c.group f

/-- The lane of a command changed, where its group stands. -/
def State.updCmdLane (s : State) (c : Command) (f : Lane → Lane) : State :=
  if s.inFrame c then
    s.updTeam (teamOf c.group) (fun t => { t with frame := t.frame.map (fun x =>
      { x with lanes := x.lanes.put c.lane (f (x.lanes.getD c.lane Lane.fresh)) }) })
  else s.updLane (laneKey c.group c.lane) f

/-- The oldest command needed by a WAITC of class `cls` that leaves `n`: those whose number is not among the n most recent (15 R212, R229). -/
def State.needed (s : State) (gk cls n : Nat) (pick : Command → Bool) : Option (Nat × Command) :=
  s.cmds.find? (fun c => s.owns gk c.2 && c.2.cls == cls && c.2.seq + n < (s.group gk).issued.getD cls 0 && pick c.2)

/-- The engine fault a WAITC reports, if any (15 R215, R229). -/
def State.waitFault (s : State) (gk cls n : Nat) : Option Trap :=
  match s.needed gk cls n (fun c => c.st == .done && c.fault.isSome && !c.reported) with
  | some (_, c) => c.fault.map (fun e => ⟨194, 27, c.faultDetail e⟩)
  | none => none

/-- A page-fault conversion (21 R290): the team becomes a page waiter, where no earlier trigger stands and no trap of it waits; a handler group's team like
any other (21 R289). A time-slice expiry of the same cycle is discarded (21 Table 21.5). -/
def State.convert (s : State) (gk page : Nat) : State :=
  let tk := teamOf gk
  let t := s.team tk
  if t.trapped || t.saveFor.any (fun x => x.1 != 1) || s.pastTrigger tk then s
  else ((s.updTeam tk (fun t => { t with saveFor := some (3, page) })).triggerTeam tk (s.group gk).core).haltGroup gk

/-- A lane waiting in WAITC looks again: it goes on when its class has come down, a fault it needs is reported, and a needed command that is parked
turns the team into a page waiter (15 R229, 21 R290). -/
def State.checkWait (s : State) (gk pos : Nat) : State :=
  let lk := laneKey gk pos
  match (s.lane lk).block with
  | .waitc cls n pc =>
    if s.groupHalted gk || (s.team (teamOf gk)).residency != .resident then s
    else if (s.group gk).outstanding cls ≤ n then
      (match s.waitFault gk cls n with
       | some tr => takeTrap s gk tr (1#32 <<< pos) (BitVec.ofNat 32 pc) false
       | none => (s.retire lk pc).updLane lk (fun l => { l with block := .free }))
    else
      (match s.needed gk cls n (fun c => c.st == .parked) with
       | some (_, c) => s.convert gk c.page
       | none => s)
  | _ => s

/-- The lanes of a group's last step that exited, and the address of the lowest one's EXIT (15 R215). -/
def State.lastExit (s : State) (gk : Nat) : List Nat × Nat :=
  let xs := (List.range 32).filterMap (fun p => ((s.lane (laneKey gk p)).exitAt).map (fun e => (p, e)))
  let last := xs.foldl (fun n x => max n x.2.1) 0
  let ys := xs.filter (fun x => x.2.1 == last)
  (ys.map (·.1), match ys with | y :: _ => y.2.2 | [] => 0)

/-- A fault that no WAITC needed, of a command that completed after the EXIT of its group's last live lane, is raised as that EXIT's (15 R215, 25
R317; log 59). -/
def State.checkExit (s : State) (gk : Nat) : State :=
  if (s.liveLanes gk).isEmpty && !(s.group gk).retired && !(s.group gk).handler && !s.groupHalted gk && (s.team (teamOf gk)).residency == .resident
      && (s.grid (s.team (teamOf gk)).grid).status == 0 then
    match s.unreported gk (fun _ => true) with
    | some (_, m) =>
      (match m.fault with
       | some e => takeTrap s gk ⟨195, 27, m.faultDetail e⟩ (maskOf (s.lastExit gk).1) (BitVec.ofNat 32 (s.lastExit gk).2) false
       | none => s)
    | none => s
  else s

/-- The waiting lanes of a group, lowest first, or its last EXIT (15 R215, R229). A trap taken here leaves the turn of the machine as it stands. -/
def State.checkWaits (s : State) (gk : Nat) : State :=
  (((s.liveLanes gk).foldl (fun s p => s.checkWait gk p) s).checkExit gk).setTurn s.turn

/-- Commands leave their class's count from the oldest on, as long as each has completed (15 R212). -/
def State.settle (s : State) (own : Command) : State :=
  let cls := own.cls
  let mine := s.cmds.filter (fun c => c.2.sameGroup own && c.2.cls == cls && c.2.counted)
  let gone := mine.takeWhile (fun c => c.2.st == .done)
  let s := gone.foldl (fun s c => s.updCmd c.1 (fun c => { c with counted := false })) s
  let s := s.updCmdGroup own (fun g => { g with oc := g.oc.put cls (g.outstanding cls - gone.length) })
  { s with cmds := s.cmds.filter (fun c => c.2.st != .done || c.2.counted || (c.2.fault.isSome && !c.2.reported)) }

/-- What a command noted of some of its elements: the skips and the flags. -/
def Command.pending (c : Command) (us : Nat → Bool) : Nat × Flags :=
  (c.pend.filter (fun p => us p.1)).foldl (fun a p => (a.1 + p.2.1, a.2 ||| p.2.2)) (0, 0)

/-- Skips added to the count of a command's group for its class: 32 bits, saturating (15 R214, R230). -/
def State.addSkips (s : State) (c : Command) (n : Nat) : State :=
  if n = 0 then s else s.updCmdGroup c (fun g => { g with skips := g.skips.put c.cls (min (g.skips.getD c.cls 0 + n) (2 ^ 32 - 1)) })

/-- What was noted of elements that have been performed counts: flags for the lane, skips in the group's count (15 R214, R230). A SUMP's skips are counted
with its result (R224). -/
def State.flushPend (s : State) (k : Nat) (us : Nat → Bool) : State :=
  match s.cmds.get? k with
  | none => s
  | some c =>
    let n := c.pending us
    let s := s.setCmd k { c with
      pend := c.pend.filter (fun p => !us p.1), flags := c.flags ||| n.2, skip := if isSump c.op then c.skip + n.1 else c.skip }
    if isSump c.op then s else s.addSkips c n.1

/-- A command completes: its noted flags reach its lane if that is live, a SUMP's skips its group, and its counter falls (15 R212, R214, R224). -/
def State.finish (s : State) (k : Nat) : State :=
  let s := s.flushPend k (fun _ => true)
  match s.cmds.get? k with
  | none => s
  | some c =>
    let s := s.setCmd k { c with st := .done, stage := [], buf := [], sent := [] }
    let s := s.updCmdLane c (fun l => if l.live then l.orFlags c.flags else l)
    let s := if isSump c.op then s.addSkips c c.skip else s
    let s := s.updCmdGroup c (fun g => { g with perf := g.perf.put 5 (g.perf.getD 5 0 + c.moved) })
    ((s.settle c).checkWaits c.group)

/-- A request answered, or given up: its place among the outstanding ones of its link is free. -/
def State.answered (s : State) (l part : Nat) : State :=
  s.setLink l { s.link l with outstanding := (s.link l).outstanding.put part ((s.link l).outstanding.getD part 0 - 1) }

/-- The requests of a command on their way to other parts are given up. -/
def State.giveUp (s : State) (c : Command) : State := c.sent.foldl (fun s x => s.answered x.2.1 x.2.2.2) s

/-- A command ends with nothing more done and no fault, as ECAN ends it: what it noted of elements not performed is dropped (15 R232). A SUMP performs
none before its result (R224). -/
def State.cancel (s : State) (k : Nat) : State :=
  match s.cmds.get? k with
  | some c =>
    ((s.giveUp c).updCmd k (fun c =>
      { c with fault := none, pend := [], flags := if isSump c.op then 0 else c.flags, skip := 0 })).finish k
  | none => s

/-! ## Issue (15 R211 to R213) -/

/-- A fault noted: the lowest ordinal stands. -/
def Command.noteFault (c : Command) (f : EngineFault) : Command :=
  match c.fault with
  | some g => if f.ord < g.ord then { c with fault := some f } else c
  | none => { c with fault := some f }

/-- The older command with which a new one of its class and group is parked (15 R215). -/
def State.parkedBefore (s : State) (gk : Nat) (x : Command) : Option Command :=
  if x.op = 0x162 then none
  else (s.cmds.find? (fun o => s.owns gk o.2 && o.2.cls == x.cls && o.2.st == .parked)).map (·.2)

/-- A command enters its core's queue, parked where an older one of its class and group is (15 R215); one with nothing to do completes at once. -/
def State.issueCommand (s : State) (c : Ctx) (x : Command) : State :=
  let g := s.group c.gk
  let k := s.serial
  let x := { x with group := c.gk, lane := c.pos, seq := g.issued.getD x.cls 0, pc := c.at_, epoch := g.epoch, inh := g.handler }
  let x := match s.parkedBefore c.gk x with
    | some o => { x with st := .parked, page := o.page }
    | none => x
  let s := s.setGroup c.gk { g with
    oc := g.oc.put x.cls (g.outstanding x.cls + 1), issued := g.issued.put x.cls (g.issued.getD x.cls 0 + 1),
    perf := g.perf.put 4 (g.perf.getD 4 0 + 1) }
  let s := (s.setCmd k x).bump
  if x.units = 0 && x.op != 0x162 then s.finish k else s

/-- A command with its fields at their start. -/
def Command.fresh (op cls : Nat) : Command :=
  { group := 0, lane := 0, cls := cls, seq := 0, op := op, word := 0, pc := 0, chan := 0, d := 0, aux := 0, cnt := 0, sd := 0, ss := 0, sx := 0,
    sdN := 0, ssN := 0, sxN := 0, dst := .z, epoch := 0, inh := false, st := .queued, performed := [], fault := none, reported := false, counted := true,
    flags := 0, skip := 0, pend := [], moved := 0, stage := [], buf := [], sent := [], page := 0, mapped := false, unserved := false, frozen := false }

/-- The record of a point, in the order sd, ss, sx, whose address in main memory has a reserved device or die number: its slot and its base. -/
def Team.reservedBase (t : Team) (r : ERow) (f : EF) : Option (Nat × Nat) :=
  ((slotsOf r f).find? (fun k => recSpace (t.record_ k) == 3 && vaReserved (recBase (t.record_ k)))).map (fun k => (k, recBase (t.record_ k)))

/-- Modes 1, 2 and 3 of a list record act as mode 4 (15 R222 step 1). -/
def Command.listRecord (c : Command) : BitVec 256 :=
  if 1 ≤ recBounds c.sx && recBounds c.sx ≤ 3 then c.sx &&& ~~~(7#256 <<< 120) ||| (4#256 <<< 120) else c.sx

/-- The flat index of element `col` of row `v` of a record. -/
def rowIndex (r : BitVec 256) (v : Int) (col : Nat) : Int := v * recStride0 r / (recSize r : Int) + col

/-- The elements that unit `u` of a command reaches as far as they are known at issue: the record, its slot, and the flat index. The rows that a list
names are not (log 24). -/
def Command.knownAt (c : Command) (u : Nat) : List (BitVec 256 × Nat × Int) :=
  let d := idx32 c.d
  let aux := idx32 c.aux
  match c.op with
  | 0x140 => [(c.ss, c.ssN, aux + u), (c.sd, c.sdN, d + u)]
  | 0x141 =>
    let at_ (r : BitVec 256) : Int := ((u % recDim0 c.ss : Nat) * recStride0 r + (u / recDim0 c.ss : Nat) * recStride1 r) / (recSize r : Int)
    [(c.ss, c.ssN, aux + at_ c.ss), (c.sd, c.sdN, d + at_ c.sd)]
  | 0x142 =>
    [(c.sx, c.sxN, (aux / 2 + u) / 2), (c.ss, c.ssN, aux + 2 * u), (c.ss, c.ssN, aux + 2 * u + 1)]
      ++ (List.range 4).map (fun (k : Nat) => (c.sd, c.sdN, d + 4 * u + k))
  | 0x143 =>
    if u < ttRows c.entry * rowBytes c.entry then
      [(c.ss, c.ssN, aux + (u / rowBytes c.entry : Nat) * recStride0 c.ss + (u % rowBytes c.entry : Nat))]
    else []
  | 0x144 => [(c.ss, c.ssN, aux + u)]
  | 0x145 => [(c.sd, c.sdN, d + u)]
  | 0x14D => [(c.sd, c.sdN, aux)]
  | 0x14E => [(c.sd, c.sdN, aux)]
  | 0x14F => [(c.sd, c.sdN, aux)]
  | 0x150 => [(c.sx, c.sxN, 0), (c.ss, c.ssN, d)]
  | op =>
    if isSump op && u = c.cnt * c.cols then (List.range (recDim0 c.ss)).map (fun col => (c.sd, c.sdN, rowIndex c.sd d col))
    else if isListed op then
      let e := u / c.cols
      let col := u % c.cols
      (c.listRecord, c.sxN, aux + e) :: (if recDim0 c.table = 0 then []
        else if isGather op then [(c.sd, c.sdN, rowIndex c.sd (d + e) col)]
        else if isScatter op then [(c.ss, c.ssN, rowIndex c.ss (d + e) col)]
        else [])
    else []

/-- The first of those elements, in the order of the units, that lies in main memory under a reserved device or die number: its slot, its address and
its ordinal. Only a range that begins or ends in reserved numbers has one. -/
def Command.reservedElement (c : Command) : Option (Nat × Nat × Nat) :=
  let ends (r : BitVec 256) : Bool := recSpace r == 3 && (vaReserved (recBase r) || vaReserved (recBase r + recExtent r - 1))
  if !ends c.sd && !ends c.ss && !ends c.sx then none
  else (List.range c.units).findSome? (fun u => (c.knownAt u).findSome? (fun x =>
    if recSpace x.1 = 3 then
      match boundsOf (recBounds x.1) (recExtent x.1) (recSize x.1) 0 (recSize x.1) x.2.2 with
      | .at_ j =>
        let a := ((recBase x.1 : Int) + j * recSize x.1).toNat
        if vaReserved a then some (x.2.1, a, c.ordinal u) else none
      | _ => none
    else none))

/-- What makes a command end at issue with fault 6 (14 R196): an element known at issue that has a reserved device or die number, named by its first byte
(15 Table 15.1), or, where none is known, a record whose base has one; its slot, its address and its ordinal (log 24). PROBE answers such an address with
its result (15 R231). -/
def Team.reservedFor (t : Team) (r : ERow) (f : EF) (x : Command) : Option (Nat × Nat × Nat) :=
  if x.op = 0x155 then none
  else match x.reservedElement with
    | some z => some z
    | none => (t.reservedBase r f).map (fun z => (z.1, z.2, 0))

/-- A command whose address has a reserved device or die number moves nothing and completes with fault 6 (14 R196; log 24). -/
def State.reservedIssue (s : State) (k : Nat) (c : Command) (z : Nat × Nat × Nat) : State :=
  if c.units = 0 then s
  else ((s.updCmd k (fun c => { c with st := .queued })).updCmd k
    (fun c => c.noteFault { addr := z.2.1, ord := z.2.2, code := 6, slot := z.1 })).finish k

/-- A command point at issue: its operands are read, its records captured, its addresses checked, and it enters the queue (14 R196, 15 R211, R217). PROBE
answers a reserved address with its result (R231). -/
def commandEff (op : Nat) (r : ERow) (f : EF) (c : Ctx) (s : State) : State :=
  let v := readCommand op r f c.lk s
  let t := v.2.team c.tk
  let src := t.record_ f.ss.val
  let x := { Command.fresh op f.oclass.val with
    word := f.pack op, chan := f.chan.val, d := v.1.1, aux := v.1.2.1, cnt := v.1.2.2,
    sd := (if op = 0x143 then (t.tt.getD (recTtlink src) 0).setWidth 256 else t.record_ f.sd.val),
    ss := src, sx := t.record_ f.sx.val, sdN := f.sd.val, ssN := f.ss.val, sxN := f.sx.val, dst := f.d }
  match t.reservedFor r f x with
  | none => v.2.issueCommand c x
  | some z => (v.2.issueCommand c x).reservedIssue v.2.serial x z

def commandPoint (op : Nat) (r : ERow) (f : EF) : Point := trapping (commandTrap op r f) (commandEff op r f)

/-! ## Starting (15 R211, R213, R215, R225, R233) -/

/-- Every command of the group issued before `k`, of every class, has completed. -/
def State.allBefore (s : State) (own : Command) (k : Nat) : Bool :=
  s.cmds.all (fun c => !c.2.sameGroup own || k ≤ c.1 || c.2.st == .done)

/-- Whether a command may start an element now. -/
def State.mayStart (s : State) (k : Nat) (c : Command) : Bool :=
  !c.frozen && !s.capturing (teamOf c.group) && (c.st == .queued || c.st == .performing)
    && s.released c.group k && s.pushesLanded c.group k
    && s.cmds.all (fun o => !o.2.sameGroup c || c.epoch ≤ o.2.epoch || o.2.st == .done)
    && (c.op ≥ 0x146 || c.st == .performing || s.cmds.all (fun o =>
          k ≤ o.1 || o.2.op ≥ 0x146 || o.2.chan != c.chan || o.2.st != .queued || (s.group o.2.group).core != (s.group c.group).core))

/-- Whether an element of a command may go on: it may start, or has started (21 R291). -/
def State.mayGo (s : State) (k : Nat) (c : Command) (u : Nat) : Bool :=
  s.mayStart k c || (!c.frozen && c.st != .done && ((c.stage.get? u).isSome || (c.sent.get? u).isSome))

/-- A command has begun. -/
def Command.begin_ (c : Command) : Command := { c with st := if c.st = .queued then CmdState.performing else c.st }

/-- The elements that start with element `u`: it and every lower one not yet started, for an engine starts them in ascending ordinal and performs them
in any order (21 R291). -/
def Command.starting (c : Command) (u : Nat) : List Nat :=
  (List.range (u + 1)).filter (fun v => !c.performed.contains v && (c.stage.get? v).isNone)

/-- Elements started: none of their accesses has been made yet. -/
def Command.start (c : Command) (us : List Nat) : Command := { c with stage := us.foldl (fun m u => m.put u 0) c.stage }

/-- The element requests a core's front has on their way: at most 4096 (15 R211). -/
def State.requestsOf (s : State) (core : Nat) : Nat :=
  s.cmds.foldl (fun n c =>
    if !c.2.frozen && (s.group c.2.group).core = core then
      n + c.2.stage.length + (c.2.sent.filter (fun x => (c.2.stage.get? x.1).isNone)).length
    else n) 0

/-- Whether the front has room for the elements that start with element `u`. -/
def State.frontRoom (s : State) (c : Command) (u : Nat) : Bool :=
  s.requestsOf (s.group c.group).core + (c.starting u).length ≤ 4096

/-! ## Faults and parking (15 R215) -/

/-- A command parked for a page; a SUMP starts over when it is sent again (15 R215, R224). -/
def Command.parkedOn (c : Command) (page : Nat) : Command :=
  let c := if isSump c.op then { c with performed := [], stage := [], buf := [], flags := 0, skip := 0, pend := [], fault := none } else c
  { c with st := .parked, page := page, mapped := false, unserved := false }

/-- A parked SUMP reads afresh when it is sent again (15 R224): what it has asked of other parts is given up. -/
def State.dropRequests (s : State) (k : Nat) (c : Command) : State :=
  if isSump c.op then (s.giveUp c).updCmd k (fun c => { c with sent := [] }) else s

/-- A command parks with every younger command of its class and group (15 R215). Waiting lanes look again. -/
def State.park (s : State) (k page : Nat) : State :=
  match s.cmds.get? k with
  | none => s
  | some c =>
    let those := s.cmds.filter (fun o => k ≤ o.1 && o.2.sameGroup c && o.2.cls == c.cls && o.2.st != .done)
    let s := those.foldl (fun s o => s.dropRequests o.1 o.2) s
    let s := s.updCmd k (fun c => c.parkedOn page)
    let s := { s with cmds := s.cmds.mapVals (fun j o =>
      if k < j && o.sameGroup c && o.cls == c.cls && o.op != 0x162 && (o.st == CmdState.queued || o.st == CmdState.performing) then
        o.parkedOn page else o) }
    s.checkWaits c.group

/-- Parked commands whose page is mapped or given up are sent again, in issue order, as long as no older one of their class still waits
(15 R215). -/
def State.resumeParked (s : State) (own : Command) : State :=
  let mine := s.cmds.filter (fun c => c.2.sameGroup own && c.2.cls == own.cls && c.2.st == .parked)
  let go := mine.takeWhile (fun c => c.2.mapped)
  go.foldl (fun s c => s.updCmd c.1 (fun o =>
    { o with st := if o.performed.isEmpty && o.stage.isEmpty then CmdState.queued else CmdState.performing })) s

/-- Whether a team is a saved page waiter for a page (21 R290). -/
def Team.awaits (t : Team) (page : Nat) : Bool :=
  match t.residency with
  | .saved why p _ _ => why == 3 && p == page
  | _ => false

/-- The pager maps a page or declares it unserviceable: parked commands of resident teams resume; those in an image are marked (15 R215). Where a page
waiter's page is unserviceable, each of its parked commands is (21 R290). -/
def State.pageDone (s : State) (page : Nat) (served : Bool) : State :=
  let hit (o : Command) : Bool := o.st == .parked && (o.page == page || (!served && o.frozen && (s.team (teamOf o.group)).awaits page))
  let those := (s.cmds.filter (fun c => hit c.2 && !c.2.frozen)).map (fun c => c.2)
  let s := { s with cmds := s.cmds.mapVals (fun _ o => if hit o then { o with mapped := true, unserved := !served } else o) }
  those.foldl (fun s c => s.resumeParked c) s

end Sys2Proof.Machine
end

