-- ==== Sys2Proof/Machine/Engine.lean ====
section
/-! DEFINITION. What engine commands do, one access at a time (15 R213 to R225, R231): copies, fills, multicasts, gathers, scatters, sumps, tensor
fills and probes; the events of the engine front; and the points that complete in their issue step. -/

namespace Sys2Proof.Machine

/-! ## The next access of an element -/

/-- What an element of a command does next: read an element of a record, keeping the bytes under a key; read a list entry; write; add to; or nothing
more. -/
inductive Act where
  | read (r : BitVec 256) (slot : Nat) (f : Int) (key : Nat)
  | list (f : Int) (e : Nat)
  | write (r : BitVec 256) (slot : Nat) (f : Int) (b : List Byte)
  /-- A multicast write into the share of a team core. -/
  | cast (f : Int) (core : Nat) (b : List Byte)
  | add (r : BitVec 256) (slot : Nat) (f : Int) (b : List Byte)
  | fail (code addr slot : Nat)
  | step
  | result
  | done
  deriving DecidableEq, Repr

/-- The bytes kept of access `key` of unit `u`; list entries are kept apart. -/
def Command.kept (c : Command) (u key : Nat) : Option (List Byte) := c.buf.get? (8 * u + key)
def listKey (e : Nat) : Nat := 2 ^ 64 + e
def Command.listEntry (c : Command) (e : Nat) : Option Nat := (c.buf.get? (listKey e)).map leNat

/-- What a list entry resolves to (15 R222 steps 2 and 3). -/
inductive Row_ where
  | row (v : Nat)
  | zero
  | skip
  | fault (v : Int)
  deriving DecidableEq, Repr

def rowOf (op : Nat) (t : BitVec 256) (raw : Nat) : Row_ :=
  let v := toSigned (if op = 0x147 || op = 0x14A then 64 else 32) raw
  let n := recDim1 t
  if 0 ≤ v ∧ v < n then .row v.toNat
  else
    match recBounds t with
    | 0 => .fault v
    | 2 => if n = 0 then .zero else .row (if v < 0 then 0 else n - 1)
    | 3 => if n = 0 then .zero else .row (v % (n : Int)).toNat
    | 4 => .skip
    | _ => .zero

/-- The virtual address of the element that an index names, as the record's bounds leave it (15 Table 15.1). -/
def elementAddr (r : BitVec 256) (f : Int) : Nat :=
  ofSigned 64 ((recBase r : Int) + (match boundsOf (recBounds r) (recExtent r) (recSize r) 0 (recSize r) f with | .at_ j => j | _ => f) * recSize r)

/-- The units of list entry `e`. -/
def Command.entryUnits (c : Command) (e : Nat) : List Nat := (List.range c.cols).map (fun col => e * c.cols + col)

/-- The value FILL writes to each element (15 R219). -/
def fillBytes (sz v : Nat) : List Byte :=
  if sz ≤ 8 then leBytes sz v else (List.replicate (sz / 8) (leBytes 8 v)).flatten

/-- CPYX: the metadata nibble of group `q` (15 R220). -/
def nibbleOf (aux : Int) (q : Nat) (b : List Byte) : Nat :=
  let g := aux / 2 + q
  (b.headD 0).toNat / 16 ^ (g % 2).toNat % 16

/-- A scatter writes an element only after the earlier list entries that name the same one (15 R223). -/
def Command.scatterTurn (c : Command) (e : Nat) (mine : Int) : Bool :=
  (List.range e).all (fun k => match c.listEntry k with
    | none => c.performed.contains (k * recDim0 c.sd)
    | some raw => (match rowOf c.op c.sd raw with
      | .row v => (List.range (recDim0 c.sd)).all (fun col =>
          boundsOf (recBounds c.sd) (recExtent c.sd) (recSize c.sd) 0 (recSize c.sd) (rowIndex c.sd v col)
              != boundsOf (recBounds c.sd) (recExtent c.sd) (recSize c.sd) 0 (recSize c.sd) mine
            || c.performed.contains (k * recDim0 c.sd + col))
      | _ => true))

/-- The next access of unit `u`, or none where it must wait. -/
def Command.next (c : Command) (cores u : Nat) : Option Act :=
  let k := c.stage.getD u 0
  let d := idx32 c.d
  let aux := idx32 c.aux
  let zeros := List.replicate (recSize c.sd) (0 : Byte)
  match c.op with
  | 0x140 => some (match k with
    | 0 => .read c.ss c.ssN (aux + u) 0
    | 1 => .write c.sd c.sdN (d + u) ((c.kept u 0).getD [])
    | _ => .done)
  | 0x141 =>
    let i : Int := u % recDim0 c.ss
    let j : Int := u / recDim0 c.ss
    let at_ (r : BitVec 256) : Int := (i * recStride0 r + j * recStride1 r) / (recSize r : Int)
    some (match k with
      | 0 => .read c.ss c.ssN (aux + at_ c.ss) 0
      | 1 => .write c.sd c.sdN (d + at_ c.sd) ((c.kept u 0).getD [])
      | _ => .done)
  | 0x142 => some (match k with
    | 0 => .read c.sx c.sxN ((aux / 2 + u) / 2) 0
    | 1 =>
      let n := nibbleOf aux u ((c.kept u 0).getD [])
      if n / 4 ≤ n % 4 then .fail 18 (elementAddr c.sx ((aux / 2 + u) / 2)) c.sxN else .read c.ss c.ssN (aux + 2 * u) 1
    | 2 => .read c.ss c.ssN (aux + 2 * u + 1) 2
    | k =>
      if 6 < k then .done
      else
        let n := nibbleOf aux u ((c.kept u 0).getD [])
        let src : Option (List Byte) := if k - 3 = n % 4 then c.kept u 1 else if k - 3 = n / 4 then c.kept u 2 else some zeros
        match src with
        | some b => .write c.sd c.sdN (d + 4 * u + (k - 3)) b
        | none => .step)
  | 0x143 =>
    if u = ttRows c.entry * rowBytes c.entry then
      (if c.performed.length = u then some .result else none)
    else
      some (match k with
        | 0 => .read c.ss c.ssN (aux + (u / rowBytes c.entry) * recStride0 c.ss + (u % rowBytes c.entry : Nat)) 0
        | _ => .done)
  | 0x144 => some (match k with
    | 0 => .read c.ss c.ssN (aux + u) 0
    | k =>
      if cores < k then .done
      else if c.d.testBit (k - 1) then .cast (aux + u) (k - 1) ((c.kept u 0).getD []) else .step)
  | 0x145 => some (match k with
    | 0 => .write c.sd c.sdN (d + u) (fillBytes (recSize c.sd) c.aux)
    | _ => .done)
  | 0x14F => some (.read c.sd c.sdN aux 0)
  | 0x155 => some .result
  | _ =>
    if isSump c.op && u = c.cnt * c.cols then (if c.performed.length = u then some .result else none)
    else
      let e := u / c.cols
      let col := u % c.cols
      match c.listEntry e with
      -- one element of an entry reads it from the list, for all of them
      | none => if (c.entryUnits e).find? (fun v => !c.performed.contains v) = some u then some (.list (aux + e) e) else none
      | some raw =>
        if recDim0 c.table = 0 then some .done
        else match rowOf c.op c.table raw with
        | .row v =>
          if isSump c.op then some (match k with
            | 0 => .read c.ss c.ssN (rowIndex c.ss v col) 0
            | _ => .done)
          else if isGather c.op then some (match k with
            | 0 => .read c.ss c.ssN (rowIndex c.ss v col) 0
            | 1 => .write c.sd c.sdN (rowIndex c.sd (d + e) col) ((c.kept u 0).getD [])
            | _ => .done)
          else
            (match k with
             | 0 => some (.read c.ss c.ssN (rowIndex c.ss (d + e) col) 0)
             | 1 =>
               let b := (c.kept u 0).getD []
               if c.scatterTurn e (rowIndex c.sd v col) then
                 some (if isAdding c.op then .add c.sd c.sdN (rowIndex c.sd v col) b else .write c.sd c.sdN (rowIndex c.sd v col) b)
               else none
             | _ => some .done)
        | .zero =>
          -- only a gather writes anything for a row out of range under mode 1
          some (match k with
            | 0 => .write c.sd c.sdN (rowIndex c.sd (d + e) col) (List.replicate (recSize c.ss) 0)
            | _ => .done)
        | _ => some .done

/-! ## Requests to other parts (14 R199, R209) -/

/-- The address of a record's element in main memory: the element is in range. -/
def mainAt (r : BitVec 256) (f : Int) : Option Nat :=
  if recSpace r ≠ 3 then none
  else
    match boundsOf (recBounds r) (recExtent r) (recSize r) 0 (recSize r) f with
    | .at_ j => some ((recBase r : Int) + j * recSize r).toNat
    | _ => none

/-- The address of a record's element where a request for it goes to another part, or has gone: no replica serves it (14 R204), and the part is in the
domain, or was when the request of element `u` left (14 R209). -/
def State.foreignAt (s : State) (c : Command) (u : Nat) (r : BitVec 256) (f : Int) (reads : Bool) : Option Nat :=
  match mainAt r f with
    | some a =>
      if vaReserved a || s.ownAddr a || !(s.present (vaDev a) || (c.sent.get? u).isSome) then none
      else if reads && (s.replicaFor ((s.group c.group).core / 64) (s.partitionOf (teamOf c.group)) (recPolicy r) a).isSome then none
      else some a
    | none => none

/-- A read asked of another part: the whole page where its answer is to make a replica (14 R204). -/
def State.askRead (s : State) (c : Command) (r : BitVec 256) (a : Nat) : Nat × OwnerAct :=
  match s.replicaPlace ((s.group c.group).core / 64) (s.partitionOf (teamOf c.group)) (recPolicy r) a with
  | some _ => (a / 65536 * 65536, .read 65536)
  | none => (a, .read (recSize r))

/-- The request that an act of element `u` makes of another part: the address and what it asks. -/
def State.farAct (s : State) (c : Command) (u : Nat) (a : Act) : Option (Nat × OwnerAct) :=
  match a with
  | .read r _ f _ => (s.foreignAt c u r f true).map (s.askRead c r)
  | .list f _ => (s.foreignAt c u c.listRecord f true).map (s.askRead c c.sx)
  | .write r _ f b => (s.foreignAt c u r f false).map (fun a => (a, .write b))
  | .add r _ f b => (s.foreignAt c u r f false).map (fun a => (a, .fadd (leNat b)))
  | .result => if c.op = 0x155 then (s.foreignAt c u c.ss (idx32 c.aux) false).map (fun a => (a, .probe)) else none
  | _ => none

/-- The codes that another part answers with: those raised at an owner (14 Table 14.5), and for a COLL also those of its descriptor (15 R227). -/
def ownerCode (op code : Nat) : Bool :=
  [1, 2, 3, 4, 5, 9, 10].contains code || (op == 0x150 && (code == 19 || code == 21))

/-- Where a request stands: it has just been sent, or it has been answered. -/
inductive Reply where
  | sent (s : State)
  | answered (a : Answer) (s : State)

/-- A request of element `u` of a command to another part (14 R209): it leaves on a link, if one is up; its answer comes back on that link, while it
runs; and after 1 ms without one it ends with fault 8 (14 Table 14.5). -/
def State.farStep (s : State) (k u : Nat) (c : Command) (va : Nat) (act : OwnerAct) (ans : Answer) (late : Bool) : Option Reply :=
  match c.sent.get? u with
  | none =>
    if late then none
    else
      (s.requestTo (vaDev va) va (s.partitionOf (teamOf c.group)) (coreSource (s.group c.group).core 5) act).map (fun x =>
        .sent (x.2.updCmd k (fun c => { c.begin_ with sent := c.sent.put u (x.1, s.cycle, vaDev va) })))
  | some (l, since, part) =>
    let back := (s.answered l part).updCmd k (fun c => { c with sent := c.sent.del u })
    if late then (if s.cycle < since + cyclesOf 1000000 then none else some (.answered (.fault 8) back))
    else if !(s.link l).running then none
    else
      match ans with
      | .data _ => some (.answered ans back)
      | .fault code => if ownerCode c.op code then some (.answered ans back) else none

/-! ## Performing an access -/

/-- Units marked performed, with what was noted of them; the command completes with its last one. -/
def State.performed_ (s : State) (k : Nat) (us : List Nat) : State :=
  match s.cmds.get? k with
  | none => s
  | some c =>
    let c := { c with
      performed := c.performed ++ us.filter (fun u => !c.performed.contains u),
      stage := c.stage.filter (fun p => !us.contains p.1), sent := c.sent.filter (fun p => !us.contains p.1),
      buf := if c.op = 0x143 || isSump c.op then c.buf else c.buf.filter (fun p => 2 ^ 64 ≤ p.1 || !us.contains (p.1 / 8)) }
    let s := (s.setCmd k c).flushPend k us.contains
    if c.performed.length = c.units then s.finish k else s

/-- What is noted of a unit's element, until it is performed. -/
def State.note (s : State) (k u : Nat) (skips : Nat) (f : Flags) : State :=
  s.updCmd k (fun c => { c with
    pend := c.pend.put u ((c.pend.getD u (0, 0)).1 + skips, (c.pend.getD u (0, 0)).2 ||| f) })

/-- A skip noted: 32 bits, saturating (15 R230). -/
def State.countSkip (s : State) (k u : Nat) : State := s.note k u 1 0

def State.noteFlags (s : State) (k u : Nat) (f : Flags) : State := s.note k u 0 f

/-- A fault 1 or 2 that the pager may still serve (15 R215). -/
def State.serviceable (s : State) (c : Command) (code addr : Nat) : Bool :=
  (code == 1 || code == 2) && !(c.unserved && c.page == s.pageOf addr)

/-- The next access of a unit has been made. -/
def State.advance (s : State) (k u : Nat) : State :=
  s.updCmd k (fun c => { c with stage := c.stage.put u (c.stage.getD u 0 + 1), sent := c.sent.del u })

/-- What an access of unit `u` comes to, given how an element that was not performed ends (`gone`) and one whose bytes were read goes on
(`got`). -/
def State.settleElem (s : State) (k u slot : Nat) (r : Elem) (zeros : List Byte) (got : List Byte → State → State) (gone : State → State) : State :=
  match s.cmds.get? k with
  | none => s
  | some c =>
    match r with
    | .bytes b => got b s
    | .dropped => got zeros (s.noteFlags k u flagOOB)
    | .skipped => gone (s.countSkip k u)
    | .fault code addr =>
      -- the element starts afresh when its command is sent again, with nothing noted of it yet
      if s.serviceable c code addr then (s.setCmd k { c with stage := c.stage.del u, pend := c.pend.del u }).park k (s.pageOf addr)
      else gone (s.setCmd k (c.noteFault { addr := addr, ord := c.ordinal u, code := code, slot := slot }))

/-- Bytes kept for a unit, which then goes on. -/
def State.keep (s : State) (k u key : Nat) (b : List Byte) : State :=
  (s.updCmd k (fun c => { c with buf := c.buf.put (8 * u + key) b })).advance k u

/-- Bytes of written elements counted. -/
def State.moved (s : State) (k n : Nat) : State := s.updCmd k (fun c => { c with moved := c.moved + n })

/-! ## Rows, results and conversions -/

/-- The owner of a row by device and die, or none where its bytes lie on two (15 R224). -/
def State.rowOwner (s : State) (r : BitVec 256) (v : Int) : Option Nat :=
  let a := s.normVa (ofSigned 64 ((recBase r : Int) + v * recStride0 r))
  let b := if recDim0 r = 0 then a else s.normVa (ofSigned 64 ((recBase r : Int) + v * recStride0 r + recDim0 r * recSize r - 1))
  if a / 2 ^ 50 = b / 2 ^ 50 then
    some ((if vaDev a = 0x7FF then s.device else vaDev a) * 8 + vaDie a)
  else none

/-- The sum of a partial row and another, with the flags noted (15 R224). -/
def addRows (a b : List Nat) : List Nat × Flags :=
  let xs := (a.zip b).map (fun p => f32.add 1 p.1 p.2)
  (xs.map (·.1), xs.foldl (fun fl x => fl ||| x.2) 0)

/-- The weighted row of SUMPW, the row itself for SUMP (15 R224). -/
def weigh (op raw : Nat) (row : List Nat) : List Nat × Flags :=
  if op = 0x14C then
    let xs := row.map (fun x => f32.mul 1 (raw / 2 ^ 32) x)
    (xs.map (·.1), xs.foldl (fun fl x => fl ||| x.2) 0)
  else (row, 0)

/-- The row that a list entry of a SUMP brings and its place: one in range as it was read, one out of range under mode 0 as +0 elements, each of which
faults (15 R224); none for one that is left out. -/
def Command.sumpEntry (c : Command) (e : Nat) : Option (Int × List Nat) :=
  let n := recDim0 c.ss
  match (c.listEntry e).map (rowOf c.op c.ss) with
  | some (.row v) => some (v, (List.range n).map (fun col => leNat ((c.kept (e * n + col) 0).getD [])))
  | some (.fault v) => some (v, List.replicate n 0)
  | _ => none

/-- The result row of a SUMP or SUMPW and its flags (15 R224). -/
def State.sumpRow (s : State) (c : Command) : List Nat × Flags :=
  let n := recDim0 c.ss
  let parts : AList (List Nat) × Flags := (List.range c.cnt).foldl (fun acc e =>
    match c.sumpEntry e with
    | some (v, row) =>
      (match s.rowOwner c.ss v with
       | some o =>
         let w := weigh c.op ((c.listEntry e).getD 0) row
         (match acc.1.get? o with
          | none => (acc.1.put o w.1, acc.2 ||| w.2)
          | some p => (acc.1.put o (addRows p w.1).1, acc.2 ||| w.2 ||| (addRows p w.1).2))
       | none => acc)
    | none => acc) ([], 0)
  match parts.1 with
  | [] => (List.replicate n 0, parts.2)
  | p :: ps => ps.foldl (fun acc q => ((addRows acc.1 q.2).1, acc.2 ||| (addRows acc.1 q.2).2)) (p.2, parts.2)

/-- The next act of a unit, a SUMP's result row written element by element (15 R224). -/
def State.actOf (s : State) (c : Command) (u : Nat) : Option Act :=
  match c.next (s.team (teamOf c.group)).cores.length u with
  | some .result =>
    if isSump c.op then
      let col := c.stage.getD u 0
      if col < recDim0 c.ss then some (.write c.sd c.sdN (rowIndex c.sd (idx32 c.d) col) (leBytes 4 ((s.sumpRow c).1.getD col 0)))
      else some .done
    else some .result
  | x => x

/-- CPYT's conversion: every byte of the footprint in the chamber is written, and one outside is fault 17 (17 R240). -/
def State.fillTensor (s : State) (k : Nat) (c : Command) : State :=
  let rb := rowBytes c.entry
  let out := convertRows c.entry (fun r => (List.range rb).map (fun b => ((c.kept (r * rb + b) 0).getD []).headD 0))
  let t := s.team (teamOf c.group)
  let s := out.1.foldl (fun s x =>
    if x.1 < t.chamberSize then
      ((s.setMem (s.mem.write (t.chamberPhys x.1) x.2.2)).watch c.group (t.chamberPhys x.1) 1 false true 1 0 (BitVec.ofNat 32 c.pc) 0).moved k 1
    else s.updCmd k (fun c => c.noteFault
      { addr := x.1, ord := min x.2.1 (ttRows c.entry - 1) * rb, code := 17, slot := c.ssN })) s
  (if out.2 then s.noteFlags k (ttRows c.entry * rb) flagFMT else s).performed_ k [ttRows c.entry * rb]

/-- PROBE's result (15 R231): the steps of R214 without any access. -/
def State.probe (s : State) (c : Command) (ans : Answer) : Nat × State :=
  let r := c.ss
  let f := idx32 c.aux
  match boundsOf (recBounds r) (recExtent r) (recSize r) 0 (recSize r) f with
  | .trap => (16, s)
  | .drop => (22, s)
  | .skip => (23, s)
  | .at_ j =>
    let a := ((recBase r : Int) + j * recSize r).toNat
    if recSpace r = 3 then
      if vaReserved a then (6, s)
      else if !s.ownAddr a then ((match ans with | .data _ => 0 | .fault n => n), s)
      else
        let t := s.translate (.die ((s.group c.group).core / 64)) (vaDie a) (s.partitionOf (teamOf c.group)) (vaOff a) false false
        ((match t.1 with | .ok _ => 0 | .error n => n), t.2)
    else
      match s.scratchPhys c.group (recSpace r) a (recSize r) with
      | none => (17, s)
      | some _ => (0, s)

/-! ## Signals (15 R225) -/

/-- An unsatisfied SWAIT tested against its signal at the owner: it completes when the signal, read unsigned, has reached its value. -/
def State.testSwait (s : State) (k a : Nat) : State :=
  match s.cmds.get? k with
  | none => s
  | some c =>
    if c.op = 0x14F && c.st = .performing && !c.frozen then
      match boundsOf (recBounds c.sd) (recExtent c.sd) 8 0 8 (idx32 c.aux) with
      | .at_ j =>
        let va := ((recBase c.sd : Int) + j * 8).toNat
        let t := s.translate (.die ((s.group c.group).core / 64)) (vaDie va) (s.partitionOf (teamOf c.group)) (vaOff va) false false
        if s.ownAddr va && t.1.toOption == some a then (if c.cnt ≤ leNat (t.2.mem.readBytes a 8) then t.2.finish k else t.2) else s
      | _ => s
    else s

/-- A SWAIT of another part tested against an updated signal: it is answered once its value is reached (15 R225). -/
def State.testFarWait (s : State) (a : Nat) (w : FarWait) : State :=
  let t := s.translate w.from_ w.die w.partition w.off false false
  if t.1.toOption ≠ some a then s
  else if w.value ≤ leNat (t.2.mem.readBytes a 8) then
    { t.2 with farWaits := t.2.farWaits.erase w }.answerTo w.from_ w.link [0]
  else t.2

/-- Every SWAIT on an updated signal is tested (15 R225). -/
def State.testSwaits (s : State) (a : Nat) : State :=
  s.farWaits.foldl (fun s w => s.testFarWait a w) ((s.cmds.map (·.1)).foldl (fun s k => s.testSwait k a) s)

/-- An update of a signal of this part, serialised at its owner, for a partition (15 R225); the fabric fault otherwise. -/
def State.signalAt (s : State) (req : Requester) (part va : Nat) (fn : Nat → Nat) : Option Nat × State :=
  let t := s.translate req (vaDie va) part (vaOff va) true true
  match t.1 with
  | .error n => (some n, t.2)
  | .ok a =>
    if t.2.sealedAt a 8 then (some 10, t.2.updHealth (vaDie va) (fun h => { h with sealRefused := satInc h.sealRefused }))
    else
      let s := t.2.setMem (t.2.mem.writeBytes a (leBytes 8 (fn (leNat (t.2.mem.readBytes a 8)))))
      (none, s.testSwaits a)

/-- The result of a command written to its destination (15 R217). -/
def State.landCmd (s : State) (c : Command) (w x : Nat) : State :=
  s.updCmdLane c (fun l => (regWrites c.dst w x).foldl (fun l r => l.setReg r.1 r.2) l)

/-! ## One access of an engine command -/

/-- Whether an element of a gather belongs to a row out of range that reads as +0 (15 R222 step 3). -/
def Command.zeroRow (c : Command) (u : Nat) : Bool :=
  isGather c.op && (match (c.listEntry (u / c.cols)).map (rowOf c.op c.table) with | some .zero => true | _ => false)

/-- An access of a unit performed, with the answer of another part where it goes to one. -/
def State.engineAct (s : State) (k u : Nat) (c : Command) (a : Act) (ans : Answer) : State :=
  let out := s.performed_ k [u]
  match a with
  | .done => out
  | .step => s.advance k u
  | .fail code addr slot => (s.setCmd k (c.noteFault { addr := addr, ord := c.ordinal u, code := code, slot := slot })).performed_ k [u]
  | .result =>
    if c.op = 0x155 then
      let p := s.probe c ans
      (p.2.landCmd c 1 p.1).finish k
    else s.fillTensor k c
  | .list f e =>
    let r := s.engineElem c.group c.pc c.listRecord f none ans
    r.2.settleElem k u c.sxN r.1 []
      (fun b s =>
        let s := s.updCmd k (fun c => { c with buf := c.buf.put (listKey e) b, sent := c.sent.del u })
        match rowOf c.op c.table (leNat b) with
        | .row v =>
          if isSump c.op && (s.rowOwner c.ss v).isNone then
            (s.updCmd k (fun c => c.noteFault
              { addr := ofSigned 64 ((recBase c.ss : Int) + v * recStride0 c.ss), ord := e, code := 20, slot := c.ssN })).performed_ k (c.entryUnits e)
          else s
        | .zero =>
          -- a gather notes OOB with each element of the row that it writes
          if isGather c.op && recDim0 c.table ≠ 0 then s else (s.noteFlags k u flagOOB).performed_ k (c.entryUnits e)
        | .skip => (s.countSkip k u).performed_ k (c.entryUnits e)
        | .fault v => (s.updCmd k (fun c => c.noteFault
            { addr := ofSigned 64 ((recBase c.table : Int) + v * recStride0 c.table), ord := e, code := 16,
              slot := if isScatter c.op then c.sdN else c.ssN })).performed_ k (c.entryUnits e))
      (fun s => s.performed_ k (c.entryUnits e))
  | .read r slot f key =>
    let x := s.engineElem c.group c.pc r f none ans
    x.2.settleElem k u slot x.1 (List.replicate (recSize r) 0)
      (fun b s =>
        let s := s.keep k u key b
        if isSump c.op || c.op = 0x143 then s.performed_ k [u] else s)
      (fun s =>
        if isSump c.op then
          -- a faulting element contributes +0; for one skipped the spec states no value
          (match x.1 with
           | .skipped => ({ s with freeN := s.freeN + 1 }.keep k u key (leBytes 4 (Config.freeValue s.freeN).toNat)).performed_ k [u]
           | _ => (s.keep k u key [0, 0, 0, 0]).performed_ k [u])
        -- a group of which an element was skipped goes on without it; one of which an element faulted is not performed (15 R215)
        else if c.op = 0x142 && 1 ≤ key && x.1 = .skipped then s.advance k u
        else s.performed_ k [u])
  | .write r slot f b =>
    let x := s.engineElem c.group c.pc r f (some b) ans
    (if c.zeroRow u then x.2.noteFlags k u flagOOB else x.2).settleElem k u slot x.1 []
      (fun _ s => (s.moved k (if x.1 = .dropped then 0 else b.length)).advance k u) (fun s => s.advance k u)
  | .cast f core b =>
    let t := s.team (teamOf c.group)
    let sz := recSize c.sd
    let x : Elem × State :=
      match boundsOf (recBounds c.sd) (recExtent c.sd) sz 0 sz f with
      | .trap => (.fault 16 (ofSigned 64 (((core * t.unitsPer * 4096 + recBase c.sd : Nat) : Int) + f * sz)), s)
      | .drop => (.dropped, s)
      | .skip => (.skipped, s)
      | .at_ j =>
        let o := core * t.unitsPer * 4096 + ((recBase c.sd : Int) + j * sz).toNat
        if core * t.unitsPer * 4096 ≤ o && o + sz ≤ (core + 1) * t.unitsPer * 4096 && o + sz ≤ t.chamberSize then
          (.bytes [], (s.setMem (s.mem.writeBytes (t.chamberPhys o) b)).watch c.group (t.chamberPhys o) sz false true 1 0 (BitVec.ofNat 32 c.pc) 0)
        else (.fault 17 o, s)
    x.2.settleElem k u c.sdN x.1 []
      (fun _ s => (s.moved k (if x.1 = .dropped then 0 else sz)).advance k u) (fun s => s.advance k u)
  | .add r slot f b =>
    let old := s.engineElem c.group c.pc r f none ans
    match old.1 with
    | .bytes o =>
      let v := f32.add 1 (leNat o) (leNat b)
      -- another part has added at the element's host, and answered what the element held (15 R223)
      let x := if (s.foreignAt c u r f false).isSome then (.bytes [], old.2) else s.engineElem c.group c.pc r f (some (leBytes 4 v.1)) ans
      x.2.settleElem k u slot x.1 []
        (fun _ s => (((s.noteFlags k u v.2).moved k 4).advance k u)) (fun s => s.advance k u)
    | _ => old.2.settleElem k u slot old.1 [] (fun _ s => s.advance k u) (fun s => s.advance k u)

/-- A unit out of accesses is performed; with a SUMP's result go the flags of its rows (15 R224). -/
def State.closeUnit (s : State) (k u : Nat) : State :=
  match s.cmds.get? k with
  | some c =>
    (match s.actOf c u with
     | some .done =>
       if c.st = .done || c.performed.contains u then s
       else if isSump c.op && u = c.cnt * c.cols then (s.noteFlags k u (s.sumpRow c).2).performed_ k [u]
       else s.performed_ k [u]
     | _ => s)
  | none => s

/-- Whether no started element of a command is left but those that wait for others (21 R291). -/
def State.startedDone (s : State) (c : Command) : Bool :=
  c.sent.isEmpty && c.stage.all (fun p => (s.actOf c p.1).isNone)

/-! ## The meanings: events -/

/-- The address in main memory that an act reaches, and whether it is read there. -/
def Command.placeOf (c : Command) (a : Act) : Option (Nat × Bool) :=
  match a with
  | .read r _ f _ => (mainAt r f).map (fun a => (a, true))
  | .list f _ => (mainAt c.listRecord f).map (fun a => (a, true))
  | .add r _ f _ => (mainAt r f).map (fun a => (a, true))
  | .write r _ f _ => (mainAt r f).map (fun a => (a, false))
  | .result => if c.op = 0x155 then (mainAt c.ss (idx32 c.aux)).map (fun a => (a, false)) else none
  | _ => none

/-- What an access that is no request hears: a part that is absent gives fault 7 without a request (14 R209), and a read of CXL memory or of the host
window may return poisoned data (14 Table 14.5, fault 9). -/
def State.ownAnswer (s : State) (c : Command) (a : Act) (ans : Answer) : Answer :=
  match c.placeOf a with
  | none => .data []
  | some (va, reads) =>
    if !vaReserved va && !s.ownAddr va then (if s.present (vaDev va) then .data [] else .fault 7)
    else match ans with
      | .fault 9 => if reads && vaDie va == 4 && s.ownAddr va then ans else .data []
      | _ => .data []

/-- The same where the part's own memory answers with an uncorrectable error (25 R327). -/
def State.heard (s : State) (ecc : Bool) (c : Command) (a : Act) (ans : Answer) : Answer :=
  match ecc, s.ownAnswer c a ans with
  | _, .fault 7 => .fault 7
  | true, _ => .fault 9
  | false, x => x

/-- One access of element `u` of a command, with the elements below it started (21 R291). `ecc` says that the part's own memory answers with an
uncorrectable error (25 R327). -/
def State.engineGo (s : State) (k u : Nat) (ans : Answer) (late ecc : Bool) : Option State :=
  match s.cmds.get? k with
  | none => none
  | some c =>
    if c.units ≤ u || c.performed.contains u || isSignal c.op || c.op = 0x14F || (0x150 ≤ c.op && c.op ≤ 0x152) || !s.mayGo k c u || !s.frontRoom c u
    then none
    else
      match s.actOf c u with
      | none => none
      | some a =>
        let starting := c.starting u
        let c := c.begin_.start starting
        let s := s.setCmd k c
        match s.farAct c u a with
        | some (va, act) =>
          (s.farStep k u c va act ans late).map (fun r => match r with
            | .sent s => s
            | .answered ans s => (s.engineAct k u c a ans).closeUnit k u)
        | none =>
          if late then none else some ((s.engineAct k u c a (s.heard ecc c a ans)).closeUnit k u)

/-- A command that ends here with a fault. -/
def State.failCmd (s : State) (k code addr slot : Nat) : State :=
  (s.updCmd k (fun c => c.noteFault { addr := addr, ord := 0, code := code, slot := slot })).finish k

/-- A fault of a command of one element: the command parks where the pager may still serve it (15 R215). -/
def State.faultCmd (s : State) (k : Nat) (c : Command) (code addr slot : Nat) : State :=
  if s.serviceable c code addr then s.park k (s.pageOf addr) else s.failCmd k code addr slot

/-- SWAIT arriving at its signal: bounds modes 1 and 4 end it, a fault ends it or parks it, and it completes where the signal has reached its
value; one at another part's signal is answered from there (15 R225). -/
def State.swaitArrive (s : State) (k : Nat) (c : Command) (ans : Answer) : Option State :=
  if !s.mayGo k c 0 then none
  else
    match s.foreignAt c 0 c.sd (idx32 c.aux) false with
    | some va =>
      (s.farStep k 0 c va (.wait c.cnt) ans false).map (fun r => match r with
        | .sent s => s
        | .answered (.data _) s => s.finish k
        | .answered (.fault code) s => s.faultCmd k c code va c.sdN)
    | none =>
      let s := s.updCmd k (fun c => c.begin_)
      let x := s.engineElem c.group c.pc c.sd (idx32 c.aux) none (s.ownAnswer c (.read c.sd c.sdN (idx32 c.aux) 0) ans)
      some (match x.1 with
        | .bytes b => if c.cnt ≤ leNat b then x.2.finish k else x.2
        | .dropped => (x.2.noteFlags k 0 flagOOB).finish k
        | .skipped => (x.2.countSkip k 0).finish k
        | .fault code addr => x.2.faultCmd k c code addr c.sdN)

/-- The next access of one element of a command, or a SWAIT at its signal (15 R213, R214, R225). -/
def State.elementGo (s : State) (cmd ord : Nat) (a : Answer) : Option State :=
  match s.cmds.get? cmd with
  | some c => if c.op = 0x14F then (if ord = 0 then s.swaitArrive cmd c a else none) else s.engineGo cmd ord a false false
  | none => none

/-- A SIG at the owner of its signal, after every earlier command and store of its group (15 R225), or its request to another part. One that its bounds
drop or skip, or whose address nothing answers, does nothing and ends at once. -/
def State.signalGo (s : State) (cmd : Nat) (a : Answer) (late ecc : Bool) : Option State :=
  match s.cmds.get? cmd with
  | none => none
  | some c =>
    if !isSignal c.op || !s.mayGo cmd c 0 || (late && (c.sent.get? 0).isNone) then none
    else
      match boundsOf (recBounds c.sd) (recExtent c.sd) 8 0 8 (idx32 c.aux) with
      | .trap => some (s.failCmd cmd 16 (ofSigned 64 ((recBase c.sd : Int) + idx32 c.aux * 8)) c.sdN)
      | .drop => some ((s.noteFlags cmd 0 flagOOB).finish cmd)
      | .skip => some ((s.countSkip cmd 0).finish cmd)
      | .at_ j =>
        let va := ((recBase c.sd : Int) + j * 8).toNat
        if vaReserved va then some (s.failCmd cmd 6 va c.sdN)
        else if !s.ownAddr va && !s.present (vaDev va) && (c.sent.get? 0).isNone then some (s.failCmd cmd 7 va c.sdN)
        else if !s.allBefore c cmd then none
        else if s.ownAddr va then
          if late then none
          else
            let poisoned := match a with | .fault 9 => vaDie va == 4 | _ => false
            let t := s.translate (.die ((s.group c.group).core / 64)) (vaDie va) (s.partitionOf (teamOf c.group)) (vaOff va) true false
            match t.1 with
            | .error code => some (t.2.faultCmd cmd c code va c.sdN)
            | .ok _ =>
              if ecc || poisoned then some (t.2.faultCmd cmd c 9 va c.sdN)
              else
                let r := s.signalAt (.die ((s.group c.group).core / 64)) (s.partitionOf (teamOf c.group)) va
                  (fun x => if c.op = 0x14D then (x + c.cnt) % 2 ^ 64 else c.cnt)
                some (match r.1 with
                  | none => (r.2.moved cmd 8).finish cmd
                  | some code => r.2.faultCmd cmd c code va c.sdN)
        else
          (s.farStep cmd 0 c va (if c.op = 0x14D then .add c.cnt else .set c.cnt) a late).map (fun r => match r with
            | .sent s => s
            | .answered (.data _) s => (s.moved cmd 8).finish cmd
            | .answered (.fault code) s => s.faultCmd cmd c code va c.sdN)

/-- SIGNAL_UPDATE: a SIG is performed at the owner of its signal (15 R225). -/
def execSignalUpdate (cmd : Nat) (a : Answer) (s : State) : Result := s.happens (s.signalGo cmd a false false)

/-! ## The points that complete in their issue step (15 R229, R230, R232, R233) -/

/-- Commands of a class that the lanes below one of a step issue. -/
def issuingBelow (cls : Nat) (c : Ctx) (s : State) : Nat :=
  (c.st.all.filter (fun x => x.pos < c.pos && (match viewOf x.word with
    | some v => commandClass v == some cls && guardOn (s.lane (laneKey c.gk x.pos)) v
    | none => false))).length

/-- WAITC reports a fault that stands when its wait is over at once (15 R229). -/
def waitcTrap (f : EF) (c : Ctx) (s : State) : Option Trap :=
  if (s.group c.gk).outstanding f.oclass.val + issuingBelow f.oclass.val c s ≤ f.cnt.code then s.waitFault c.gk f.oclass.val f.cnt.code else none

/-- WAITC: the lane waits until its class counter has come down (15 R229). -/
def waitcEff (f : EF) (c : Ctx) (s : State) : State :=
  (s.updLane c.lk (fun l => { l with block := .waitc f.oclass.val f.cnt.code c.at_ })).checkWait c.gk c.pos

/-- RDC: the counter or the skip count as held at the start of the step; sel 2 then clears it (15 R230). -/
def rdcEff (f : EF) (c : Ctx) (s : State) : State :=
  let k := f.oclass.val
  let x := if f.cnt.code = 0 then c.st.oc0.getD k 0 else c.st.skips0.getD k 0
  let s := s.writeOp c.lk f.d 1 x
  if f.cnt.code = 2 then s.updGroup c.gk (fun g => { g with skips := g.skips.put k 0 }) else s

/-- Whether a lower lane of the step executes ECAN. -/
def ecanBelow (c : Ctx) (s : State) : Bool :=
  c.st.all.any (fun x => x.pos < c.pos && bits x.word 8 0 == 0x156
    && (s.lane (laneKey c.gk x.pos)).guard (EF.ofWord x.word).g)

/-- The key under which a COLL keeps the descriptor it has found. -/
def descKey : Nat := 2 ^ 65
def Command.descriptor (c : Command) : Option (List Byte) := c.buf.get? descKey

/-- Whether a request that changes something at another part is on its way: a write, an addition, a SIG, a CCAN, or a COLL's contribution. -/
def State.changesFar (s : State) (c : Command) : Bool :=
  c.sent.any (fun x => match c.op with
    | 0x14D => true
    | 0x14E => true
    | 0x14F => false
    | 0x150 => x.1 == 0 && c.descriptor.isSome
    | 0x151 => true
    | 0x152 => false
    | _ => match s.actOf c x.1 with
      | some (.write ..) => true
      | some (.add ..) => true
      | _ => false)

/-- Whether ECAN ends a command: it has performed no element and made no part of one, or it is parked (15 R232). A SUMP performs none before its result,
and a matrix stream is not a command of this kind. -/
def State.endable (s : State) (c : Command) : Bool :=
  c.st != .done && c.op != 0x162
    && (c.st == .parked || ((c.performed.isEmpty || isSump c.op) && c.moved == 0 && !s.changesFar c))

/-- ECAN over one class of a group: the commands ended, counted (15 R232). -/
def State.cancelClass (s : State) (gk cls : Nat) : Nat × State :=
  let ks := (s.cmds.filter (fun c => s.owns gk c.2 && c.2.cls == cls && s.endable c.2)).map (·.1)
  (ks.length, ks.foldl (fun s k => s.cancel k) s)

/-- ECAN: the commands ended are counted by the lowest lane of the step (15 R232). -/
def ecanEff (f : EF) (c : Ctx) (s : State) : State :=
  let r := s.cancelClass c.gk f.oclass.val
  r.2.writeOp c.lk f.d 1 (if ecanBelow c s then 0 else r.1)

/-- FENCEE: later commands of the group start after every earlier one has completed (15 R233). -/
def fenceeEff (c : Ctx) (s : State) : State := s.updGroup c.gk (fun g => { g with epoch := g.epoch + 1 })

/-! ## The meanings: points -/

/-- CPY: a command enters the queue (15 R211 to R225). -/
def execCpy (f : EF) (s : State) : Result := laneWord (.e 0x140 Rows.cpy f) (commandPoint 0x140 Rows.cpy f) s

/-- CPY2: a command enters the queue (15 R211 to R225). -/
def execCpy2 (f : EF) (s : State) : Result := laneWord (.e 0x141 Rows.cpy2 f) (commandPoint 0x141 Rows.cpy2 f) s

/-- CPYX: a command enters the queue (15 R211 to R225). -/
def execCpyx (f : EF) (s : State) : Result := laneWord (.e 0x142 Rows.cpyx f) (commandPoint 0x142 Rows.cpyx f) s

/-- CPYT: a command enters the queue (15 R211 to R225). -/
def execCpyt (f : EF) (s : State) : Result := laneWord (.e 0x143 Rows.cpyt f) (commandPoint 0x143 Rows.cpyt f) s

/-- MCAST: a command enters the queue (15 R211 to R225). -/
def execMcast (f : EF) (s : State) : Result := laneWord (.e 0x144 Rows.mcast f) (commandPoint 0x144 Rows.mcast f) s

/-- FILL: a command enters the queue (15 R211 to R225). -/
def execFill (f : EF) (s : State) : Result := laneWord (.e 0x145 Rows.fill f) (commandPoint 0x145 Rows.fill f) s

/-- GATH: a command enters the queue (15 R211 to R225). -/
def execGath (f : EF) (s : State) : Result := laneWord (.e 0x146 Rows.gath f) (commandPoint 0x146 Rows.gath f) s

/-- GATH64: a command enters the queue (15 R211 to R225). -/
def execGath64 (f : EF) (s : State) : Result := laneWord (.e 0x147 Rows.gath64 f) (commandPoint 0x147 Rows.gath64 f) s

/-- SCAT: a command enters the queue (15 R211 to R225). -/
def execScat (f : EF) (s : State) : Result := laneWord (.e 0x148 Rows.scat f) (commandPoint 0x148 Rows.scat f) s

/-- SCATA: a command enters the queue (15 R211 to R225). -/
def execScata (f : EF) (s : State) : Result := laneWord (.e 0x149 Rows.scata f) (commandPoint 0x149 Rows.scata f) s

/-- SCATA64: a command enters the queue (15 R211 to R225). -/
def execScata64 (f : EF) (s : State) : Result := laneWord (.e 0x14A Rows.scata64 f) (commandPoint 0x14A Rows.scata64 f) s

/-- SUMP: a command enters the queue (15 R211 to R225). -/
def execSump (f : EF) (s : State) : Result := laneWord (.e 0x14B Rows.sump f) (commandPoint 0x14B Rows.sump f) s

/-- SUMPW: a command enters the queue (15 R211 to R225). -/
def execSumpw (f : EF) (s : State) : Result := laneWord (.e 0x14C Rows.sumpw f) (commandPoint 0x14C Rows.sumpw f) s

/-- SIG_ADD: a command enters the queue (15 R211 to R225). -/
def execSigAdd (f : EF) (s : State) : Result := laneWord (.e 0x14D Rows.sigAdd f) (commandPoint 0x14D Rows.sigAdd f) s

/-- SIG_SET: a command enters the queue (15 R211 to R225). -/
def execSigSet (f : EF) (s : State) : Result := laneWord (.e 0x14E Rows.sigSet f) (commandPoint 0x14E Rows.sigSet f) s

/-- SWAIT: a command enters the queue (15 R211 to R225). -/
def execSwait (f : EF) (s : State) : Result := laneWord (.e 0x14F Rows.swait f) (commandPoint 0x14F Rows.swait f) s

/-- COLL: a command enters the queue (15 R211 to R225). -/
def execColl (f : EF) (s : State) : Result := laneWord (.e 0x150 Rows.coll f) (commandPoint 0x150 Rows.coll f) s

/-- CCAN: a command enters the queue (15 R211 to R225). -/
def execCcan (f : EF) (s : State) : Result := laneWord (.e 0x151 Rows.ccan f) (commandPoint 0x151 Rows.ccan f) s

/-- CSTAT: a command enters the queue (15 R211 to R225). -/
def execCstat (f : EF) (s : State) : Result := laneWord (.e 0x152 Rows.cstat f) (commandPoint 0x152 Rows.cstat f) s

/-- WAITC (15 R229). -/
def execWaitc (f : EF) (s : State) : Result := laneWord (.e 0x153 Rows.waitc f) (holding (waitcTrap f) (waitcEff f)) s

/-- RDC (15 R230). -/
def execRdc (f : EF) (s : State) : Result := laneWord (.e 0x154 Rows.rdc f) (plain (rdcEff f)) s

/-- PROBE: a command enters the queue (15 R211 to R225). -/
def execProbe (f : EF) (s : State) : Result := laneWord (.e 0x155 Rows.probe f) (commandPoint 0x155 Rows.probe f) s

/-- ECAN (15 R232). -/
def execEcan (f : EF) (s : State) : Result := laneWord (.e 0x156 Rows.ecan f) (plain (ecanEff f)) s

/-- FENCEE (15 R233). -/
def execFencee (f : EF) (s : State) : Result := laneWord (.e 0x157 Rows.fencee f) (plain fenceeEff) s

end Sys2Proof.Machine
end

