-- ==== Sys2Proof/Machine/Collect.lean ====
section
/-! DEFINITION. Collectives (15 R226 to R228): entries at the descriptor's owner die, contributions, completion, cancelling and abandonment. -/

namespace Sys2Proof.Machine

/-! ## The descriptor (15 Table 15.3) -/

def collResult (d : List Byte) : Nat := leNat (d.take 8)
def collWord (d : List Byte) : Nat := leNat ((d.drop 8).take 8)
def collCount (d : List Byte) : Nat := bits (collWord d) 23 0 + 1
def collOp (d : List Byte) : Nat := bits (collWord d) 27 24
def collParties (d : List Byte) : Nat := bits (collWord d) 36 32 + 1
def collSignal (d : List Byte) : Nat := leNat ((d.drop 16).take 8)
def collStatus (d : List Byte) : Nat := leNat ((d.drop 24).take 8)

/-- Whether a descriptor meets Table 15.3. -/
def collOk (d : List Byte) : Bool :=
  collResult d % 8 == 0 && collOp d ≤ 4 && bits (collWord d) 31 28 == 0 && bits (collWord d) 63 37 == 0 && collSignal d % 8 == 0
    && collStatus d % 8 == 0 && (d.drop 32).all (· == 0)

/-- Element bytes: 8 for sum.s64, else 4. -/
def collSize (d : List Byte) : Nat := if collOp d = 2 then 8 else 4

/-- One step of the operation (15 R227); flags are discarded. -/
def collStep (op a b : Nat) : Nat :=
  match op with
  | 0 => (f32.add 1 a b).1
  | 1 => (a + b) % 2 ^ 32
  | 2 => (a + b) % 2 ^ 64
  | 3 => (f32.minMax false a b).1
  | _ => (f32.minMax true a b).1

/-- The elements of a contribution. -/
def elemsOf (sz : Nat) : Nat → List Byte → List Nat
  | 0, _ => []
  | n + 1, bs => leNat (bs.take sz) :: elemsOf sz n (bs.drop sz)

/-- The result over the contributions in ascending contributor number. -/
def collReduce (d : List Byte) (cs : List (List Byte)) : List Byte :=
  let sz := collSize d
  let xs := cs.map (elemsOf sz (collCount d))
  match xs with
  | [] => []
  | x :: rest => ((rest.foldl (fun acc y => (acc.zip y).map (fun p => collStep (collOp d) p.1 p.2)) x).map (leBytes sz)).flatten

/-! ## Entries -/

/-- The key of an entry: its partition and the descriptor's address. -/
def State.collKey (s : State) (part va : Nat) : Nat := part * 2 ^ 64 + s.normVa va

/-- The mask of contributors taken. -/
def Collective.mask (x : Collective) : Nat := x.taken.foldl (fun m p => m + 2 ^ p.1) 0

/-- What sends the requests of a collective: its owner die's first memory slice, or the hub die's CXL port 0 (00 Table 0.7; log 78). -/
def collSource (die : Nat) : Nat := if die < 4 then (Holder.slice die 0).source 0 else (Holder.cxl 0).source 0

/-- A request that a collective makes of another part, whose answer nothing waits for (log 78): whether it could be sent. -/
def State.collAsk (s : State) (key part va : Nat) (act : OwnerAct) : Bool × State :=
  if !s.present (vaDev va) then (false, s)
  else
    match s.requestTo (vaDev va) va part (collSource (vaDie (key % 2 ^ 64))) act with
    | some x => (true, x.2.answered x.1 (vaDev va))
    | none => (false, s)

/-- A run of a collective's bytes written for its partition: through the tables at the owner, or at another part; false where it cannot be. -/
def State.writeRun (s : State) (key part va : Nat) (bs : List Byte) : Bool × State :=
  if vaReserved va then (false, s)
  else if s.ownAddr va then
    let r := s.serve (.die (vaDie (key % 2 ^ 64))) (vaDie va) part (vaOff va) bs.length (some bs)
    (match r.1 with | .ok _ => true | .error _ => false, r.2)
  else s.collAsk key part va (.write bs)

/-- The bytes of a result, element by element. -/
def State.writeMain (s : State) (key part sz : Nat) : Nat → List Byte → Nat → Bool × State
  | _, _, 0 => (true, s)
  | va, bs, n + 1 =>
    if bs.isEmpty then (true, s)
    else
      let r := s.writeRun key part va (bs.take sz)
      if r.1 then State.writeMain r.2 key part sz (va + sz) (bs.drop sz) n else r

/-- A collective's signal gains 1, here or at another part. -/
def State.collSignalled (s : State) (key part va : Nat) : State :=
  if va = 0 || vaReserved va then s
  else if s.ownAddr va then (s.signalAt (.die (vaDie (key % 2 ^ 64))) part va (fun v => (v + 1) % 2 ^ 64)).2
  else (s.collAsk key part va (.add 1)).2

/-- A collective ends: its status word takes a state and the mask, its signal gains 1, and its entry is freed (15 R227). The status and the signal of a
descriptor that was not read are not known, and those at a misaligned address are passed over (DESIGN CHOICE, log 27). -/
def State.endColl (s : State) (key : Nat) (x : Collective) (state : Nat) : State :=
  let s := if collStatus x.desc = 0 || collStatus x.desc % 8 ≠ 0 then s
    else (s.writeRun key x.partition (collStatus x.desc) (leBytes 8 (state + 2 ^ 32 * x.mask))).2
  let s := { s with colls := s.colls.del key }
  if collSignal x.desc % 8 ≠ 0 then s else s.collSignalled key x.partition (collSignal x.desc)

/-- The last contribution has been taken: the result is written, and the collective completes or ends in a result fault (15 R227). -/
def State.completeColl (s : State) (key : Nat) (x : Collective) : State :=
  let out := collReduce x.desc (x.taken.map (·.2))
  let w := s.writeMain key x.partition (collSize x.desc) (collResult x.desc) out (collCount x.desc)
  w.2.endColl key x (if w.1 then 1 else 4)

/-- Whether the die of a descriptor has an entry free (15 R227). -/
def State.collRoom (s : State) (va : Nat) : Bool := (s.colls.filter (fun e => vaDie e.1 == vaDie va)).length < 1024

/-- The entry of a descriptor, opened where none is open; none where the die has no entry free (15 R227). Its descriptor is read next: one that cannot be
read leaves the entry open with none of its bytes (DEDUCED, log 27). -/
def State.openColl (s : State) (key part va : Nat) : Option (Collective × State) :=
  match s.colls.get? key with
  | some x => some (x, s)
  | none =>
    let x : Collective := { desc := [], partition := part, opened := s.serial, taken := [] }
    if s.collRoom va then some (x, { s with colls := s.colls.put key x }) else none

/-- Why a contribution to an entry is not taken: its descriptor breaks Table 15.3, or its contributor number is too large or already taken (15 R227). -/
def Collective.refuses (x : Collective) (r : Nat) : Option Nat :=
  if !collOk x.desc then some 21 else if collParties x.desc ≤ r || (x.taken.get? r).isSome then some 19 else none

/-- A contribution taken; the last one completes the collective (15 R227). -/
def State.takeColl (s : State) (key : Nat) (x : Collective) (r : Nat) (b : List Byte) : State :=
  let x := { x with taken := x.taken.put r b }
  let s := { s with colls := s.colls.put key x }
  if x.taken.length = collParties x.desc then s.completeColl key x else s

/-! ## The elements that a COLL contributes -/

/-- Bytes whose value the spec does not state. -/
def State.freeBytes (s : State) (sz : Nat) : List Byte × State :=
  (leBytes sz (Config.freeValue s.freeN).toNat, { s with freeN := s.freeN + 1 })

/-- The elements a COLL contributes, read by R214: the bytes so far and the state, or the page of a fault to be served. Those of other parts have been
asked for before. What an element that was not read contributes the spec does not state. -/
def State.readContribution (s : State) (k : Nat) (c : Command) (ans : Answer) (sz : Nat) : Nat → List Byte → Option Nat × List Byte × State
  | 0, acc => (none, acc, s)
  | n + 1, acc =>
    let e := acc.length / sz
    match c.kept (e + 1) 0 with
    | some b => State.readContribution s k c ans sz n (acc ++ b)
    | none =>
      let a : Act := .read c.ss c.ssN (idx32 c.d + e) 0
      let x := s.engineElem c.group c.pc c.ss (idx32 c.d + e) none (s.ownAnswer c a ans)
      match x.1 with
      | .bytes b => State.readContribution x.2 k c ans sz n (acc ++ b)
      | .dropped => State.readContribution (x.2.noteFlags k 0 flagOOB) k c ans sz n (acc ++ List.replicate sz 0)
      | .skipped => State.readContribution ((x.2.countSkip k 0).freeBytes sz).2 k c ans sz n (acc ++ (x.2.freeBytes sz).1)
      | .fault code addr =>
        if x.2.serviceable c code addr then (some (x.2.pageOf addr), acc, x.2)
        else State.readContribution
          ((x.2.updCmd k (fun c => c.noteFault { addr := addr, ord := e, code := code, slot := c.ssN })).freeBytes sz).2
          k c ans sz n (acc ++ (x.2.freeBytes sz).1)

/-- The elements of a COLL that lie on other parts and have not been read. -/
def State.wantedFar (s : State) (c : Command) (n : Nat) : List Nat :=
  (List.range n).filter (fun e => (s.foreignAt c (e + 1) c.ss (idx32 c.d + e) true).isSome && (c.kept (e + 1) 0).isNone)

/-- Element `e` of a COLL read from another part, once the descriptor says how many there are (15 R227, 14 R209). -/
def State.collElem (s : State) (k e : Nat) (c : Command) (ans : Answer) (late : Bool) : Option State :=
  match c.descriptor, s.foreignAt c (e + 1) c.ss (idx32 c.d + e) true with
  | some d, some va =>
    if !s.mayGo k c 0 || !(s.wantedFar c (collCount d)).contains e || !s.frontRoom c 0 then none
    else
      let q := s.askRead c c.ss va
      (s.farStep k (e + 1) c q.1 q.2 ans late).map (fun r => match r with
        | .sent s => s
        | .answered ans s =>
          let x := s.engineElem c.group c.pc c.ss (idx32 c.d + e) none ans
          match x.1 with
          | .bytes b => x.2.updCmd k (fun c => { c with buf := c.buf.put (8 * (e + 1)) b })
          | .fault code addr =>
            if x.2.serviceable c code addr then x.2.park k (x.2.pageOf addr)
            else
              (x.2.freeBytes (recSize c.ss)).2.updCmd k (fun c =>
                { c.noteFault { addr := addr, ord := e, code := code, slot := c.ssN } with
                  buf := c.buf.put (8 * (e + 1)) (x.2.freeBytes (recSize c.ss)).1 })
          | _ => x.2)
  | _, _ => none

/-! ## COLL, CCAN and CSTAT of this part -/

/-- The descriptor found by a COLL. -/
def State.keepDesc (s : State) (k : Nat) (d : List Byte) : State := s.updCmd k (fun c => { c with buf := c.buf.put descKey d })

/-- What a COLL contributes, once its elements of other parts are there (15 R227): none where they are not yet; `give` takes the bytes. -/
def State.gather (s : State) (k : Nat) (c : Command) (d : List Byte) (ans : Answer) (give : List Byte → State → State) : Option State :=
  if recSize c.ss ≠ collSize d then some (s.failCmd k 21 (recBase c.sx) c.ssN)
  else if !(s.wantedFar c (collCount d)).isEmpty then (if c.descriptor = some d then none else some (s.keepDesc k d))
  else
    let rd := s.readContribution k c ans (collSize d) (collCount d) []
    some (match rd.1 with
      | some page => (rd.2.2.updCmd k (fun c => { c with pend := [] })).park k page
      | none => give rd.2.1 rd.2.2)

/-- COLL at an entry of this part (15 R227). -/
def State.contribute (s : State) (k : Nat) (c : Command) (key va : Nat) (x : Collective) (ans : Answer) : Option State :=
  let r := c.aux % 2 ^ 32
  let s := { s with colls := s.colls.put key x }
  match x.refuses r with
  | some code => some (s.failCmd k code va c.sxN)
  | none => s.gather k c x.desc ans (fun b s => (s.finish k).takeColl key x r b)

/-- A collective command reaches its descriptor at an owner die of this part. -/
def State.collHere (s : State) (k : Nat) (c : Command) (va : Nat) (ans : Answer) (ecc : Bool) : Option State :=
  let part := s.partitionOf (teamOf c.group)
  let key := s.collKey part va
  match c.op, s.colls.get? key with
  | 0x151, some x => some ((s.endColl key x 3).finish k)
  | 0x151, none => some (s.finish k)
  | 0x152, x =>
    let v := match x with | some x => 5 + 2 ^ 32 * x.mask | none => 0
    some ((s.landCmd c 2 v).finish k)
  | _, _ =>
    match s.openColl key part va with
    | none => none
    | some o =>
      if !o.1.desc.isEmpty then s.contribute k c key va o.1 ans
      else
        let d := o.2.engineElem c.group c.pc c.sx 0 none (if ecc then .fault 9 else s.ownAnswer c (.read c.sx c.sxN 0 0) ans)
        match d.1 with
        | .bytes b => d.2.contribute k c key va { o.1 with desc := b } ans
        | .dropped => (d.2.noteFlags k 0 flagOOB).contribute k c key va { o.1 with desc := List.replicate 64 0 } ans
        | .skipped => some ((d.2.countSkip k 0).finish k)
        | .fault code addr => some (d.2.faultCmd k c code addr c.sxN)

/-- A collective command whose descriptor another part owns: a COLL first learns the descriptor and then sends its contribution (15 R227, 14 R209; log
78). -/
def State.collThere (s : State) (k : Nat) (c : Command) (va : Nat) (ans : Answer) (late : Bool) : Option State :=
  let fail (s : State) (code : Nat) : State := s.faultCmd k c code va c.sxN
  let ask (act : OwnerAct) (got : List Byte → State → State) : Option State :=
    (s.farStep k 0 c va act ans late).map (fun r => match r with
      | .sent s => s
      | .answered (.data b) s => got b s
      | .answered (.fault code) s => fail s code)
  match c.op with
  | 0x151 => ask .ccan (fun _ s => s.finish k)
  | 0x152 => ask .cstat (fun b s => (s.landCmd c 2 (leNat (b.take 8))).finish k)
  | _ =>
    match boundsOf (recBounds c.sx) (recExtent c.sx) 64 0 64 0, c.descriptor, c.sent.get? 0 with
    | .trap, _, _ => some (s.failCmd k 16 va c.sxN)
    | .skip, _, _ => some ((s.countSkip k 0).finish k)
    | .drop, none, _ => some ((s.noteFlags k 0 flagOOB).keepDesc k (List.replicate 64 0))
    | _, none, _ => ask (.coll (c.aux % 2 ^ 32) []) (fun b s => s.keepDesc k ((b ++ List.replicate 64 0).take 64))
    | _, some d, none =>
      if late then none
      else
        s.gather k c d ans (fun b s =>
          match s.farStep k 0 c va (.coll (c.aux % 2 ^ 32) b) ans false with
          | some (.sent s) => s
          | _ => s)
    | _, some _, some _ => ask (.coll (c.aux % 2 ^ 32) []) (fun _ s => s.finish k)

/-- A COLL, CCAN or CSTAT at its descriptor. -/
def State.collGo (s : State) (cmd : Nat) (a : Answer) (late ecc : Bool) : Option State :=
  match s.cmds.get? cmd with
  | none => none
  | some c =>
    let va := recBase c.sx
    if !(0x150 ≤ c.op && c.op ≤ 0x152) || !s.mayGo cmd c 0 || (late && (c.sent.get? 0).isNone) then none
    else if vaReserved va then some (s.failCmd cmd 6 va c.sxN)
    else if s.ownAddr va then (if late then none else (s.updCmd cmd (fun c => c.begin_)).collHere cmd c.begin_ va a ecc)
    else if !s.present (vaDev va) && (c.sent.get? 0).isNone then some (s.failCmd cmd 7 va c.sxN)
    else s.collThere cmd c.begin_ va a late

/-- COLL_CONTRIBUTION: a COLL, CCAN or CSTAT reaches its collective at the descriptor's owner (15 R227); one of another part answers from there. -/
def execCollContribution (cmd : Nat) (a : Answer) (s : State) : Result := s.happens (s.collGo cmd a false false)

/-- ENGINE_REQUEST_RESPONSE: the next access of one element of a command is made, a SWAIT reaches its signal, or element `ord - 1` of a COLL comes from
another part (15 R213, R214, R225, R227). -/
def execEngineRequestResponse (cmd ord : Nat) (a : Answer) (s : State) : Result := s.happens <|
  match s.cmds.get? cmd with
  | some c => if c.op = 0x150 && 1 ≤ ord then s.collElem cmd (ord - 1) c.begin_ a false else s.elementGo cmd ord a
  | none => none

/-- REQUEST_TIMEOUT: a request to another part has had no response for 1 ms: fault 8 (14 Table 14.5). A SWAIT never times out (15 R225). -/
def execRequestTimeout (cmd ord : Nat) (s : State) : Result := s.happens <|
  match s.cmds.get? cmd with
  | some c =>
    if c.op = 0x14F then none
    else if isSignal c.op then s.signalGo cmd (.fault 8) true false
    else if c.op = 0x150 && 1 ≤ ord then s.collElem cmd (ord - 1) c (.fault 8) true
    else if 0x150 ≤ c.op && c.op ≤ 0x152 then s.collGo cmd (.fault 8) true false
    else s.engineGo cmd ord (.fault 8) true false
  | none => none

/-! ## Collective commands that arrive from other parts (15 R227) -/

/-- A COLL of another part at its descriptor: with no bytes it asks for the descriptor, opening the entry where none is open, and otherwise it brings its
contribution. It waits where the die has no entry free. -/
def State.farColl (s : State) (req : Requester) (part va r : Nat) (b : List Byte) : Option (Except Nat (List Byte) × State) :=
  let key := s.collKey part va
  (s.openColl key part va).map (fun o =>
    let d := if o.1.desc.isEmpty then o.2.serve req (vaDie va) part (vaOff va) 64 none else (.ok o.1.desc, o.2)
    match d.1 with
    | .error f => (.error f, d.2)
    | .ok desc =>
      let x := { o.1 with desc := desc }
      let s := { d.2 with colls := d.2.colls.put key x }
      match x.refuses r with
      | some code => (.error code, s)
      | none =>
        if b.isEmpty then (.ok x.desc, s)
        else (.ok [], s.takeColl key x r b))

/-- A CCAN of another part, or the abandonment of its COLL, whose contributor's number tells whether it has been taken: the entry ends in a state (15
R227, R228). -/
def State.farEnd (s : State) (part va state : Nat) (r : Option Nat) : State :=
  match s.colls.get? (s.collKey part va) with
  | some x => if r.any (fun r => (x.taken.get? r).isSome) then s else s.endColl (s.collKey part va) x state
  | none => s

/-- What a CSTAT of another part is answered. -/
def State.farCstat (s : State) (part va : Nat) : List Byte :=
  leBytes 8 (match s.colls.get? (s.collKey part va) with | some x => 5 + 2 ^ 32 * x.mask | none => 0)

/-- The collectives of a team that ends with a COLL not yet taken become abandoned (15 R228). -/
def State.abandonColls (s : State) (tk : Nat) : State :=
  (s.cmds.filter (fun c => teamOf c.2.group == tk && c.2.op == 0x150 && c.2.st != .done)).foldl (fun s c =>
    let va := recBase c.2.sx
    let part := s.partitionOf tk
    if vaReserved va then s
    else if s.ownAddr va then
      match s.colls.get? (s.collKey part va) with
      | some x => s.endColl (s.collKey part va) x 2
      | none => s
    else (s.collAsk (s.collKey part va) part va (.cabandon (c.2.aux % 2 ^ 32))).2) s

end Sys2Proof.Machine
end

