-- ==== Sys2Proof/Machine/Integer.lean ====
section
/-! DEFINITION. Classes IALU, IMUL and PACK (08 R130 to R134, R138 to R141): each point as a function of its operands, and its meaning. -/

namespace Sys2Proof.Machine

/-! ## The shape of an RRR point -/

/-- The registers a slot's operand spans. -/
def slotWidth (s : Slot) : Nat := match s with | .reg w _ _ _ => w | _ => 1

/-- An operand of an RRR word as read; a field the point does not use reads 0. -/
def readSlot (r : Slot) (lk : Nat) (o : Operand) (s : State) : Nat × State :=
  match r with
  | .reg w _ _ _ => s.readOp lk o w
  | _ => (0, s)

/-- The operands a, b and c of an RRR word in operand order (07 R117). -/
def readRRR (row : RRRRow) (f : RRR) (lk : Nat) (s : State) : (Nat × Nat × Nat) × State :=
  let a := readSlot row.a lk f.a s
  let b := readSlot row.b lk f.b a.2
  let c := readSlot row.c lk f.c b.2
  ((a.1, b.1, c.1), c.2)

/-- The result of a point and its flags: of the lane as the word finds it, and of a, b and c. -/
abbrev Fn := Lane → Nat → Nat → Nat → Nat × Flags

/-- An RRR point that writes d (08 R130): operands read, flags ORed, the result written. -/
def computeRRR (row : RRRRow) (f : RRR) (fn : Fn) (c : Ctx) (s : State) : State :=
  let r := readRRR row f c.lk s
  let y := fn (s.lane c.lk) r.1.1 r.1.2.1 r.1.2.2
  (r.2.updLane c.lk (fun l => l.orFlags y.2)).writeOp c.lk f.d (slotWidth row.d) y.1

/-- An RRR point that writes d and a predicate. -/
def computeBoth (row : RRRRow) (f : RRR) (fn : Lane → Nat → Nat → Nat → Nat × Bool) (c : Ctx) (s : State) : State :=
  let r := readRRR row f c.lk s
  let y := fn (s.lane c.lk) r.1.1 r.1.2.1 r.1.2.2
  (r.2.updLane c.lk (fun l => l.setPred f.pd.val y.2)).writeOp c.lk f.d (slotWidth row.d) y.1

/-- An RRR point that writes only a predicate, with flags. -/
def computePred (row : RRRRow) (f : RRR) (fn : Lane → Nat → Nat → Nat → Bool × Flags) (c : Ctx) (s : State) : State :=
  let r := readRRR row f c.lk s
  let y := fn (s.lane c.lk) r.1.1 r.1.2.1 r.1.2.2
  r.2.updLane c.lk (fun l => (l.orFlags y.2).setPred f.pd.val y.1)

def rrrPoint (row : RRRRow) (f : RRR) (fn : Fn) : Point := plain (computeRRR row f fn)

/-! ## IALU (08 R133) -/

/-- The 32-bit two's-complement and unsigned readings. -/
def S (x : Nat) : Int := toSigned 32 x
def U (x : Nat) : Int := x
/-- Pr(N, n): a predicate named by mod bits [2:0], negated by bit 3 (08 R133). -/
def prOf (l : Lane) (mod : Nat) : Bool := xor (l.pred (mod % 8)) (mod.testBit 3)

def fnAdd (sat : Bool) : Fn := fun _ a b _ => narrow 32 sat (S a + S b)
def fnSub (sat : Bool) : Fn := fun _ a b _ => narrow 32 sat (S a - S b)
def fnNeg (sat : Bool) : Fn := fun _ a _ _ => narrow 32 sat (-S a)
def fnAbs (sat : Bool) : Fn := fun _ a _ _ => narrow 32 sat (S a).natAbs
def fnAddc (mod : Nat) (l : Lane) (a b _c : Nat) : Nat × Bool :=
  let t := a + b + b2n (prOf l mod)
  (t % 2 ^ 32, 2 ^ 32 ≤ t)
def fnSubb (mod : Nat) (l : Lane) (a b _c : Nat) : Nat × Bool :=
  let t : Int := U a - U b - b2n (prOf l mod)
  (ofSigned 32 t, t < 0)
def fnMinS : Fn := fun _ a b _ => (if S b < S a then b else a, 0)
def fnMinN : Fn := fun _ a b _ => (if b < a then b else a, 0)
def fnMaxS : Fn := fun _ a b _ => (if S a < S b then b else a, 0)
def fnMaxN : Fn := fun _ a b _ => (if a < b then b else a, 0)
def fnAnd : Fn := fun _ a b _ => (a &&& b, 0)
def fnOr : Fn := fun _ a b _ => (a ||| b, 0)
def fnXor : Fn := fun _ a b _ => (a ^^^ b, 0)
def fnAndn : Fn := fun _ a b _ => (a &&& (2 ^ 32 - 1 - b), 0)
def fnNot : Fn := fun _ a _ _ => (2 ^ 32 - 1 - a, 0)
def fnShl : Fn := fun _ a b _ => (if 32 ≤ b then 0 else a * 2 ^ b % 2 ^ 32, 0)
def fnShr : Fn := fun _ a b _ => (if 32 ≤ b then 0 else a / 2 ^ b, 0)
def fnSar : Fn := fun _ a b _ => (ofSigned 32 (S a / (2 ^ (if 32 ≤ b then 32 else b) : Nat)), 0)
def fnRol : Fn := fun _ a b _ => ((a * 2 ^ (b % 32) ||| a / 2 ^ (32 - b % 32)) % 2 ^ 32, 0)
def fnClz : Fn := fun _ a _ _ => (if a = 0 then 32 else 31 - a.log2, 0)
def fnPopc : Fn := fun _ a _ _ => (popCount a, 0)
def fnBrev : Fn := fun _ a _ _ => ((List.range 32).foldl (fun r i => r + b2n (a.testBit (31 - i)) * 2 ^ i) 0, 0)
def fnSel (mod : Nat) : Fn := fun l a b _ => (if prOf l mod then a else b, 0)
def fnMov : Fn := fun _ a _ _ => (a, 0)
def fnCmpS (mod : Nat) (_l : Lane) (a b _c : Nat) : Bool × Flags := (condInt (mod % 8) (S a) (S b), 0)
def fnCmpN (mod : Nat) (_l : Lane) (a b _c : Nat) : Bool × Flags := (condInt (mod % 8) (U a) (U b), 0)
def fnIset (mod : Nat) : Fn := fun _ a b _ =>
  (b2n (if mod.testBit 3 then condInt (mod % 8) (U a) (U b) else condInt (mod % 8) (S a) (S b)), 0)
def fnAdd64 (sat : Bool) : Fn := fun _ a b _ => narrow 64 sat (toSigned 64 a + toSigned 64 b)
def fnSub64 (sat : Bool) : Fn := fun _ a b _ => narrow 64 sat (toSigned 64 a - toSigned 64 b)

/-- PLOG: a truth table over two predicates; its fields are numbers, not operands (08 R132). -/
def plogEff (f : RRR) (c : Ctx) (s : State) : State :=
  s.updLane c.lk (fun l =>
    l.setPred f.pd.val ((Operand.code f.c).testBit (2 * b2n (l.pred (Operand.code f.a)) + b2n (l.pred (Operand.code f.b)))))

/-- MOVI and LEA: the immediate, added to a where the point reads one. -/
def riEff (row : RIRow) (f : RI) (c : Ctx) (s : State) : State :=
  let a := readSlot row.a c.lk f.a s
  a.2.writeOp c.lk f.d 1 ((a.1 + f.imm.toNat) % 2 ^ 32)

/-! ## IMUL (08 R134) -/

/-- The high word of an exact 64-bit result. -/
def hi64 (x : Int) : Nat := ofSigned 64 x / 2 ^ 32
def fnMul (sat : Bool) : Fn := fun _ a b _ => narrow 32 sat (S a * S b)
def fnMulh (e : Nat → Int) : Fn := fun _ a b _ => (hi64 (e a * e b), 0)
def fnMad (sat : Bool) : Fn := fun _ a b c => narrow 32 sat (S a * S b + S c)
def fnMadh (e : Nat → Int) : Fn := fun _ a b c => (hi64 (e a * e b + e c), 0)
def fnMul64 (e : Nat → Int) : Fn := fun _ a b _ => (ofSigned 64 (e a * e b), 0)
def fnMad64 (e e64 : Nat → Int) : Fn := fun _ a b c => (ofSigned 64 (e a * e b + e64 c), 0)
/-- Byte `i` of a word, read signed or unsigned. -/
def byteS (x i : Nat) : Int := toSigned 8 (x / 2 ^ (8 * i))
def byteU (x i : Nat) : Int := (x / 2 ^ (8 * i) % 256 : Nat)
def fnDot4 (ea eb : Nat → Nat → Int) (sat : Bool) : Fn := fun _ a b c =>
  narrow 32 sat (S c + ea a 0 * eb b 0 + ea a 1 * eb b 1 + ea a 2 * eb b 2 + ea a 3 * eb b 3)
def fnDot2 (sat : Bool) : Fn := fun _ a b c =>
  narrow 32 sat (S c + toSigned 16 a * toSigned 16 b + toSigned 16 (a / 2 ^ 16) * toSigned 16 (b / 2 ^ 16))

/-! ## PACK (08 R139 to R141) -/

def fnBfx (signed : Bool) : Fn := fun _ a b _ =>
  let pos := b % 256
  let len := Nat.min (b / 256 % 256) 32
  let f := a / 2 ^ pos % 2 ^ len
  (if len = 0 then 0 else if signed then ofSigned 32 (toSigned len f) else f, 0)
def fnBfi : Fn := fun _ a b c =>
  let pos := b % 256
  let len := Nat.min (b / 256 % 256) 32
  ((List.range 32).foldl (fun r i =>
      r + b2n (if pos ≤ i && i < pos + len then a.testBit (i - pos) else c.testBit i) * 2 ^ i) 0, 0)
def fnPrmb : Fn := fun _ a b c =>
  let v := a + b * 2 ^ 32
  ((List.range 4).foldl (fun r i =>
      let s := c / 2 ^ (4 * i) % 16
      r + (if s.testBit 3 then 0 else v / 2 ^ (8 * (s % 8)) % 256) * 2 ^ (8 * i)) 0, 0)
/-- The five trit codes of a T5P byte, as a trit field (08 R140). -/
def tritField (n : Nat) : Nat :=
  let code (d : Nat) : Nat := if d = 0 then 3 else d - 1
  code (n / 81 % 3) + 4 * code (n / 27 % 3) + 16 * code (n / 9 % 3) + 64 * code (n / 3 % 3) + 256 * code (n % 3)
/-- A trit field with an illegal code. -/
def tritBad (x : Nat) : Bool := (List.range 5).any (fun k => x / 4 ^ k % 4 == 2)
/-- The T5P byte of a trit field. -/
def t5pByte (x : Nat) : Nat :=
  let digit (k : Nat) : Nat := let c := x / 4 ^ k % 4; if c = 0 then 1 else if c = 1 then 2 else 0
  digit 0 * 81 + digit 1 * 27 + digit 2 * 9 + digit 3 * 3 + digit 4
def fnUnpk3 (mod : Nat) : Fn := fun _ a _ _ =>
  let n := a / 2 ^ (8 * (mod % 4)) % 256
  if 243 ≤ n then (0, flagFMT) else (tritField n, 0)
def fnPack3 (mod : Nat) : Fn := fun _ a _ c =>
  let sel := mod % 4
  let bad := tritBad a
  let code := if bad then 255 else t5pByte a
  (c - c / 2 ^ (8 * sel) % 256 * 2 ^ (8 * sel) + code * 2 ^ (8 * sel), flagIf bad flagFMT)
/-- The packed-format trap of the .t forms (08 R140). -/
def packedTrap (row : RRRRow) (f : RRR) (bad : Nat → Bool) (c : Ctx) (s : State) : Option Trap :=
  if f.mod.val.testBit 2 && bad (readSlot row.a c.lk f.a s).1 then some ⟨185, 21, 0⟩ else none
/-- The value of a trit code. -/
def tritVal (code : Nat) : Int := if code = 1 then 1 else if code = 3 then -1 else 0
/-- TACC's sum: five trits against five bytes from `off` on. -/
def taccSum (d tf v off : Nat) : Int :=
  (List.range 5).foldl (fun acc k => acc + tritVal (tf / 4 ^ k % 4) * toSigned 8 (v / 2 ^ (8 * (off + k)))) (S d)
/-- TACC (08 R141): d is read and written. -/
def taccEff (f : RRR) (c : Ctx) (s : State) : State :=
  let r := readRRR Rows.tacc f c.lk s
  let d := r.2.readOp c.lk f.d 1
  let x := taccSum d.1 r.1.1 r.1.2.1 f.mod.val
  let fl := flagIf (tritBad r.1.1) flagFMT ||| flagIf (x < minS 32 || maxS 32 < x) flagIOV
  (d.2.updLane c.lk (fun l => l.orFlags fl)).writeOp c.lk f.d 1 (ofSigned 32 x)
def fnSatnS (mod : Nat) : Fn := fun _ a _ _ =>
  let w := mod % 32 + 1
  let x := clampInt (S a) (minS w) (maxS w)
  (ofSigned 32 x, flagIf (x != S a) flagIOV)
def fnSatnN (mod : Nat) : Fn := fun _ a _ _ =>
  let w := mod % 32 + 1
  let x := clampInt (S a) 0 ((2 ^ w : Nat) - 1)
  (ofSigned 32 x, flagIf (x != S a) flagIOV)
def fnPk16 (sat : Bool) : Fn := fun _ a b _ =>
  let x := narrow 16 sat (S a)
  let y := narrow 16 sat (S b)
  (x.1 + y.1 * 2 ^ 16, x.2 ||| y.2)
/-- Four fields of `w` bits from field `k` on, each extended to 32 bits. -/
def spread4 (signed : Bool) (w k a : Nat) : Nat :=
  (List.range 4).foldl (fun r i =>
    let x := a / 2 ^ (w * (k + i)) % 2 ^ w
    r + (if signed then ofSigned 32 (toSigned w x) else x) * 2 ^ (32 * i)) 0
def fnUpk8 (signed : Bool) : Fn := fun _ a _ _ => (spread4 signed 8 0 a, 0)
def fnUpk4 (signed : Bool) (mod : Nat) : Fn := fun _ a _ _ => (spread4 signed 4 (4 * (mod % 2)) a, 0)
def fnPkb (sat : Bool) : Fn := fun _ a _ _ =>
  let x (i : Nat) : Nat × Flags := narrow 8 sat (toSigned 32 (a / 2 ^ (32 * i)))
  ((x 0).1 + (x 1).1 * 2 ^ 8 + (x 2).1 * 2 ^ 16 + (x 3).1 * 2 ^ 24, (x 0).2 ||| (x 1).2 ||| (x 2).2 ||| (x 3).2)
def fnMsk : Fn := fun _ a b _ => ((List.range 32).foldl (fun r j => r + b2n (a ≤ j && j < a + b) * 2 ^ j) 0, 0)

/-! ## The meanings -/


/-- ADD (08 R133). -/
def execAdd (f : RRR) (s : State) : Result := laneWord (.rrr 0x020 Rows.add f) (rrrPoint Rows.add f (fnAdd f.sat)) s

/-- SUB (08 R133). -/
def execSub (f : RRR) (s : State) : Result := laneWord (.rrr 0x021 Rows.sub f) (rrrPoint Rows.sub f (fnSub f.sat)) s

/-- ADDC (08 R133). -/
def execAddc (f : RRR) (s : State) : Result := laneWord (.rrr 0x022 Rows.addc f) (plain (computeBoth Rows.addc f (fnAddc f.mod.val))) s

/-- SUBB (08 R133). -/
def execSubb (f : RRR) (s : State) : Result := laneWord (.rrr 0x023 Rows.subb f) (plain (computeBoth Rows.subb f (fnSubb f.mod.val))) s

/-- NEG (08 R133). -/
def execNeg (f : RRR) (s : State) : Result := laneWord (.rrr 0x024 Rows.neg f) (rrrPoint Rows.neg f (fnNeg f.sat)) s

/-- ABS (08 R133). -/
def execAbs (f : RRR) (s : State) : Result := laneWord (.rrr 0x025 Rows.abs f) (rrrPoint Rows.abs f (fnAbs f.sat)) s

/-- MIN_S (08 R133). -/
def execMinS (f : RRR) (s : State) : Result := laneWord (.rrr 0x026 Rows.minS f) (rrrPoint Rows.minS f fnMinS) s

/-- MIN_N (08 R133). -/
def execMinN (f : RRR) (s : State) : Result := laneWord (.rrr 0x027 Rows.minN f) (rrrPoint Rows.minN f fnMinN) s

/-- MAX_S (08 R133). -/
def execMaxS (f : RRR) (s : State) : Result := laneWord (.rrr 0x028 Rows.maxS f) (rrrPoint Rows.maxS f fnMaxS) s

/-- MAX_N (08 R133). -/
def execMaxN (f : RRR) (s : State) : Result := laneWord (.rrr 0x029 Rows.maxN f) (rrrPoint Rows.maxN f fnMaxN) s

/-- AND (08 R133). -/
def execAnd (f : RRR) (s : State) : Result := laneWord (.rrr 0x02A Rows.and f) (rrrPoint Rows.and f fnAnd) s

/-- OR (08 R133). -/
def execOr (f : RRR) (s : State) : Result := laneWord (.rrr 0x02B Rows.or f) (rrrPoint Rows.or f fnOr) s

/-- XOR (08 R133). -/
def execXor (f : RRR) (s : State) : Result := laneWord (.rrr 0x02C Rows.xor f) (rrrPoint Rows.xor f fnXor) s

/-- ANDN (08 R133). -/
def execAndn (f : RRR) (s : State) : Result := laneWord (.rrr 0x02D Rows.andn f) (rrrPoint Rows.andn f fnAndn) s

/-- NOT (08 R133). -/
def execNot (f : RRR) (s : State) : Result := laneWord (.rrr 0x02E Rows.not f) (rrrPoint Rows.not f fnNot) s

/-- SHL (08 R133). -/
def execShl (f : RRR) (s : State) : Result := laneWord (.rrr 0x02F Rows.shl f) (rrrPoint Rows.shl f fnShl) s

/-- SHR (08 R133). -/
def execShr (f : RRR) (s : State) : Result := laneWord (.rrr 0x030 Rows.shr f) (rrrPoint Rows.shr f fnShr) s

/-- SAR (08 R133). -/
def execSar (f : RRR) (s : State) : Result := laneWord (.rrr 0x031 Rows.sar f) (rrrPoint Rows.sar f fnSar) s

/-- ROL (08 R133). -/
def execRol (f : RRR) (s : State) : Result := laneWord (.rrr 0x032 Rows.rol f) (rrrPoint Rows.rol f fnRol) s

/-- CLZ (08 R133). -/
def execClz (f : RRR) (s : State) : Result := laneWord (.rrr 0x033 Rows.clz f) (rrrPoint Rows.clz f fnClz) s

/-- POPC (08 R133). -/
def execPopc (f : RRR) (s : State) : Result := laneWord (.rrr 0x034 Rows.popc f) (rrrPoint Rows.popc f fnPopc) s

/-- BREV (08 R133). -/
def execBrev (f : RRR) (s : State) : Result := laneWord (.rrr 0x035 Rows.brev f) (rrrPoint Rows.brev f fnBrev) s

/-- SEL (08 R133). -/
def execSel (f : RRR) (s : State) : Result := laneWord (.rrr 0x036 Rows.sel f) (rrrPoint Rows.sel f (fnSel f.mod.val)) s

/-- MOV (08 R133). -/
def execMov (f : RRR) (s : State) : Result := laneWord (.rrr 0x037 Rows.mov f) (rrrPoint Rows.mov f fnMov) s

/-- MOVI (08 R133). -/
def execMovi (f : RI) (s : State) : Result := laneWord (.ri 0x038 Rows.movi f) (plain (riEff Rows.movi f)) s

/-- LEA (08 R133). -/
def execLea (f : RI) (s : State) : Result := laneWord (.ri 0x039 Rows.lea f) (plain (riEff Rows.lea f)) s

/-- CMP_S (08 R133). -/
def execCmpS (f : RRR) (s : State) : Result := laneWord (.rrr 0x03A Rows.cmpS f) (plain (computePred Rows.cmpS f (fnCmpS f.mod.val))) s

/-- CMP_N (08 R133). -/
def execCmpN (f : RRR) (s : State) : Result := laneWord (.rrr 0x03B Rows.cmpN f) (plain (computePred Rows.cmpN f (fnCmpN f.mod.val))) s

/-- ISET (08 R133). -/
def execIset (f : RRR) (s : State) : Result := laneWord (.rrr 0x03C Rows.iset f) (rrrPoint Rows.iset f (fnIset f.mod.val)) s

/-- PLOG (08 R133). -/
def execPlog (f : RRR) (s : State) : Result := laneWord (.rrr 0x03D Rows.plog f) (plain (plogEff f)) s

/-- ADD64 (08 R133). -/
def execAdd64 (f : RRR) (s : State) : Result := laneWord (.rrr 0x03E Rows.add64 f) (rrrPoint Rows.add64 f (fnAdd64 f.sat)) s

/-- SUB64 (08 R133). -/
def execSub64 (f : RRR) (s : State) : Result := laneWord (.rrr 0x03F Rows.sub64 f) (rrrPoint Rows.sub64 f (fnSub64 f.sat)) s

/-- MUL (08 R134). -/
def execMul (f : RRR) (s : State) : Result := laneWord (.rrr 0x040 Rows.mul f) (rrrPoint Rows.mul f (fnMul f.sat)) s

/-- MULH_S (08 R134). -/
def execMulhS (f : RRR) (s : State) : Result := laneWord (.rrr 0x041 Rows.mulhS f) (rrrPoint Rows.mulhS f (fnMulh S)) s

/-- MULH_N (08 R134). -/
def execMulhN (f : RRR) (s : State) : Result := laneWord (.rrr 0x042 Rows.mulhN f) (rrrPoint Rows.mulhN f (fnMulh U)) s

/-- MAD (08 R134). -/
def execMad (f : RRR) (s : State) : Result := laneWord (.rrr 0x043 Rows.mad f) (rrrPoint Rows.mad f (fnMad f.sat)) s

/-- MADH_S (08 R134). -/
def execMadhS (f : RRR) (s : State) : Result := laneWord (.rrr 0x044 Rows.madhS f) (rrrPoint Rows.madhS f (fnMadh S)) s

/-- MADH_N (08 R134). -/
def execMadhN (f : RRR) (s : State) : Result := laneWord (.rrr 0x045 Rows.madhN f) (rrrPoint Rows.madhN f (fnMadh U)) s

/-- MUL64_S (08 R134). -/
def execMul64S (f : RRR) (s : State) : Result := laneWord (.rrr 0x046 Rows.mul64S f) (rrrPoint Rows.mul64S f (fnMul64 S)) s

/-- MUL64_N (08 R134). -/
def execMul64N (f : RRR) (s : State) : Result := laneWord (.rrr 0x047 Rows.mul64N f) (rrrPoint Rows.mul64N f (fnMul64 U)) s

/-- MAD64_S (08 R134). -/
def execMad64S (f : RRR) (s : State) : Result := laneWord (.rrr 0x048 Rows.mad64S f) (rrrPoint Rows.mad64S f (fnMad64 S (toSigned 64))) s

/-- MAD64_N (08 R134). -/
def execMad64N (f : RRR) (s : State) : Result := laneWord (.rrr 0x049 Rows.mad64N f) (rrrPoint Rows.mad64N f (fnMad64 U (fun x => x))) s

/-- DOT4_SS (08 R134). -/
def execDot4Ss (f : RRR) (s : State) : Result := laneWord (.rrr 0x04A Rows.dot4Ss f) (rrrPoint Rows.dot4Ss f (fnDot4 byteS byteS f.sat)) s

/-- DOT4_NN (08 R134). -/
def execDot4Nn (f : RRR) (s : State) : Result := laneWord (.rrr 0x04B Rows.dot4Nn f) (rrrPoint Rows.dot4Nn f (fnDot4 byteU byteU f.sat)) s

/-- DOT4_SN (08 R134). -/
def execDot4Sn (f : RRR) (s : State) : Result := laneWord (.rrr 0x04C Rows.dot4Sn f) (rrrPoint Rows.dot4Sn f (fnDot4 byteS byteU f.sat)) s

/-- DOT2 (08 R134). -/
def execDot2 (f : RRR) (s : State) : Result := laneWord (.rrr 0x04D Rows.dot2 f) (rrrPoint Rows.dot2 f (fnDot2 f.sat)) s

/-- BFX_S (08 R139 to R141). -/
def execBfxS (f : RRR) (s : State) : Result := laneWord (.rrr 0x080 Rows.bfxS f) (rrrPoint Rows.bfxS f (fnBfx true)) s

/-- BFX_N (08 R139 to R141). -/
def execBfxN (f : RRR) (s : State) : Result := laneWord (.rrr 0x081 Rows.bfxN f) (rrrPoint Rows.bfxN f (fnBfx false)) s

/-- BFI (08 R139 to R141). -/
def execBfi (f : RRR) (s : State) : Result := laneWord (.rrr 0x082 Rows.bfi f) (rrrPoint Rows.bfi f fnBfi) s

/-- PRMB (08 R139 to R141). -/
def execPrmb (f : RRR) (s : State) : Result := laneWord (.rrr 0x083 Rows.prmb f) (rrrPoint Rows.prmb f fnPrmb) s

/-- UNPK3 (08 R139 to R141). -/
def execUnpk3 (f : RRR) (s : State) : Result := laneWord (.rrr 0x084 Rows.unpk3 f) (trapping (packedTrap Rows.unpk3 f (fun a => 243 ≤ a / 2 ^ (8 * (f.mod.val % 4)) % 256)) (computeRRR Rows.unpk3 f (fnUnpk3 f.mod.val))) s

/-- PACK3 (08 R139 to R141). -/
def execPack3 (f : RRR) (s : State) : Result := laneWord (.rrr 0x085 Rows.pack3 f) (trapping (packedTrap Rows.pack3 f tritBad) (computeRRR Rows.pack3 f (fnPack3 f.mod.val))) s

/-- TACC (08 R139 to R141). -/
def execTacc (f : RRR) (s : State) : Result := laneWord (.rrr 0x086 Rows.tacc f) (plain (taccEff f)) s

/-- SATN_S (08 R139 to R141). -/
def execSatnS (f : RRR) (s : State) : Result := laneWord (.rrr 0x087 Rows.satnS f) (rrrPoint Rows.satnS f (fnSatnS f.mod.val)) s

/-- SATN_N (08 R139 to R141). -/
def execSatnN (f : RRR) (s : State) : Result := laneWord (.rrr 0x088 Rows.satnN f) (rrrPoint Rows.satnN f (fnSatnN f.mod.val)) s

/-- PK16 (08 R139 to R141). -/
def execPk16 (f : RRR) (s : State) : Result := laneWord (.rrr 0x089 Rows.pk16 f) (rrrPoint Rows.pk16 f (fnPk16 f.sat)) s

/-- UPK8_S (08 R139 to R141). -/
def execUpk8S (f : RRR) (s : State) : Result := laneWord (.rrr 0x08A Rows.upk8S f) (rrrPoint Rows.upk8S f (fnUpk8 true)) s

/-- UPK8_N (08 R139 to R141). -/
def execUpk8N (f : RRR) (s : State) : Result := laneWord (.rrr 0x08B Rows.upk8N f) (rrrPoint Rows.upk8N f (fnUpk8 false)) s

/-- UPK4_S (08 R139 to R141). -/
def execUpk4S (f : RRR) (s : State) : Result := laneWord (.rrr 0x08C Rows.upk4S f) (rrrPoint Rows.upk4S f (fnUpk4 true f.mod.val)) s

/-- UPK4_N (08 R139 to R141). -/
def execUpk4N (f : RRR) (s : State) : Result := laneWord (.rrr 0x08D Rows.upk4N f) (rrrPoint Rows.upk4N f (fnUpk4 false f.mod.val)) s

/-- PKB (08 R139 to R141). -/
def execPkb (f : RRR) (s : State) : Result := laneWord (.rrr 0x08E Rows.pkb f) (rrrPoint Rows.pkb f (fnPkb f.sat)) s

/-- MSK (08 R139 to R141). -/
def execMsk (f : RRR) (s : State) : Result := laneWord (.rrr 0x08F Rows.msk f) (rrrPoint Rows.msk f fnMsk) s


end Sys2Proof.Machine
end

