-- ==== Sys2Proof/Machine/Control.lean ====
section
/-! DEFINITION. Class CTRL (06 R109 to R114). -/

namespace Sys2Proof.Machine

/-- A lane moved to a target (06 R107). -/
def State.jumpTo (s : State) (lk target : Nat) : State := s.updLane lk (fun l => l.jump target)

/-- T: the branch word's address plus disp words, modulo 2^32 (06 R110). -/
def branchTarget (f : BF) (at_ : Nat) : Nat := (at_ + 8 * f.disp.toNat) % 2 ^ 32

/-- A transfer on a condition over the reg operand (06 R110). -/
def brrEff (f : BF) (taken : Nat → Bool) (c : Ctx) (s : State) : State :=
  let r := s.readOp c.lk f.reg 1
  if taken r.1 then r.2.jumpTo c.lk (branchTarget f c.at_) else r.2

/-- BRP: the transfer on a predicate; p7 reads true (06 R110). -/
def brpEff (f : BF) (c : Ctx) (s : State) : State :=
  let n := Operand.code f.reg
  if xor ((s.lane c.lk).pred (n % 8)) (n.testBit 3) then s.jumpTo c.lk (branchTarget f c.at_) else s

/-- LOOP: the count falls by one and the transfer is taken until it is zero (06 R110). -/
def loopEff (f : BF) (c : Ctx) (s : State) : State :=
  let r := s.readOp c.lk f.reg 1
  let n := (r.1 + 2 ^ 32 - 1) % 2 ^ 32
  let s := r.2.writeOp c.lk f.reg 1 n
  if n ≠ 0 then s.jumpTo c.lk (branchTarget f c.at_) else s

/-- BRT: a table of two-word clauses (06 R110). -/
def brtEff (f : BF) (c : Ctx) (s : State) : State :=
  let r := s.readOp c.lk f.reg 1
  r.2.jumpTo c.lk ((branchTarget f c.at_ + 16 * r.1) % 2 ^ 32)

/-! ## Calls (06 R111, R112) -/

def trapCall : Trap := ⟨184, 9, 0⟩

/-- CALL and CALLI trap where the next level lies beyond the spill stack (06 R112). -/
def callTrap (c : Ctx) (s : State) : Option Trap :=
  if (s.team c.tk).spillSize < 128 * ((s.lane c.lk).cd + 1) then some trapCall else none

/-- Push: the return address is stored as an STSP of the lane would store it (06 R111, R112). -/
def State.pushReturn (s : State) (c : Ctx) : State :=
  let off := entryAt (s.team c.tk) (s.lane c.lk).cd c.pos
  let s := s.addOp c 0 2 off (.store ((s.group c.gk).spillPhys off) (leBytes 4 (c.at_ + 8)) false)
  s.updLane c.lk (fun l => { l with cd := l.cd + 1 })

def callEff (f : BF) (c : Ctx) (s : State) : State := (s.pushReturn c).jumpTo c.lk (branchTarget f c.at_)
def calliEff (f : BF) (c : Ctx) (s : State) : State :=
  let r := s.readOp c.lk f.reg 1
  (r.2.pushReturn c).jumpTo c.lk r.1
def jmpiEff (f : BF) (c : Ctx) (s : State) : State :=
  let r := s.readOp c.lk f.reg 1
  r.2.jumpTo c.lk r.1

def retTrap (c : Ctx) (s : State) : Option Trap := if (s.lane c.lk).cd = 0 then some trapCall else none
/-- RET: the return address is loaded as an LDSP of the lane would load it, and meets the watchpoints as one does (06 R111, R112). -/
def retEff (c : Ctx) (s : State) : State :=
  let k := (s.lane c.lk).cd - 1
  let off := entryAt (s.team c.tk) k c.pos
  let x := leNat (s.loadBytes c.gk ((s.group c.gk).spillPhys off) 4)
  let s := s.watch c.gk ((s.group c.gk).spillPhys off) 4 true false 0 (1#32 <<< c.pos) (BitVec.ofNat 32 c.at_) c.st.serial
  (s.updLane c.lk (fun l => { l with cd := k })).jumpTo c.lk x

/-! ## NOP, EXIT, PARK and YIELD (06 R113, R114) -/

/-- The lanes of a step that execute EXIT with a true guard. -/
def exitingLanes (c : Ctx) (s : State) : List Nat :=
  (c.st.all.filter (fun x => bits x.word 8 0 == 0x00D && guardOn (s.lane (laneKey c.gk x.pos)) (.b 0x00D Rows.exit (BF.ofWord x.word)))).map (·.pos)

/-- An unreported engine fault is raised at the EXIT of the group's last live lane (15 R215). -/
def exitTrap (c : Ctx) (s : State) : Option Trap :=
  if (s.liveLanes c.gk).all (fun p => p == c.pos || (exitingLanes c s).contains p) then
    match s.unreported c.gk (fun _ => true) with
    | some (_, m) => m.fault.map (fun e => ⟨195, 27, m.faultDetail e⟩)
    | none => none
  else none

/-- EXIT: the lane leaves its group's live set (06 R113). It may complete an arrival of the group at a barrier, which then releases what comes before the
EXIT (18 R272, 19 R280). -/
def exitEff (c : Ctx) (s : State) : State :=
  let gi := s.party c.gk
  (s.updLane c.lk (fun l => { l with live := false, exitAt := some (c.st.serial, c.at_) })).updTeam c.tk (fun t =>
    { t with barriers := t.barriers.mapVals (fun _ b =>
        if (b.lanes.get? gi).isSome then { b with serials := b.serials.put gi s.serial } else b) })

/-- PARK: not ready until n cycles after this step (06 R114). -/
def parkEff (f : BF) (c : Ctx) (s : State) : State :=
  let r := s.readOp c.lk f.reg 1
  r.2.updLane c.lk (fun l => { l with block := .park s.cycle r.1 })

/-- YIELD: not ready at the group's next opportunity (06 R114). -/
def yieldEff (c : Ctx) (s : State) : State := s.updLane c.lk (fun l => { l with block := .yield (s.group c.gk).opps s.cycle })

/-! ## The meanings -/


/-- NOP (06 R110 to R114). -/
def execNop (f : BF) (s : State) : Result := laneWord (.b 0x000 Rows.nop f) (plain (fun _ s => s)) s

/-- BRA (06 R110 to R114). -/
def execBra (f : BF) (s : State) : Result := laneWord (.b 0x001 Rows.bra f) (plain (fun c s => s.jumpTo c.lk (branchTarget f c.at_))) s

/-- BRP (06 R110 to R114). -/
def execBrp (f : BF) (s : State) : Result := laneWord (.b 0x002 Rows.brp f) (plain (brpEff f)) s

/-- BRR_Z (06 R110 to R114). -/
def execBrrZ (f : BF) (s : State) : Result := laneWord (.b 0x003 Rows.brrZ f) (plain (brrEff f (fun x => x == 0))) s

/-- BRR_NZ (06 R110 to R114). -/
def execBrrNz (f : BF) (s : State) : Result := laneWord (.b 0x004 Rows.brrNz f) (plain (brrEff f (fun x => x != 0))) s

/-- BRR_LT (06 R110 to R114). -/
def execBrrLt (f : BF) (s : State) : Result := laneWord (.b 0x005 Rows.brrLt f) (plain (brrEff f (fun x => S x < 0))) s

/-- BRR_GE (06 R110 to R114). -/
def execBrrGe (f : BF) (s : State) : Result := laneWord (.b 0x006 Rows.brrGe f) (plain (brrEff f (fun x => 0 ≤ S x))) s

/-- LOOP (06 R110 to R114). -/
def execLoop (f : BF) (s : State) : Result := laneWord (.b 0x007 Rows.loop f) (plain (loopEff f)) s

/-- CALL (06 R110 to R114). -/
def execCall (f : BF) (s : State) : Result := laneWord (.b 0x008 Rows.call f) (trapping callTrap (callEff f)) s

/-- CALLI (06 R110 to R114). -/
def execCalli (f : BF) (s : State) : Result := laneWord (.b 0x009 Rows.calli f) (trapping callTrap (calliEff f)) s

/-- RET (06 R110 to R114). -/
def execRet (f : BF) (s : State) : Result := laneWord (.b 0x00A Rows.ret f) (trapping retTrap retEff) s

/-- JMPI (06 R110 to R114). -/
def execJmpi (f : BF) (s : State) : Result := laneWord (.b 0x00B Rows.jmpi f) (plain (jmpiEff f)) s

/-- BRT (06 R110 to R114). -/
def execBrt (f : BF) (s : State) : Result := laneWord (.b 0x00C Rows.brt f) (plain (brtEff f)) s

/-- EXIT (06 R110 to R114). -/
def execExit (f : BF) (s : State) : Result := laneWord (.b 0x00D Rows.exit f) (trapping exitTrap exitEff) s

/-- PARK (06 R110 to R114). -/
def execPark (f : BF) (s : State) : Result := laneWord (.b 0x00E Rows.park f) (plain (parkEff f)) s

/-- YIELD (06 R110 to R114). -/
def execYield (f : BF) (s : State) : Result := laneWord (.b 0x00F Rows.yield f) (plain yieldEff) s

/-- PARK_EXPIRE: the cycles a parked lane owes have passed; it is ready again (06 R114). -/
def execParkExpire (gk lane : Nat) (s : State) : Result := s.happens <|
  let lk := laneKey gk lane
  match (s.lane lk).block with
  | .park since owed =>
    if since + owed ≤ s.cycle && since < s.cycle && !s.groupHalted gk then some (s.updLane lk (fun l => { l with block := .free }))
    else none
  | _ => none

/-- YIELD_EXPIRE: the group has had an opportunity since the YIELD's step, or 8 cycles have passed (06 R114). -/
def execYieldExpire (gk lane : Nat) (s : State) : Result := s.happens <|
  let lk := laneKey gk lane
  match (s.lane lk).block with
  | .yield opps since =>
    if opps < (s.group gk).opps || since + 8 ≤ s.cycle then some (s.updLane lk (fun l => { l with block := .free }))
    else none
  | _ => none

end Sys2Proof.Machine
end

