-- ==== Sys2Proof/Machine/Mems.lean ====
section
/-! DEFINITION. Class MEMS (11 R165 to R170, R177): loads, stores, atomics and the chute points, at issue; and what each does at its host when it
completes. -/

namespace Sys2Proof.Machine

/-! ## Addresses -/

/-- The access of a format-M word, its index popped or read last of the sources before d (07 R117, 11 R162). Where the use of the
index chute traps, the checks of the address, which come first, are made on what a pop finds there, or on 0 (DESIGN CHOICE, log 83). -/
def accessM (f : MF) (w : Nat) (c : Ctx) (s : State) : Except Trap Access × State :=
  let i := s.readOp c.lk f.idx 1
  (s.laneAccess c.gk f.slot.val (toSigned 32 i.1) f.off.toNat w, i.2)

/-- The access of LDSP and STSP (11 R169). -/
def accessSpill (f : MF) (c : Ctx) (s : State) : Except Trap Access × State :=
  let i := s.readOp c.lk f.idx 1
  (s.spillAccess c.gk (i.1 + f.off.toNat), i.2)

/-- The trap of an access, with the seal trap where it writes (11 R166). -/
def accessTrap (s : State) (gk w : Nat) (writes : Bool) (a : Except Trap Access) : Option Trap :=
  match a with
  | .error t => some t
  | .ok x => if writes && !x.drop then s.sealTrap gk x.space x.off w else none

/-- The default scope of a record where an atomic says 7 (11 R168). -/
def scopeOf (r : BitVec 256) (scope : Nat) : Nat := if scope = 7 then recScope r else scope

/-! ## Loads and stores at issue (11 R166, R167) -/

/-- The state and access of a word, or no effect where the checks were not made. -/
def withAccess (a : Except Trap Access × State) (k : Access → State → State) : State :=
  match a.1 with
  | .ok x => k x a.2
  | .error _ => a.2

def loadEff (acc : Ctx → State → Except Trap Access × State) (f : MF) (w regs : Nat) (signed : Bool) (c : Ctx) (s : State) : State :=
  withAccess (acc c s) (fun x s => s.addOp c f.fsel.val x.space x.off (.load x.phys w signed f.d regs x.drop))

def storeEff (acc : Ctx → State → Except Trap Access × State) (f : MF) (w regs : Nat) (c : Ctx) (s : State) : State :=
  withAccess (acc c s) (fun x s =>
    let d := s.readOp c.lk f.d regs
    d.2.addOp c f.fsel.val x.space x.off (.store x.phys (leBytes w d.1) x.drop))

def loadPoint (f : MF) (w regs : Nat) (signed : Bool) : Point :=
  trapping (fun c s => accessTrap s c.gk w false (accessM f w c s).1) (loadEff (accessM f w) f w regs signed)
def storePoint (f : MF) (w regs : Nat) : Point :=
  trapping (fun c s => accessTrap s c.gk w true (accessM f w c s).1) (storeEff (accessM f w) f w regs)
def ldspPoint (f : MF) : Point :=
  trapping (fun c s => accessTrap s c.gk 4 false (accessSpill f c s).1) (loadEff (accessSpill f) f 4 1 false)
def stspPoint (f : MF) : Point :=
  trapping (fun c s => accessTrap s c.gk 4 true (accessSpill f c s).1) (storeEff (accessSpill f) f 4 1)

/-! ## Atomics (11 R168) -/

/-- The operand a and the access of an atomic word, in operand order (07 R117). -/
def accessA (f : AF) (w : Nat) (c : Ctx) (s : State) : Nat × Except Trap Access × State :=
  let a := s.readOp c.lk f.a (w / 4)
  let i := a.2.readOp c.lk f.idx 1
  (a.1, a.2.laneAccess c.gk f.slot.val (toSigned 32 i.1) (f.aoff.val * w) w, i.2)

/-- What an atomic word's ord field asks: acquire and release (18 Table 18.2), at the scope of its field or of its record. -/
def acquiresOrd (ord : Nat) : Bool := ord % 2 == 1
def releasesOrd (ord : Nat) : Bool := 2 ≤ ord

def atomEff (f : AF) (w : Nat) (ret : Bool) (c : Ctx) (s : State) : State :=
  let r := accessA f w c s
  withAccess r.2 (fun x s =>
    s.addOp c f.fsel.val x.space x.off
      (.atomic x.phys w f.aop.val r.1 f.d ret (acquiresOrd f.ord.val) (releasesOrd f.ord.val) x.drop
        (scopeOf ((s.team c.tk).record_ f.slot.val) f.scope.val)))

def casEff (f : AF) (w : Nat) (c : Ctx) (s : State) : State :=
  let r := accessA f w c s
  withAccess r.2 (fun x s =>
    let d := s.readOp c.lk f.d (w / 4)
    d.2.addOp c f.fsel.val x.space x.off
      (.cas x.phys w r.1 d.1 f.d (acquiresOrd f.ord.val) (releasesOrd f.ord.val) x.drop
        (scopeOf ((s.team c.tk).record_ f.slot.val) f.scope.val)))

def atomPoint (f : AF) (w : Nat) (ret : Bool) : Point :=
  trapping (fun c s => accessTrap s c.gk w true (accessA f w c s).2.1) (atomEff f w ret)
def casPoint (f : AF) (w : Nat) : Point :=
  trapping (fun c s => accessTrap s c.gk w true (accessA f w c s).2.1) (casEff f w)

/-! ## BRLD (11 R170) -/

def brldEff (f : MF) (c : Ctx) (s : State) : State :=
  withAccess (accessM f 32 c s) (fun x s => s.addOp c f.fsel.val x.space x.off (.brld x.phys (Operand.code f.d) x.drop))
def brldPoint (f : MF) : Point := trapping (fun c s => accessTrap s c.gk 32 false (accessM f 32 c s).1) (brldEff f)

/-! ## The chute points (11 R171 to R177) -/

/-- The chute a field names. -/
def chuteOf (o : Operand) : Nat := match o with | .q n => n.val | _ => 0

/-- Fresh, empty and open under a descriptor; remote mirrored counts start at the capacity (11 R177). -/
def Chute.configured (d : BitVec 64) : Chute := { Chute.fresh with desc := some d, free := descCap d }

/-- The seal-table entry that a ring would overlap (11 R166); that of a descriptor that is not valid is formed in the same way, with 64-byte elements for the
reserved width (DESIGN CHOICE, log 83). -/
def ringSealed (c : Ctx) (s : State) (d : BitVec 64) : Option Trap := s.sealTrap c.gk 0 (descBase d) (descRing d)

def chcfgTrap (f : MF) (c : Ctx) (s : State) : Option Trap :=
  let d := BitVec.ofNat 64 (s.readOp c.lk f.idx 2).1
  firstTrap (ringSealed c s d) (if descValid (s.team c.tk) d then none else some ⟨160, 17, chuteOf f.d⟩)

/-- CHCFG takes effect at the end of its step (11 R177). -/
def chcfgEff (f : MF) (c : Ctx) (s : State) : State :=
  let d := s.readOp c.lk f.idx 2
  d.2.leave ⟨0x135, chuteOf f.d, d.1⟩

/-- A chute reconfigured (11 R177). -/
def State.configure (s : State) (tk q : Nat) (d : BitVec 64) : State :=
  s.updTeam tk (fun t => { t with chutes := t.chutes.put q (Chute.configured d) })

def chrdTrap (f : MF) (c : Ctx) (s : State) : Option Trap :=
  firstTrap (accessTrap s c.gk 64 true (accessM f 64 c s).1) (chuteTrap (s.team c.tk) (c.ci s) (chuteOf f.d) 2 true false false)

/-- CHRD: one record popped, and stored as ST stores (11 R177). -/
def chrdEff (f : MF) (c : Ctx) (s : State) : State :=
  withAccess (accessM f 64 c s) (fun x s =>
    let r := s.pop c.lk (chuteOf f.d)
    r.2.addOp c f.fsel.val x.space x.off (.store x.phys r.1 x.drop))

def chwrTrap (f : MF) (c : Ctx) (s : State) : Option Trap :=
  firstTrap (accessTrap s c.gk 64 false (accessM f 64 c s).1) (chuteTrap (s.team c.tk) (c.ci s) (chuteOf f.d) 2 false true false)

/-- A slot reserved at the tail for a record that lands later (11 R177): an element named by the serial of its CHWR. -/
def State.reserve (s : State) (c : Ctx) (q : Nat) : State :=
  s.updChute c.tk q (fun h =>
    match h.desc with
    | none => h
    | some d =>
      if descPend d = 0 then
        { h with elems := h.elems ++ [{ serial := s.serial, group := c.gk, from_ := 0, landed := false, forwarded := false }] }
      else { h with free := h.free - 1, arriving := h.arriving ++ [⟨s.serial, c.lk, BitVec.ofNat 32 c.at_, c.st.serial, s.cycle + 1, []⟩] })

/-- CHWR: a slot reserved at issue; the record becomes poppable at completion (11 R177). -/
def chwrEff (f : MF) (c : Ctx) (s : State) : State :=
  withAccess (accessM f 64 c s) (fun x s =>
    let q := chuteOf f.d
    (s.reserve c q).addOp c f.fsel.val x.space x.off (.chwr x.phys q s.serial x.drop))

def chcntTrap (f : MF) (c : Ctx) (s : State) : Option Trap :=
  match ((s.team c.tk).chute (chuteOf f.idx)).desc with
  | none => some ⟨160, 17, chuteOf f.idx⟩
  | some _ => none

/-- CHCNT: the count and, in bit 31, the closed flag at issue as held at the host, where a close follows the pushes before it (11 R176, R177). -/
def chcntEff (f : MF) (c : Ctx) (s : State) : State :=
  let h := (s.team c.tk).chute (chuteOf f.idx)
  s.writeOp c.lk f.d 1 (h.elems.length + 2 ^ 31 * b2n (h.closed && h.arriving.isEmpty))

def chclsTrap (f : MF) (c : Ctx) (s : State) : Option Trap :=
  let q := chuteOf f.d
  match ((s.team c.tk).chute q).desc with
  | none => some ⟨160, 17, q⟩
  | some d => if mayClose (s.team c.tk) d (c.ci s) then none else some ⟨162, 19, q⟩

/-- CHCLS sets the closed flag (11 R176). -/
def chclsEff (f : MF) (c : Ctx) (s : State) : State :=
  (s.updChute c.tk (chuteOf f.d) (fun h => if h.closed then h else { h with closed := true, closedBy := c.gk, closedSerial := s.serial })).bump

/-! ## At the host (11 R166 to R170, 18 R258 to R261) -/

/-- Two loads of one slot by a step: the highest lane's record remains (11 R170). -/
def sameSlot (early late : LaneOp) : Bool :=
  match early.kind, late.kind with
  | .brld _ m _, .brld _ n _ => early.step == late.step && m == n
  | _, _ => false

/-- The bytes a load in flight finds: the youngest earlier queued store of its group to each, else the host's (18 R260). -/
def State.readFor (s : State) (gk : Nat) (o : LaneOp) (a n : Nat) : List Byte :=
  (List.range n).map (fun k =>
    match ((s.group gk).ops.filter (fun e => e.id < o.id)).reverse.findSome? (fun e => e.kind.stores (a + k)) with
    | some b => b
    | none => s.mem.read (a + k))

/-! ## The header of a table image (12 R181) -/

/-- The header word of an image. -/
def imgHdr (img : List Byte) : Nat := leNat (img.take 8)
def hdrAlpha (h : Nat) : Nat := bits h 63 48
def hdrStart (h : Nat) : Nat := bits h 19 14
def hdrStates (h : Nat) : Nat := bits h 13 7
def hdrCmp (h : Nat) : Bool := bit h 6
def hdrDown (h : Nat) : Bool := bit h 5
def hdrOps (h : Nat) : Nat := bits h 4 4 + 1
def hdrWidth (h : Nat) : Nat := bits h 2 0

/-- Transition entries of a table. -/
def hdrEntries (h : Nat) : Nat := hdrStates h * 2 ^ (hdrWidth h * hdrOps h)

/-- A header word that meets 12 Table 12.2, with at most 4096 transition entries. -/
def hdrValid (h : Nat) : Bool :=
  bits h 47 40 == 1 && bits h 39 20 == 0 && bits h 3 3 == 0 && 1 ≤ hdrWidth h && hdrWidth h ≤ 4 && 1 ≤ hdrStates h && hdrStates h ≤ 64
    && hdrStart h < hdrStates h && hdrAlpha h < 2 ^ (2 ^ hdrWidth h) && hdrEntries h ≤ 4096

/-- The size of an image in bytes. -/
def imgSize (h : Nat) : Nat := 32 + 2 * hdrEntries h + 4 * hdrStates h

/-- The bytes that an XTLD reads from its image: the header, and the whole image where the header is valid and the image lies in the extent and the
allocation (12 R184, R188). -/
def State.imageSpan (s : State) (gk : Nat) (o : LaneOp) (img stop : Nat) : Nat :=
  let t := s.team (teamOf gk)
  let h := leNat ((List.range 8).flatMap (fun k => s.readFor gk o (t.chamberPhys (img + k)) 1))
  if hdrValid h && img + imgSize h ≤ stop && img + imgSize h ≤ t.chamberSize then imgSize h else 32

/-- The hosts an operation still has to meet: an XTLD that has not read reads those of its whole image (12 R188). -/
def State.hostsOf (s : State) (gk : Nat) (o : LaneOp) : List Nat :=
  match o.kind with
  | .xtld _ _ img stop _ none =>
    (List.range ((s.imageSpan gk o img stop + 7) / 8)).map (fun k => hostOf ((s.team (teamOf gk)).chamberPhys (img + 8 * k)))
  | k => (match k.place with | some p => [hostOf p.1] | none => [])

/-- Loads of one host keep the order of their issue, and an XTLD is a load of each host of its image (18 R260, 12 R188). -/
def State.loadsMeet (s : State) (gk : Nat) (early late : LaneOp) : Bool :=
  early.kind.isAccess && !(early.kind matches .waits ..) && early.kind.returns && late.kind.returns
    && (s.hostsOf gk early).any (fun h => (s.hostsOf gk late).contains h)

/-- Whether an operation may be performed now. -/
def State.mayPerform (s : State) (gk : Nat) (o : LaneOp) : Bool :=
  !s.capturing (teamOf gk) && (s.group gk).ops.all (fun e => o.id ≤ e.id || !(holdsBack (s.servesOthers gk) e.kind o.kind || s.loadsMeet gk e o || sameSlot e o))
    && (!o.kind.releases || s.pushesLanded gk o.id)

/-- The watch of a lane access performed at its host (22 R304). -/
def State.watchLane (s : State) (gk : Nat) (o : LaneOp) (a n : Nat) (reads writes : Bool) : State :=
  s.watch gk a n reads writes 0 (1#32 <<< (o.lane % 32)) (BitVec.ofNat 32 o.pc) o.step

/-- What a load of `w` bytes writes to `regs` registers. -/
def loadValue (w : Nat) (signed : Bool) (bs : List Byte) : Nat :=
  if w < 4 && signed then ofSigned 32 (toSigned (8 * w) (leNat bs)) else leNat bs

/-- A record that lands in a reserved slot or in a remote producer's outgoing element, or a push that lands in its slot (11 R174, R177). -/
def State.landRecord (s : State) (tk q entry : Nat) (bs : List Byte) (o : LaneOp) : State :=
  let t := s.team tk
  let h := t.chute q
  match h.desc with
  | none => s
  | some d =>
    match h.elems.findIdx? (fun e => e.serial == entry && !e.landed) with
    | some k =>
      let s := s.setMem (s.mem.writeBytes (slotPhys t h d k) bs)
      let s := s.watchChute o.lane (slotPhys t h d k) bs.length true (BitVec.ofNat 32 o.pc) o.step
      s.updChute tk q (fun h => { h with elems := h.elems.map (fun e =>
        if e.serial == entry && !e.landed then { e with landed := true, from_ := s.cycle + 1 } else e) })
    | none => s.updChute tk q (fun h => { h with arriving := h.arriving.map (fun p =>
        if p.serial == entry && p.bytes.isEmpty then { p with bytes := bs } else p) })

/-- An operation performed at its host: what it writes there, to its lane and to its team (11 R167 to R170, R177). -/
def State.perform (s : State) (gk : Nat) (o : LaneOp) : State :=
  let oob := s.landRegs o.lane [] flagOOB
  match o.kind with
  | .load _ _ _ dst regs true => oob.landRegs o.lane (regWrites dst regs 0) 0
  | .load a w signed dst regs false =>
    (s.watchLane gk o a w true false).landRegs o.lane (regWrites dst regs (loadValue w signed (s.readFor gk o a w))) 0
  | .store _ _ true => oob
  | .store a d false => (s.setMem (s.mem.writeBytes a d)).watchLane gk o a d.length false true
  | .atomic _ w _ _ dst ret _ _ true _ => if ret then oob.landRegs o.lane (regWrites dst (w / 4) 0) 0 else oob
  | .atomic a w aop x dst ret _ _ false _ =>
    let old := leNat (s.mem.readBytes a w)
    let r := atomicOp aop w old x
    let s := (s.setMem (s.mem.writeBytes a (leBytes w r.1))).watchLane gk o a w true true
    s.landRegs o.lane (if ret then regWrites dst (w / 4) old else []) r.2
  | .cas _ w _ _ dst _ _ true _ => oob.landRegs o.lane (regWrites dst (w / 4) 0) 0
  | .cas a w cmp new dst _ _ false _ =>
    let old := leNat (s.mem.readBytes a w)
    let s := if old = cmp then s.setMem (s.mem.writeBytes a (leBytes w new)) else s
    (s.watchLane gk o a w true true).landRegs o.lane (regWrites dst (w / 4) old) 0
  | .brld _ slot true => oob.updTeam (teamOf gk) (fun t => { t with slots := t.slots.put slot 0 })
  | .brld a slot false =>
    let r := BitVec.ofNat 256 (leNat (s.readFor gk o a 32))
    (s.watchLane gk o a 32 true false).updTeam (teamOf gk) (fun t => { t with slots := t.slots.put slot r })
  | .chwr _ q entry true => oob.landRecord (teamOf gk) q entry (List.replicate 64 0) o
  | .chwr a q entry false => (s.watchLane gk o a 64 true false).landRecord (teamOf gk) q entry (s.readFor gk o a 64) o
  | .push _ q entry bytes => s.landRecord (teamOf gk) q entry bytes o
  | _ => s

/-! ## The meanings -/


/-- LD_8S (11 R166 to R170, R177). -/
def execLd8s (f : MF) (s : State) : Result := laneWord (.m 0x120 Rows.ld8s f) (loadPoint f 1 1 true) s

/-- LD_8N (11 R166 to R170, R177). -/
def execLd8n (f : MF) (s : State) : Result := laneWord (.m 0x121 Rows.ld8n f) (loadPoint f 1 1 false) s

/-- LD_16S (11 R166 to R170, R177). -/
def execLd16s (f : MF) (s : State) : Result := laneWord (.m 0x122 Rows.ld16s f) (loadPoint f 2 1 true) s

/-- LD_16N (11 R166 to R170, R177). -/
def execLd16n (f : MF) (s : State) : Result := laneWord (.m 0x123 Rows.ld16n f) (loadPoint f 2 1 false) s

/-- LD_32 (11 R166 to R170, R177). -/
def execLd32 (f : MF) (s : State) : Result := laneWord (.m 0x124 Rows.ld32 f) (loadPoint f 4 1 false) s

/-- LD_64 (11 R166 to R170, R177). -/
def execLd64 (f : MF) (s : State) : Result := laneWord (.m 0x125 Rows.ld64 f) (loadPoint f 8 2 false) s

/-- LD_128 (11 R166 to R170, R177). -/
def execLd128 (f : MF) (s : State) : Result := laneWord (.m 0x126 Rows.ld128 f) (loadPoint f 16 4 false) s

/-- ST_8 (11 R166 to R170, R177). -/
def execSt8 (f : MF) (s : State) : Result := laneWord (.m 0x127 Rows.st8 f) (storePoint f 1 1) s

/-- ST_16 (11 R166 to R170, R177). -/
def execSt16 (f : MF) (s : State) : Result := laneWord (.m 0x128 Rows.st16 f) (storePoint f 2 1) s

/-- ST_32 (11 R166 to R170, R177). -/
def execSt32 (f : MF) (s : State) : Result := laneWord (.m 0x129 Rows.st32 f) (storePoint f 4 1) s

/-- ST_64 (11 R166 to R170, R177). -/
def execSt64 (f : MF) (s : State) : Result := laneWord (.m 0x12A Rows.st64 f) (storePoint f 8 2) s

/-- ST_128 (11 R166 to R170, R177). -/
def execSt128 (f : MF) (s : State) : Result := laneWord (.m 0x12B Rows.st128 f) (storePoint f 16 4) s

/-- ATOM (11 R166 to R170, R177). -/
def execAtom (f : AF) (s : State) : Result := laneWord (.a 0x12C Rows.atom f) (atomPoint f 4 true) s

/-- ATOM64 (11 R166 to R170, R177). -/
def execAtom64 (f : AF) (s : State) : Result := laneWord (.a 0x12D Rows.atom64 f) (atomPoint f 8 true) s

/-- CAS (11 R166 to R170, R177). -/
def execCas (f : AF) (s : State) : Result := laneWord (.a 0x12E Rows.cas f) (casPoint f 4) s

/-- CAS64 (11 R166 to R170, R177). -/
def execCas64 (f : AF) (s : State) : Result := laneWord (.a 0x12F Rows.cas64 f) (casPoint f 8) s

/-- RED (11 R166 to R170, R177). -/
def execRed (f : AF) (s : State) : Result := laneWord (.a 0x130 Rows.red f) (atomPoint f 4 false) s

/-- RED64 (11 R166 to R170, R177). -/
def execRed64 (f : AF) (s : State) : Result := laneWord (.a 0x131 Rows.red64 f) (atomPoint f 8 false) s

/-- LDSP (11 R166 to R170, R177). -/
def execLdsp (f : MF) (s : State) : Result := laneWord (.m 0x132 Rows.ldsp f) (ldspPoint f) s

/-- STSP (11 R166 to R170, R177). -/
def execStsp (f : MF) (s : State) : Result := laneWord (.m 0x133 Rows.stsp f) (stspPoint f) s

/-- BRLD (11 R166 to R170, R177). -/
def execBrld (f : MF) (s : State) : Result := laneWord (.m 0x134 Rows.brld f) (brldPoint f) s

/-- CHCFG (11 R166 to R170, R177). -/
def execChcfg (f : MF) (s : State) : Result := laneWord (.m 0x135 Rows.chcfg f) (trapping (chcfgTrap f) (chcfgEff f)) s

/-- CHRD (11 R166 to R170, R177). -/
def execChrd (f : MF) (s : State) : Result := laneWord (.m 0x136 Rows.chrd f) (trapping (chrdTrap f) (chrdEff f)) s

/-- CHWR (11 R166 to R170, R177). -/
def execChwr (f : MF) (s : State) : Result := laneWord (.m 0x137 Rows.chwr f) (trapping (chwrTrap f) (chwrEff f)) s

/-- CHCNT (11 R166 to R170, R177). -/
def execChcnt (f : MF) (s : State) : Result := laneWord (.m 0x138 Rows.chcnt f) (trapping (chcntTrap f) (chcntEff f)) s

/-- CHCLS (11 R166 to R170, R177). -/
def execChcls (f : MF) (s : State) : Result := laneWord (.m 0x139 Rows.chcls f) (trapping (chclsTrap f) (chclsEff f)) s


end Sys2Proof.Machine
end

