-- ==== Sys2Proof/Machine/Chutes.lean ====
section
/-! DEFINITION. The events of chutes with a remote end (11 R174 to R176). -/

namespace Sys2Proof.Machine

/-- A chute of a team with its descriptor, where the team is resident and the chute configured. -/
def State.liveChute (s : State) (t q : Nat) : Option (Chute × BitVec 64) :=
  if (s.team t).residency = .resident then
    match ((s.team t).chute q).desc with
    | some d => some ((s.team t).chute q, d)
    | none => none
  else none

/-- The next element of a ring to forward, with its place from the head (11 R174). -/
def Chute.nextForward (c : Chute) : Option (Nat × Element) :=
  match c.elems.findIdx? (fun e => !e.forwarded) with
  | some k => (c.elems[k]?).map (fun e => (k, e))
  | none => none

/-- How many elements of a chute the word that a lane stands at pops. -/
def State.popsOf (s : State) (gk pos q : Nat) : Nat :=
  let l := s.lane (laneKey gk pos)
  if l.block ≠ .free then 0
  else
    match l.nextWord with
    | some w => (match decodeView w with
        | .ok v => if guardOn l v then (wordNeed v).pops.getD q 0 else 0
        | .error _ => 0)
    | none => 0

/-- How many elements at the tail of a chute a lane on a core that may go on stands to pop: the most of any lane. -/
def State.tailWanted (s : State) (t q core : Nat) : Nat :=
  ((s.teamGroups t).filter (fun gk => (s.group gk).core == core && !s.groupHalted gk)).foldl
    (fun n gk => (s.liveLanes gk).foldl (fun n p => max n (s.popsOf gk p q)) n) 0

/-- How many tail elements the producer of a deque wants (11 R175). -/
def State.producerWants (s : State) (t q : Nat) (d : BitVec 64) : Nat :=
  if descMode d = 1 then s.tailWanted t q ((s.team t).cores.getD ((producerAt (s.team t) d).getD 0) 0) else 0

/-- How many of a ring's elements have been forwarded: they are the oldest ones (11 R174). -/
def Chute.ahead (c : Chute) : Nat := (c.elems.takeWhile (fun e => e.forwarded)).length

/-- Whether the tail elements that the producer wants reach to the newest element that was forwarded (11 R175). -/
def State.wantsForwarded (s : State) (t q : Nat) (c : Chute) (d : BitVec 64) : Bool :=
  c.ahead ≠ 0 && c.elems.length < c.ahead + s.producerWants t q d

/-- CHUTE_REMOTE_PUSH_ARRIVE: the oldest element on the way enters the ring, from the cycle after its push on, once every
access its push releases has been performed (11 R174). -/
def execChuteRemotePushArrive (t q : Nat) (s : State) : Result := s.happens <|
  match s.liveChute t q with
  | some (c, d) =>
    (match c.arriving with
     | p :: rest =>
       if descPend d = 1 && !p.bytes.isEmpty && p.from_ ≤ s.cycle && s.released (p.lane / 32) p.serial && c.elems.length < descCap d then
         some ((s.updChute t q (fun c => { c with arriving := rest })).land t q (some p.lane) p.serial s.cycle p.bytes true p.pc p.step)
       else none
     | [] => none)
  | none => none

/-- CHUTE_FREE_NOTICE: a notice of a freed slot restores one count at a remote producer (11 R174) or at the command processor (04 R75). -/
def execChuteFreeNotice (t q : Nat) (s : State) : Result := s.happens <|
  match s.liveChute t q with
  | some (c, _) =>
    if c.notices = 0 then none
    else some (s.updChute t q (fun c => { c with notices := c.notices - 1, free := c.free + 1 }))
  | none => none

/-- CHUTE_FORWARD: the host forwards the oldest element not yet forwarded into the 16-entry window at the consumer's core (11 R174); one that a tail pop has
had withdrawn is kept for it (R175). -/
def execChuteForward (t q : Nat) (s : State) : Result := s.happens <|
  match s.liveChute t q with
  | some (c, d) =>
    (match c.nextForward with
     | some (k, e) =>
       if remoteConsumer d && c.window.length < 16 && s.poppable e && !(c.withdrawn && c.elems.length ≤ k + s.producerWants t q d) then
         let bytes := s.mem.readBytes (slotPhys (s.team t) c d k) (elemBytes (descWidth d))
         some (s.updChute t q (fun c =>
           { c with window := c.window ++ [bytes], elems := c.elems.set k { e with forwarded := true } }))
       else none
     | none => none)
  | none => none

/-- A pop at the window counted at the host: the head advances and its slot is free (11 R174). -/
def State.countPop (s : State) (t q : Nat) (d : BitVec 64) : State :=
  s.updChute t q (fun c => { c with popped := c.popped - 1 }.dropHead d s.cycle)

/-- CHUTE_POP_NOTICE: the notice of a window pop reaches the host (11 R174). -/
def execChutePopNotice (t q : Nat) (s : State) : Result := s.happens <|
  match s.liveChute t q with
  | some (c, d) => if c.popped = 0 then none else some (s.countPop t q d)
  | none => none

/-- CHUTE_WITHDRAW: a tail pop's withdrawal of the newest forwarded element is answered at the window: the element comes back if it still stands there, and
the pop is counted if it was taken (11 R175). One that meets a window pop in its cycle wins: a pop of this cycle has met none. -/
def execChuteWithdraw (t q : Nat) (s : State) : Result := s.happens <|
  match s.liveChute t q with
  | some (c, d) =>
    if !s.wantsForwarded t q c d then none
    else
      match c.window with
      | [] => if c.poppedAt = some s.cycle then none else some (s.countPop t q d)
      | _ :: _ =>
        some (s.updChute t q (fun c =>
          { c with
            window := c.window.dropLast
            elems := c.elems.modify (c.ahead - 1) (fun e => { e with forwarded := false })
            withdrawn := true }))
  | none => none

/-- CHUTE_CLOSE_NOTICE: the close reaches a remote consumer's core, after every element the host has forwarded (11 R176). -/
def execChuteCloseNotice (t q : Nat) (s : State) : Result := s.happens <|
  match s.liveChute t q with
  | some (c, d) =>
    if remoteConsumer d && s.closedHere c && !c.closedThere && c.elems.all (fun e => e.forwarded) then
      some (s.updChute t q (fun c => { c with closedThere := true }))
    else none
  | none => none

end Sys2Proof.Machine
end

