-- ==== Sys2Proof/Machine/Rendezvous.lean ====
section
/-! DEFINITION. Class GRUP (07 R122 to R129, 05 R98 to R101): arrivals, the operations of a rendezvous, and its end at the end of a step. -/

namespace Sys2Proof.Machine

/-! ## Arrival (07 R122) -/

/-- Whether a point is GROW or SHRINK, the only ones that span both halves under G16 (05 R100). -/
def spansGroup (op : Nat) : Bool := op == 0x11A || op == 0x11B

/-- The positions of the rendezvous domain of a lane (07 R123, R129): under G16 all 32 for GROW and SHRINK alone, so that a point that arrives later in a
half is not held to the tag of a GROW in the other (DESIGN CHOICE, log 80). -/
def domainOf (g16 : Bool) (op pos : Nat) : List Nat :=
  if g16 && !spansGroup op then (List.range 16).map (fun k => pos / 16 * 16 + k) else List.range 32

/-- The arrival of a lane, if it has arrived. -/
def State.arrival (s : State) (gk pos : Nat) : Option Arrival :=
  match (s.lane (laneKey gk pos)).block with
  | .rendezvous a => if (s.lane (laneKey gk pos)).live then some a else none
  | _ => none

/-- Whether two arrivals meet in one domain: one stands in the domain of the other. Under G16 a GROW or SHRINK meets what stands in either half, and so
does what comes after it (DESIGN CHOICE, log 80). -/
def meets (g16 : Bool) (op pos op' pos' : Nat) : Bool := (domainOf g16 op pos).contains pos' || (domainOf g16 op' pos').contains pos

/-- The first arrival of a tag that a lane's arrival meets, with its opcode and imm: an earlier one, or that of a lower lane of the step (07 R124). -/
def firstArrival (g16 : Bool) (op tag : Nat) (c : Ctx) (s : State) : Option (Nat × Nat) :=
  match (List.range 32).findSome? (fun p => match s.arrival c.gk p with
      | some a => if a.tag = tag && meets g16 op c.pos a.op p then some (a.op, a.imm) else none
      | none => none) with
  | some x => some x
  | none => (c.st.all.find? (fun x => x.pos < c.pos && meets g16 op c.pos (bits x.word 8 0) x.pos && bits x.word 27 22 == tag)).map
      (fun x => (bits x.word 8 0, bits x.word 63 58))

/-- The group-op mismatch trap (07 R124): a word that differs in opcode or imm from the first arrival of its tag. -/
def mismatchTrap (op : Nat) (f : GF) (c : Ctx) (s : State) : Option Trap :=
  match firstArrival (s.team c.tk).kernel.g16 op f.tag.val c s with
  | some x => if x = (op, f.imm.val) then none else some ⟨50, 5, 0⟩
  | none => none

/-- A lane arrives: its operands are read and kept where its guard is true, and it stays at its word (07 R122). -/
def arriveEff (op : Nat) (row : GRow) (f : GF) (c : Ctx) (s : State) : State :=
  let l := s.lane c.lk
  let on := l.guard f.g
  let rd (r : Slot) (o : Operand) : Val :=
    match r, o with
    | .reg w _ _ _, .v n => BitVec.ofNat 128 (l.regsVal n.val w)
    | _, _ => 0
  let x : Arrival :=
    { tag := f.tag.val, op := op, imm := f.imm.val, pred := on, a := if on then rd row.a f.a else 0, b := if on then rd row.b f.b else 0,
      c := if on then rd row.c f.c else 0, dst := (if row.d = .unused then .z else f.d), pd := if row.pd = .none then 7 else f.pd.val }
  s.setLane c.lk { l with block := .rendezvous x }

def grupPoint (op : Nat) (row : GRow) (f : GF) : Point :=
  { hold := true, always := true, own := mismatchTrap op f, eff := arriveEff op row f }

/-! ## The operations (07 R127). A domain is a list of kept values by position, none where a lane is absent. -/

abbrev Kept := AList Nat

/-- A fold over every position, an identity at absent ones. -/
def foldAll (n : Nat) (x : Kept) (ident : Nat) (fn : Nat → Nat → Nat) : Nat :=
  (List.range n).foldl (fun acc i => fn acc (x.getD i ident)) ident

/-- A fold over the lanes present, from the first one's value. -/
def foldPresent (x : Kept) (fn : Nat → Nat → Nat) : Nat :=
  match x with
  | [] => 0
  | p :: ps => ps.foldl (fun acc q => fn acc q.2) p.2

/-- The addition of the tree: round to nearest even, with its flags (07 R127). -/
def addRne (x y : Nat × Flags) : Nat × Flags :=
  let r := f32.add 1 x.1 y.1
  (r.1, x.2 ||| y.2 ||| r.2)

/-- Node(j, i) of 07 R128. -/
def node (x : Kept) : Nat → Nat → Nat × Flags
  | 0, i => (x.getD i 0, 0)
  | j + 1, i => addRne (node x j (2 * i)) (node x j (2 * i + 1))

/-- log2 of the number of positions. -/
def levels (n : Nat) : Nat := if n = 16 then 4 else 5

/-- Prefix(m) of 07 R128: the blocks of m's set bits from the highest down. -/
def prefixGo (x : Kept) (m : Nat) : Nat → Nat → Option (Nat × Flags) → Option (Nat × Flags)
  | 0, _, acc => acc
  | j + 1, start, acc =>
    if m.testBit j then
      let blk := node x j (start / 2 ^ j)
      prefixGo x m j (start + 2 ^ j) (some (match acc with | none => blk | some a => addRne a blk))
    else prefixGo x m j start acc

def prefixSum (n : Nat) (x : Kept) (m : Nat) : Nat × Flags := (prefixGo x m (levels n + 1) 0 none).getD (0, 0)

/-- A NaN result is the canonical NaN (07 R127). -/
def canonical (x : Nat) : Nat := if (f32.decode x).isNan then f32.nan else x

/-- NV for a signalling NaN among the inputs (07 R127). -/
def inputNV (x : Kept) : Flags := sigNV (x.map (fun p => f32.decode p.2))

/-- The running sum of a segment from its head on (07 R127, GSEG). -/
def segSum (float : Bool) : List Nat → Nat × Flags
  | [] => (0, 0)
  | v :: vs =>
    vs.foldl (fun acc y => if float then addRne acc (y, 0) else ((acc.1 + y) % 2 ^ 32, 0)) (v, 0)

/-- What a rendezvous gives one lane: d, pd, and the flags of the whole operation. -/
structure Given where
  d : Nat
  p : Bool
  deriving DecidableEq, Repr

/-- The lanes of a segment of position `i`: from the greatest head at or below to the next (07 R127). -/
def segment (x b : Kept) (i : Nat) : List Nat :=
  let head (p : Nat) : Bool := p == 0 || (b.getD p 0 != 0)
  let lo := ((List.range (i + 1)).reverse.find? head).getD 0
  let hi := ((List.range 33).find? (fun p => i < p && head p)).getD 33
  (x.filter (fun q => lo ≤ q.1 && q.1 < hi)).map (·.2)

/-- GSHUFX's source (07 R127). -/
def shufxSource (n mode i k : Nat) : Int :=
  match mode with
  | 0 => ((i ^^^ (if n = 16 then k % 16 else k % 32) : Nat) : Int)
  | 1 => (i : Int) - k
  | 2 => (i : Int) + k
  | _ => (((i + k) % n : Nat) : Int)

/-- A lane's value at a source position, or its c (07 R127). -/
def pickAt (n : Nat) (x : Kept) (src : Int) (c : Nat) : Nat := if 0 ≤ src ∧ src < n then x.getD src.toNat c else c

/-- What a rendezvous gives the lane at position `i` of its domain: the operation over kept a (x), b and c. -/
def given (op imm n : Nat) (x b c : Kept) (i : Nat) : Given :=
  let bi := b.getD i 0
  let ci := c.getD i 0
  let m := (List.range n).foldl (fun r p => r + b2n (x.getD p 0 != 0) * 2 ^ p) 0
  match op with
  | 0x100 => ⟨foldAll n x 0 (fun a y => (a + y) % 2 ^ 32), false⟩
  | 0x101 => ⟨canonical (node x (levels n) 0).1, false⟩
  | 0x102 => ⟨foldAll n x 0 (fun a y => (a + y) % 2 ^ 64), false⟩
  | 0x103 => ⟨foldPresent x (fun a y => if S y < S a then y else a), false⟩
  | 0x104 => ⟨foldPresent x (fun a y => if y < a then y else a), false⟩
  | 0x105 => ⟨canonical (foldPresent x (fun a y => (f32.minMax false a y).1)), false⟩
  | 0x106 => ⟨foldPresent x (fun a y => if S a < S y then y else a), false⟩
  | 0x107 => ⟨foldPresent x (fun a y => if a < y then y else a), false⟩
  | 0x108 => ⟨canonical (foldPresent x (fun a y => (f32.minMax true a y).1)), false⟩
  | 0x109 => ⟨foldAll n x (2 ^ 32 - 1) (fun a y => a &&& y), false⟩
  | 0x10A => ⟨foldAll n x 0 (fun a y => a ||| y), false⟩
  | 0x10B => ⟨foldAll n x 0 (fun a y => a ^^^ y), false⟩
  | 0x10C => ⟨foldAll (i + 1) x 0 (fun a y => (a + y) % 2 ^ 32), false⟩
  | 0x10D => ⟨foldAll i x 0 (fun a y => (a + y) % 2 ^ 32), false⟩
  | 0x10E => ⟨canonical (prefixSum n x (i + 1)).1, false⟩
  | 0x10F => ⟨canonical (prefixSum n x i).1, false⟩
  | 0x110 => ⟨(segSum false (segment x b i)).1, false⟩
  | 0x111 => ⟨canonical (segSum true (segment x b i)).1, false⟩
  | 0x112 => ⟨x.getD (imm % n) ci, false⟩
  | 0x113 => ⟨pickAt n x ((if n = 16 then bi % 16 else bi : Nat) : Int) ci, false⟩
  | 0x114 => ⟨pickAt n x (shufxSource n imm i bi) ci, false⟩
  | 0x115 =>
    ⟨m, if imm = 0 then x.all (fun p => p.2 != 0) else if imm = 1 then m != 0
        else (match x with | [] => true | q :: _ => x.all (fun p => p.2 == q.2))⟩
  | 0x116 => ⟨(x.filter (fun p => p.2 != 0)).length, false⟩
  | 0x117 => (match x with | [] => ⟨0, false⟩ | q :: _ => ⟨q.1, q.1 == i⟩)
  | 0x118 =>
    let d := (x.filter (fun p => p.1 < i && p.2 == x.getD i 0)).length
    ⟨d, d == 0⟩
  | _ => ⟨0, false⟩

/-- The flags of an operation, raised in every lane present (07 R127). -/
def givenFlags (op n : Nat) (x b : Kept) : Flags :=
  match op with
  | 0x101 => inputNV x ||| (node x (levels n) 0).2
  | 0x10E => inputNV x ||| (node x (levels n) 0).2 ||| x.foldl (fun fl p => fl ||| (prefixSum n x (p.1 + 1)).2) 0
  | 0x10F => inputNV x ||| (node x (levels n) 0).2 ||| x.foldl (fun fl p => fl ||| (prefixSum n x p.1).2) 0
  | 0x111 => inputNV x ||| x.foldl (fun fl p => fl ||| (segSum true (segment x b p.1)).2) 0
  | 0x105 => inputNV x
  | 0x108 => inputNV x
  | _ => 0

/-- Registers a result of a point spans. -/
def givenWidth (op : Nat) : Nat := if op = 0x102 then 2 else 1

/-! ## The end of a rendezvous (07 R123, R124) -/

/-- A lane moves past its word at a completion and is ready 4 cycles later (07 R123). -/
def State.pass (s : State) (lk : Nat) : State :=
  let a := (s.lane lk).nextAt
  (s.retire lk a).updLane lk (fun l => { l with block := .free, readyAt := s.cycle + 4 })

/-- An operation runs once over the arrived lanes of a domain of `n` positions from `base` (07 R123, R127). -/
def State.runGroupOp (s : State) (gk base n : Nat) (arr : AList Arrival) : State :=
  match arr with
  | [] => s
  | (_, a0) :: _ =>
    let pt := arr.filter (fun p => p.2.pred)
    let kept (fn : Arrival → Val) : Kept := pt.map (fun p => (p.1 - base, (fn p.2).toNat))
    let x := if a0.op = 0x117 then kept (fun _ => 1) else kept (fun a => a.a)
    let b := kept (fun a => a.b)
    let c := kept (fun a => a.c)
    let fl := givenFlags a0.op n x b
    let s := pt.foldl (fun s p =>
      let r := given a0.op a0.imm n x b c (p.1 - base)
      s.updLane (laneKey gk p.1) (fun l => ((l.write p.2.dst (givenWidth a0.op) r.d).setPred p.2.pd r.p).orFlags fl)) s
    arr.foldl (fun s p => s.pass (laneKey gk p.1)) s

/-! ## Grants (05 R98 to R101) -/

/-- Grants a group holds. -/
def Group.grants (g : Group) : Nat := g.granules.length - 1

/-- The granules of a core's unretired banks, 8 to a bank (25 Table 25.6). -/
def Core.pool (c : Core) : List Nat := (List.range 128).filter (fun k => !c.retiredBanks.contains (k / 8))

/-- The granules that groups placed on a core hold, with those a trap frame keeps. -/
def State.heldGranules (s : State) (core : Nat) : List Nat :=
  (s.coreGroups core).flatMap (fun gk =>
    (s.group gk).granules
      ++ (match (s.team (teamOf gk)).frame with | some f => if f.gi = indexOf gk then f.group.granules else [] | none => []))

/-- The granules a core can give: those of a bank that has failed are given no more (25 R328). -/
def State.freeGranules (s : State) (core : Nat) : List Nat :=
  let held := s.heldGranules core
  (s.core core).pool.filter (fun k => !held.contains k && !(s.core core).failedBanks.contains (k / 8))

/-- The lanes of a group with registers `lo` to `hi - 1` cleared. -/
def State.clearRegs (s : State) (gk lo hi : Nat) : State :=
  s.updLanes gk (fun _ l => { l with v := l.v.filter (fun r => r.1 < lo || hi ≤ r.1) })

/-- The grant of a request: the lowest free granules, cleared, and every arrived lane past its GROW (05 R101). -/
def State.grantNow (s : State) (gk n : Nat) : State :=
  let g := s.group gk
  let old := g.granules.length
  let s := s.setGroup gk { g with granules := g.granules ++ (s.freeGranules g.core).take n, grant := none }
  let s := s.clearRegs gk (32 * old) (32 * (old + n))
  ((List.range 32).filter (fun p => (s.arrival gk p).isSome)).foldl (fun s p => s.pass (laneKey gk p)) s

/-- The queue of grant requests with a group's entered: in order of rendezvous completion, and those of one cycle by port, then slot (05 R99). -/
def State.queueGrant (s : State) (core gk : Nat) : List Nat :=
  let place (k : Nat) : Nat := (s.group k).grantAt * 32 + (s.group k).port * 8 + (s.group k).slot
  (s.core core).grants.filter (fun k => place k < place gk) ++ [gk] ++ (s.core core).grants.filter (fun k => !(place k < place gk))

/-- Whether a port can complete no rendezvous any more in this cycle: it has had its opportunity, or no group on it has a live lane. -/
def State.portDone (s : State) (core port : Nat) : Bool :=
  (s.core core).served.get? port == some s.cycle
    || ((s.coreGroups core).filter (fun gk => (s.group gk).port == port)).all (fun gk => (s.liveLanes gk).isEmpty)

/-- Whether the request at the head of a core's queue can be granted: its group and its count (05 R101). One made in this cycle waits until no lower port
can make another before it (05 R99). -/
def State.headGrant (s : State) (core : Nat) : Option (Nat × Nat) :=
  match (s.core core).grants with
  | gk :: _ =>
    (match (s.group gk).grant with
     | some n =>
       if n ≤ (s.freeGranules core).length
           && ((s.group gk).grantAt < s.cycle || (List.range (s.group gk).port).all (fun p => s.portDone core p)) then some (gk, n)
       else none
     | none => none)
  | [] => none

/-- The request at the head granted. -/
def State.serveGrant (s : State) (core gk n : Nat) : State :=
  (s.updCore core (fun c => { c with grants := c.grants.filter (· != gk) })).grantNow gk n

/-- A group receives its team's halt; a grant that can be made in this cycle is made first (05 R101, 21 R283). -/
def State.receiveHalt (s : State) (gk : Nat) : State :=
  match s.headGrant (s.group gk).core with
  | some (k, n) => if k = gk then (s.serveGrant (s.group gk).core gk n).haltGroup gk else s.haltGroup gk
  | none => s.haltGroup gk

/-- The arrivals of a group withdrawn: a trap at the end of a step leaves every word to be issued again (21 R284). -/
def State.withdraw (s : State) (gk : Nat) (ps : List Nat) : State :=
  ps.foldl (fun s p => s.updLane (laneKey gk p) (fun l => { l with block := .free })) s

/-- A trap raised at the end of a step over arrived lanes: the mask names every one (07 R124, 05 R101). -/
def State.trapArrived (s : State) (gk : Nat) (tr : Trap) (ps : List Nat) : State :=
  let pc := match ps with | p :: _ => (s.lane (laneKey gk p)).pc | [] => 0
  takeTrap (s.withdraw gk ps) gk tr (maskOf ps) pc false

/-- GROW and SHRINK run once for the group (05 R101). -/
def State.runGrant (s : State) (gk : Nat) (a : Arrival) (ps : List Nat) : State :=
  let g := s.group gk
  let n := a.imm
  if a.op = 0x11A then
    if g.budget < g.grants + n then s.trapArrived gk ⟨51, 7, 0⟩ ps
    else if (s.core g.core).pool.length < (s.coreGroups g.core).length + g.grants + n then s.trapArrived gk ⟨52, 8, 0⟩ ps
    else
      let s := s.setGroup gk { g with grant := some n, grantAt := s.cycle }
      s.updCore g.core (fun c => { c with grants := s.queueGrant g.core gk })
  else if g.grants < n then s.trapArrived gk ⟨51, 7, 0⟩ ps
  else
    let s := s.setGroup gk { g with granules := g.granules.take (g.granules.length - n) }
    ps.foldl (fun s p => s.pass (laneKey gk p)) s

/-- The lanes of a domain at the end of a step: complete on one tag, split over several, or pending (07 R123, R124). A half whose lanes all stand at GROW or
SHRINK is no domain by itself (05 R100); one where some stand there and others at a point of the half is split (DESIGN CHOICE, log 80). -/
def State.endDomain (s : State) (gk base n : Nat) : State :=
  let live := (s.liveLanes gk).filter (fun p => base ≤ p && p < base + n)
  let arr : AList Arrival := live.filterMap (fun p => (s.arrival gk p).map (fun a => (p, a)))
  match arr with
  | [] => s
  | (_, a0) :: _ =>
    if arr.length < live.length || (n ≠ 32 && arr.all (fun p => spansGroup p.2.op)) then s
    else if arr.any (fun p => p.2.tag != a0.tag) then s.trapArrived gk ⟨55, 6, 0⟩ live
    else if spansGroup a0.op then s.runGrant gk a0 live
    else s.runGroupOp gk base n arr

/-- Whether every live lane of a group stands at GROW or SHRINK. -/
def State.allAtGrant (s : State) (gk : Nat) : Bool :=
  let live := s.liveLanes gk
  !live.isEmpty && live.all (fun p => match s.arrival gk p with | some a => spansGroup a.op | none => false)

/-- Rendezvous at the end of a step of a group: each domain by itself, the halves under G16, neither of which waits for the other (07 R123, R129).
Where both halves split in one step, the record is that of the lower half and the arrivals of both are withdrawn (DESIGN CHOICE, log 80). -/
def State.endRendezvous (s : State) (gk : Nat) : State :=
  if (s.group gk).grant.isSome then s
  else if (s.team (teamOf gk)).kernel.g16 && !s.allAtGrant gk then
    (s.endDomain gk 0 16).endDomain gk 16 16
  else s.endDomain gk 0 32

/-! ## The meanings -/


/-- GSUM_I32 (07 R122 to R129): the lane arrives; the operation runs when every live lane of its domain has. -/
def execGsumI32 (f : GF) (s : State) : Result := laneWord (.g 0x100 Rows.gsumI32 f) (grupPoint 0x100 Rows.gsumI32 f) s

/-- GSUM_F32 (07 R122 to R129): the lane arrives; the operation runs when every live lane of its domain has. -/
def execGsumF32 (f : GF) (s : State) : Result := laneWord (.g 0x101 Rows.gsumF32 f) (grupPoint 0x101 Rows.gsumF32 f) s

/-- GSUM_S64 (07 R122 to R129): the lane arrives; the operation runs when every live lane of its domain has. -/
def execGsumS64 (f : GF) (s : State) : Result := laneWord (.g 0x102 Rows.gsumS64 f) (grupPoint 0x102 Rows.gsumS64 f) s

/-- GMIN_S (07 R122 to R129): the lane arrives; the operation runs when every live lane of its domain has. -/
def execGminS (f : GF) (s : State) : Result := laneWord (.g 0x103 Rows.gminS f) (grupPoint 0x103 Rows.gminS f) s

/-- GMIN_N (07 R122 to R129): the lane arrives; the operation runs when every live lane of its domain has. -/
def execGminN (f : GF) (s : State) : Result := laneWord (.g 0x104 Rows.gminN f) (grupPoint 0x104 Rows.gminN f) s

/-- GMIN_F (07 R122 to R129): the lane arrives; the operation runs when every live lane of its domain has. -/
def execGminF (f : GF) (s : State) : Result := laneWord (.g 0x105 Rows.gminF f) (grupPoint 0x105 Rows.gminF f) s

/-- GMAX_S (07 R122 to R129): the lane arrives; the operation runs when every live lane of its domain has. -/
def execGmaxS (f : GF) (s : State) : Result := laneWord (.g 0x106 Rows.gmaxS f) (grupPoint 0x106 Rows.gmaxS f) s

/-- GMAX_N (07 R122 to R129): the lane arrives; the operation runs when every live lane of its domain has. -/
def execGmaxN (f : GF) (s : State) : Result := laneWord (.g 0x107 Rows.gmaxN f) (grupPoint 0x107 Rows.gmaxN f) s

/-- GMAX_F (07 R122 to R129): the lane arrives; the operation runs when every live lane of its domain has. -/
def execGmaxF (f : GF) (s : State) : Result := laneWord (.g 0x108 Rows.gmaxF f) (grupPoint 0x108 Rows.gmaxF f) s

/-- GAND (07 R122 to R129): the lane arrives; the operation runs when every live lane of its domain has. -/
def execGand (f : GF) (s : State) : Result := laneWord (.g 0x109 Rows.gand f) (grupPoint 0x109 Rows.gand f) s

/-- GOR (07 R122 to R129): the lane arrives; the operation runs when every live lane of its domain has. -/
def execGor (f : GF) (s : State) : Result := laneWord (.g 0x10A Rows.gor f) (grupPoint 0x10A Rows.gor f) s

/-- GXOR (07 R122 to R129): the lane arrives; the operation runs when every live lane of its domain has. -/
def execGxor (f : GF) (s : State) : Result := laneWord (.g 0x10B Rows.gxor f) (grupPoint 0x10B Rows.gxor f) s

/-- GSCAN_I32_INC (07 R122 to R129): the lane arrives; the operation runs when every live lane of its domain has. -/
def execGscanI32Inc (f : GF) (s : State) : Result := laneWord (.g 0x10C Rows.gscanI32Inc f) (grupPoint 0x10C Rows.gscanI32Inc f) s

/-- GSCAN_I32_EXC (07 R122 to R129): the lane arrives; the operation runs when every live lane of its domain has. -/
def execGscanI32Exc (f : GF) (s : State) : Result := laneWord (.g 0x10D Rows.gscanI32Exc f) (grupPoint 0x10D Rows.gscanI32Exc f) s

/-- GSCAN_F32_INC (07 R122 to R129): the lane arrives; the operation runs when every live lane of its domain has. -/
def execGscanF32Inc (f : GF) (s : State) : Result := laneWord (.g 0x10E Rows.gscanF32Inc f) (grupPoint 0x10E Rows.gscanF32Inc f) s

/-- GSCAN_F32_EXC (07 R122 to R129): the lane arrives; the operation runs when every live lane of its domain has. -/
def execGscanF32Exc (f : GF) (s : State) : Result := laneWord (.g 0x10F Rows.gscanF32Exc f) (grupPoint 0x10F Rows.gscanF32Exc f) s

/-- GSEG_I32 (07 R122 to R129): the lane arrives; the operation runs when every live lane of its domain has. -/
def execGsegI32 (f : GF) (s : State) : Result := laneWord (.g 0x110 Rows.gsegI32 f) (grupPoint 0x110 Rows.gsegI32 f) s

/-- GSEG_F32 (07 R122 to R129): the lane arrives; the operation runs when every live lane of its domain has. -/
def execGsegF32 (f : GF) (s : State) : Result := laneWord (.g 0x111 Rows.gsegF32 f) (grupPoint 0x111 Rows.gsegF32 f) s

/-- GBCAST (07 R122 to R129): the lane arrives; the operation runs when every live lane of its domain has. -/
def execGbcast (f : GF) (s : State) : Result := laneWord (.g 0x112 Rows.gbcast f) (grupPoint 0x112 Rows.gbcast f) s

/-- GSHUF (07 R122 to R129): the lane arrives; the operation runs when every live lane of its domain has. -/
def execGshuf (f : GF) (s : State) : Result := laneWord (.g 0x113 Rows.gshuf f) (grupPoint 0x113 Rows.gshuf f) s

/-- GSHUFX (07 R122 to R129): the lane arrives; the operation runs when every live lane of its domain has. -/
def execGshufx (f : GF) (s : State) : Result := laneWord (.g 0x114 Rows.gshufx f) (grupPoint 0x114 Rows.gshufx f) s

/-- GVOTE (07 R122 to R129): the lane arrives; the operation runs when every live lane of its domain has. -/
def execGvote (f : GF) (s : State) : Result := laneWord (.g 0x115 Rows.gvote f) (grupPoint 0x115 Rows.gvote f) s

/-- GCNT (07 R122 to R129): the lane arrives; the operation runs when every live lane of its domain has. -/
def execGcnt (f : GF) (s : State) : Result := laneWord (.g 0x116 Rows.gcnt f) (grupPoint 0x116 Rows.gcnt f) s

/-- GELECT (07 R122 to R129): the lane arrives; the operation runs when every live lane of its domain has. -/
def execGelect (f : GF) (s : State) : Result := laneWord (.g 0x117 Rows.gelect f) (grupPoint 0x117 Rows.gelect f) s

/-- GRANK (07 R122 to R129): the lane arrives; the operation runs when every live lane of its domain has. -/
def execGrank (f : GF) (s : State) : Result := laneWord (.g 0x118 Rows.grank f) (grupPoint 0x118 Rows.grank f) s

/-- GSYNC (07 R122 to R129): the lane arrives; the operation runs when every live lane of its domain has. -/
def execGsync (f : GF) (s : State) : Result := laneWord (.g 0x119 Rows.gsync f) (grupPoint 0x119 Rows.gsync f) s

/-- GROW (05 R100, R101): the lane arrives; the operation runs when every live lane of its domain has. -/
def execGrow (f : GF) (s : State) : Result := laneWord (.g 0x11A Rows.grow f) (grupPoint 0x11A Rows.grow f) s

/-- SHRINK (05 R100, R101): the lane arrives; the operation runs when every live lane of its domain has. -/
def execShrink (f : GF) (s : State) : Result := laneWord (.g 0x11B Rows.shrink f) (grupPoint 0x11B Rows.shrink f) s

/-- GRANT_SERVE: the request at the head of a core's queue, when its granules are free (05 R99, R101). -/
def execGrantServe (core : Nat) (s : State) : Result := s.happens <| (s.headGrant core).map (fun g => s.serveGrant core g.1 g.2)

end Sys2Proof.Machine
end

