-- ==== Sys2Proof/Machine/Sync.lean ====
section
/-! DEFINITION. Class SYNC (18 R270 to R276): fences, numbered and grid barriers, seals, WAITS and FENCEI; and the completion of memory
operations, after which an arrival may count. -/

namespace Sys2Proof.Machine

/-! ## FENCE (18 R271) -/

/-- A fence comes into force for its group, once for a step (18 R271). -/
def fenceEff (f : SF) (c : Ctx) (s : State) : State :=
  let x : Fence := ⟨f.imm.toNat % 4, s.serial, f.imm.toNat / 4⟩
  s.updGroup c.gk (fun g => if g.fences.contains x then g else { g with fences := g.fences ++ [x] })

/-- The fences of a group that still cover something in flight. -/
def State.pruneFences (s : State) (gk : Nat) : State :=
  if (s.group gk).fences.isEmpty then s
  else s.updGroup gk (fun g => { g with fences := g.fences.filter (fun f => !s.fenceDone gk f) })

/-! ## Barriers (18 R272, R273). Number 16 is the team's share of the grid barrier. -/

def Team.barrier (t : Team) (nb : Nat) : Barrier := t.barriers.getD nb { Barrier.fresh with expected := t.groups }

def State.setBarrier (s : State) (tk nb : Nat) (b : Barrier) : State := s.updTeam tk (fun t => { t with barriers := t.barriers.put nb b })

/-- A lane arrives in the current phase (18 R272). -/
def State.arriveLane (s : State) (gk nb pos : Nat) : State :=
  let b := (s.team (teamOf gk)).barrier nb
  let gi := s.party gk
  s.setBarrier (teamOf gk) nb
    { b with lanes := b.lanes.put gi (b.lanes.getD gi 0 ||| (1#32 <<< pos)), serials := b.serials.put gi s.serial }

/-- Every live lane of a group has arrived in the current phase of a barrier. -/
def State.arrivedInFull (s : State) (gk nb : Nat) : Bool :=
  let m := ((s.team (teamOf gk)).barrier nb).lanes.getD (s.party gk) 0
  m != 0 && (s.liveLanes gk).all (fun p => m.getLsbD p)

/-- Whether a group's arrival in the current phase is complete: counted, or counted as soon as what it releases has been performed (18 R265, R272). -/
def State.arrived (s : State) (gk nb : Nat) : Bool :=
  ((s.team (teamOf gk)).barrier nb).counted.contains (s.party gk) || s.arrivedInFull gk nb

/-- BARA, GBARA: the lane arrives and goes on, or waits to arrive where its group's arrival is already complete (18 R272). -/
def baraEff (nb : Nat) (c : Ctx) (s : State) : State :=
  if s.arrived c.gk nb then s.updLane c.lk (fun l => { l with block := .barArrive nb false })
  else (s.arriveLane c.gk nb c.pos).retire c.lk c.at_

/-- Whether a lane of BARW waits: the last counted arrival of its group is of the current phase, or the group has arrived in it and is counted as soon as
what the arrival releases has been performed (18 R265, R272). -/
def State.barrierWaits (s : State) (gk nb : Nat) : Bool :=
  let b := (s.team (teamOf gk)).barrier nb
  b.last.get? (s.party gk) == some b.phase.toNat || s.arrivedInFull gk nb

/-- BARW, GBARW: the lane waits for the phase of its group's last counted arrival (18 R272). -/
def barwEff (nb : Nat) (c : Ctx) (s : State) : State :=
  if s.barrierWaits c.gk nb then s.updLane c.lk (fun l => { l with block := .barWait nb ((s.team c.tk).barrier nb).phase.toNat })
  else s.retire c.lk c.at_

/-- BAR: the lane arrives, then waits for the phase it arrived in (18 R272). -/
def barEff (nb : Nat) (c : Ctx) (s : State) : State :=
  let b := (s.team c.tk).barrier nb
  if s.arrived c.gk nb then s.updLane c.lk (fun l => { l with block := .barArrive nb true })
  else (s.arriveLane c.gk nb c.pos).updLane c.lk (fun l => { l with block := .barWait nb b.phase.toNat })

/-- BARI: the expected count changes at the end of the step; the highest lane stands (18 R272). -/
def bariEff (f : SF) (c : Ctx) (s : State) : State := let _ := c; s.leave ⟨0x184, f.imm.toNat % 16, f.imm.toNat / 16⟩

/-- Whether what a group's arrival releases has been performed: for a numbered barrier everything before it (18 R265, Table 18.2); for the grid barrier,
which releases nothing itself, what a releasing fence before it covers (R273, 19 R280). -/
def State.arrivalReleased (s : State) (gk nb serial : Nat) : Bool :=
  if nb = 16 then (s.group gk).fences.all (fun f => f.kind < 2 || serial < f.serial || s.released gk f.serial)
  else s.released gk serial

/-- A group counts once every live lane of it has arrived in this phase and what its arrival releases has been performed (18 R272). -/
def State.countsNow (s : State) (gk nb : Nat) : Bool :=
  let b := (s.team (teamOf gk)).barrier nb
  let gi := s.party gk
  !b.counted.contains gi && s.arrivedInFull gk nb
    && s.arrivalReleased gk nb (b.serials.getD gi 0)

/-- Every group that counts now is counted. -/
def State.countGroups (s : State) (tk nb : Nat) : State :=
  (s.teamGroups tk).foldl (fun s gk =>
    if s.countsNow gk nb then
      let b := (s.team tk).barrier nb
      let gi := s.party gk
      s.setBarrier tk nb { b with counted := b.counted ++ [gi], last := b.last.put gi b.phase.toNat, lanes := b.lanes.del gi }
    else s) s

/-- Groups of a team that have retired. -/
def State.retiredGroups (s : State) (tk : Nat) : List Nat :=
  (List.range (s.team tk).groups).filter (fun gi => (s.group (groupKey tk gi)).retired)

/-- The arrivals of the current phase: counted groups, retired groups, and the sequencer (18 R272). -/
def State.arrivals (s : State) (tk nb : Nat) : Nat :=
  let b := (s.team tk).barrier nb
  b.counted.length + ((s.retiredGroups tk).filter (fun gi => !b.counted.contains gi)).length + b2n b.seq

/-- Lanes that waited for a phase of a barrier go on after it: waiters pass, and lanes held back arrive in the new phase (18 R272). Those of a halted
group stay until it goes on (07 R125). -/
def State.releaseWaiters (s : State) (tk nb : Nat) : State :=
  let ph := ((s.team tk).barrier nb).phase.toNat
  ((s.teamGroups tk).filter (fun gk => !s.groupHalted gk)).foldl (fun s gk =>
    (s.liveLanes gk).foldl (fun s p =>
      let lk := laneKey gk p
      match (s.lane lk).block with
      | .barWait n q => if n = nb ∧ q ≠ ph then (s.retire lk (s.lane lk).nextAt).updLane lk (fun l => { l with block := .free }) else s
      | .barArrive n thenWait =>
        if n = nb ∧ !s.arrived gk nb then
          let s := s.arriveLane gk nb p
          if thenWait then s.updLane lk (fun l => { l with block := .barWait nb ph })
          else (s.retire lk (s.lane lk).nextAt).updLane lk (fun l => { l with block := .free })
        else s
      | _ => s) s) s

/-- The sequencer's wait on a barrier ends with the phase (17 R257); one that is halted looks again when it is resumed (17 R249). -/
def State.releaseSequencer (s : State) (tk nb : Nat) : State :=
  let t := s.team tk
  let on : Sequencer := { t.seqr with wait := .free, spc := t.seqr.spc + 8 }
  if t.trigger.isSome || t.seqr.halted then s
  else
    match t.seqr.wait with
    | .barWait n q => if n = nb ∧ q ≠ (t.barrier nb).phase.toNat then s.setTeam tk { t with seqr := on } else s
    | .barArrive n =>
      if n = nb then
        (s.setTeam tk { t with seqr := on }).setBarrier tk nb
          { t.barrier nb with seq := true, last := (t.barrier nb).last.put 200 (t.barrier nb).phase.toNat }
      else s
    | _ => s

/-- A phase completes: the phase number moves on and arrivals start again (18 R272). -/
def State.completePhase (s : State) (tk nb : Nat) : State :=
  let b := (s.team tk).barrier nb
  let s := s.setBarrier tk nb { b with phase := b.phase + 1, counted := [], lanes := [], serials := [], seq := false }
  let s := if nb < 16 then s.updTeam tk (fun t => { t with phases := t.phases + 1 }) else s
  (s.releaseWaiters tk nb).releaseSequencer tk nb

/-- One numbered barrier brought up to date: groups counted, and its phase completed where the arrivals reach the expected count; `atStep` says that this
is the end of a step of the team, where a phase completes even if nothing new was counted. -/
def State.updateBarrier (s : State) (tk nb : Nat) (atStep : Bool) : State :=
  let s1 := s.countGroups tk nb
  let b := (s1.team tk).barrier nb
  if (atStep || b.counted != ((s.team tk).barrier nb).counted) && b.expected ≤ s1.arrivals tk nb && (b.counted != [] || b.seq || atStep)
    then s1.completePhase tk nb
  else s1

/-- Teams of a grid counted in the grid barrier: each of their groups counted or retired; retired teams count (18 R273). -/
def State.gridArrivals (s : State) (g : Nat) : Nat :=
  let here := s.teams.filter (fun p => p.2.grid == g && p.2.residency != .retired && p.2.residency != .ended)
  let counted := here.filter (fun p =>
    (List.range p.2.groups).all (fun gi => (s.group (groupKey p.1 gi)).retired || (p.2.barrier 16).counted.contains gi)
      && !(p.2.barrier 16).counted.isEmpty)
  counted.length + (s.grid g).retired

/-- The grid barrier of a team's grid brought up to date: its phase completes for every team (18 R273). -/
def State.updateGridBarrier (s : State) (tk : Nat) : State :=
  let g := (s.team tk).grid
  if !(s.team tk).kernel.coop then s
  else
    let s := s.countGroups tk 16
    if (s.grid g).teams ≤ s.gridArrivals g && !((s.team tk).barrier 16).counted.isEmpty then
      (s.teams.filter (fun p => p.2.grid == g)).foldl (fun s p => s.completePhase p.1 16) s
    else s

/-- The barriers of a team brought up to date; lanes of a group that was halted look again. A barrier that was never named has no arrivals and nothing
to do. -/
def State.updateBarriers (s : State) (tk : Nat) (atStep : Bool) : State :=
  let nbs := (s.team tk).barriers.map (·.1)
  (nbs.filter (· < 16)).foldl (fun s nb => s.updateBarrier tk nb atStep) (nbs.foldl (fun s nb => s.releaseWaiters tk nb) (s.updateGridBarrier tk))

/-! ## Seals (18 R268, R274) -/

/-- The seal-operand trap (18 R274). -/
def sealTrapOf (f : SF) (c : Ctx) (s : State) : Option Trap :=
  let base := (s.readOp c.lk f.a 2).1
  let len := (s.readOp c.lk f.b 2).1
  let sp := f.imm.toNat
  let t := s.team c.tk
  let g := if sp = 3 then 65536 else 64
  let alloc := if sp = 0 then t.chamberSize else (s.cavernRange (s.partitionOf c.tk) ((s.group c.gk).core / 64)).2
  let onRing := sp == 0 && t.chutes.any (fun q => match q.2.desc with | some d => overlaps base len (descBase d) (descRing d) | none => false)
  if base % g ≠ 0 || len = 0 || len % g ≠ 0 || (sp < 3 && alloc < base + len) || onRing then some ⟨186, 16, 0⟩ else none

/-- The seal table of a team's partition. -/
def State.sealTable (s : State) (tk : Nat) : AList SealEntry := s.sealTables.getD (s.partitionOf tk) []

/-- A lane waits for the seals of its step (18 R274). -/
def State.awaitSeals (s : State) (c : Ctx) : State := s.updLane c.lk (fun l => { l with block := .op c.st.serial })

/-- The registration of a sealed range, or its end, asked of the part that owns it, where that is another one and a link is up (14 R204, R209). -/
def State.tellSeal (s : State) (gk part key : Nat) (act : OwnerAct) : State :=
  let tbl := s.sealTables.getD part []
  match tbl.get? key with
  | none => s
  | some x =>
    if x.told || x.space != 3 || s.ownAddr x.base then s
    else
      match s.requestTo (vaDev x.base) x.base part (coreSource (s.group gk).core 0) act with
      | none => s
      | some r => { r.2.answered r.1 (vaDev x.base) with sealTables := r.2.sealTables.put part (tbl.put key { x with told := true }) }

/-- Whether the owners of a range have heard of its SEAL or UNSEAL. -/
def SealEntry.heard (x : SealEntry) (s : State) : Bool := x.told || x.space != 3 || s.ownAddr x.base || !s.present (vaDev x.base)

/-- SEAL: the lowest free entry is registered in every core's copy from issue on; the result comes when the seal completes (18 R268, R274). -/
def sealEff (f : SF) (c : Ctx) (s : State) : State :=
  let base := (s.readOp c.lk f.a 2).1
  let len := (s.readOp c.lk f.b 2).1
  let part := s.partitionOf c.tk
  let tbl := s.sealTable c.tk
  match (List.range 16).find? (fun e => (tbl.get? e).isNone) with
  | none => (s.writeOp c.lk f.d 1 (2 ^ 32 - 1)).awaitSeals c
  | some e =>
    let x : SealEntry :=
      { space := f.imm.toNat, base := (if f.imm.toNat = 3 then s.normVa base else base), len := len, team := c.tk,
        die := (s.group c.gk).core / 64, by_ := s.serial, ready := false, told := false }
    let s := { s with sealTables := s.sealTables.put part (tbl.put e x) }
    ((s.addOp c 0 0 0 (.sealing e true f.d)).tellSeal c.gk part e (.register len)).awaitSeals c

/-- UNSEAL: an entry beyond 15 or empty gives 1; else it is cleared: its number is free at once for the lanes above, and its range stays sealed until the
UNSEAL completes (18 R268, R274). -/
def unsealEff (f : SF) (c : Ctx) (s : State) : State :=
  let e := (s.readOp c.lk f.a 1).1
  let part := s.partitionOf c.tk
  let tbl := s.sealTable c.tk
  match if e < 16 then tbl.get? e else none with
  | none => (s.writeOp c.lk f.d 1 1).awaitSeals c
  | some x =>
    let key := 16 * (1 + s.serial) + e
    let s := { s with sealTables := s.sealTables.put part ((tbl.del e).put key { x with told := false }) }
    ((s.addOp c 0 0 0 (.sealing key false f.d)).tellSeal c.gk part key (.unregister x.len)).awaitSeals c

/-- The lanes of a step whose seals have all completed go on (18 R274). -/
def State.endSeals (s : State) (gk step : Nat) : State :=
  if (s.group gk).ops.any (fun o => o.step == step && (o.kind matches .sealing ..)) then s
  else
    (s.liveLanes gk).foldl (fun s p =>
      let lk := laneKey gk p
      match (s.lane lk).block with
      | .op id => if id = step then (s.retire lk (s.lane lk).nextAt).updLane lk (fun l => { l with block := .free }) else s
      | _ => s) s

/-- Whether an operation in flight or a command of the partition, issued before a serial, or a collective whose first contributor came before it, still has to write bytes of a range (18 R268). -/
def State.writesPending (s : State) (part serial : Nat) (e : SealEntry) : Bool :=
  s.groups.any (fun g => s.partitionOf (teamOf g.1) == part
      && g.2.ops.any (fun o => o.id < serial && o.kind.writes && o.space == e.space
        && (e.space != 0 || teamOf g.1 == e.team) && (e.space != 1 || g.2.core / 64 == e.die)
        && (match o.kind.place with | some p => overlaps o.off p.2 e.base e.len | none => false)))
    || s.cmds.any (fun c => s.partitionOf (teamOf c.2.group) == part && c.1 < serial && c.2.st != .done
        && (c.2.dest s).any (fun r => r.1 == e.space && (e.space != 0 || teamOf c.2.group == e.team)
          && (e.space != 1 || (s.group c.2.group).core / 64 == e.die) && overlaps r.2.1 r.2.2 e.base e.len))
    || s.colls.any (fun c => c.2.partition == part && c.2.opened < serial && e.space == 3
        && (overlaps (s.normVa (collResult c.2.desc)) (collSize c.2.desc * collCount c.2.desc) e.base e.len
          || (collStatus c.2.desc != 0 && overlaps (s.normVa (collStatus c.2.desc)) 8 e.base e.len)
          || (collSignal c.2.desc != 0 && overlaps (s.normVa (collSignal c.2.desc)) 8 e.base e.len)))

/-! ## WAITS and FENCEI (18 R275, R276) -/

/-- WAITS forms and checks its access as a load does; mode 1 completes it at once (18 R275). -/
def waitsEff (f : MF) (c : Ctx) (s : State) : State :=
  withAccess (accessM f 4 c s) (fun x s =>
    if x.drop then (s.landRegs c.lk (regWrites f.d 1 0) flagOOB).retire c.lk c.at_
    else
      let d := s.readOp c.lk f.d 1
      (d.2.addOp c 0 x.space x.off (.waits x.phys (BitVec.ofNat 32 d.1) f.d false)).updLane c.lk (fun l => { l with block := .op s.serial }))

def waitsPoint (f : MF) : Point := holding (fun c s => accessTrap s c.gk 4 false (accessM f 4 c s).1) (waitsEff f)

/-- FENCEI: the lane waits for the invalidation (18 R276). -/
def fenceiEff (c : Ctx) (s : State) : State :=
  (s.addOp c 0 0 0 .fencei).updLane c.lk (fun l => { l with block := .op s.serial })

/-- Every clause of a team's image leaves the instruction caches of the team's cores (18 R276). -/
def State.invalidate (s : State) (tk : Nat) : State :=
  let t := s.team tk
  t.cores.foldl (fun s c => s.updCore c (fun x => { x with icache := x.icache.filter (fun k => k.1 != t.kernel.image) })) s

/-- A lane goes on after the operation it waited for. -/
def State.passOp (s : State) (o : LaneOp) : State :=
  (s.retire o.lane (s.lane o.lane).nextAt).updLane o.lane (fun l => { l with block := .free })

/-! ## The meanings -/


/-- FENCE (18 R271 to R276). -/
def execFence (f : SF) (s : State) : Result := laneWord (.s 0x180 Rows.fence f) (plain (fenceEff f)) s

/-- BAR (18 R271 to R276). -/
def execBar (f : SF) (s : State) : Result := laneWord (.s 0x181 Rows.bar f) (holding (fun _ _ => none) (barEff (f.imm.toNat % 16))) s

/-- BARA (18 R271 to R276). -/
def execBara (f : SF) (s : State) : Result := laneWord (.s 0x182 Rows.bara f) (holding (fun _ _ => none) (baraEff (f.imm.toNat % 16))) s

/-- BARW (18 R271 to R276). -/
def execBarw (f : SF) (s : State) : Result := laneWord (.s 0x183 Rows.barw f) (holding (fun _ _ => none) (barwEff (f.imm.toNat % 16))) s

/-- BARI (18 R271 to R276). -/
def execBari (f : SF) (s : State) : Result := laneWord (.s 0x184 Rows.bari f) (plain (bariEff f)) s

/-- GBARA (18 R271 to R276). -/
def execGbara (f : SF) (s : State) : Result := laneWord (.s 0x185 Rows.gbara f) (holding (fun _ _ => none) (baraEff 16)) s

/-- GBARW (18 R271 to R276). -/
def execGbarw (f : SF) (s : State) : Result := laneWord (.s 0x186 Rows.gbarw f) (holding (fun _ _ => none) (barwEff 16)) s

/-- SEAL (18 R271 to R276). -/
def execSealRange (f : SF) (s : State) : Result := laneWord (.s 0x187 Rows.sealRange f) (holding (sealTrapOf f) (sealEff f)) s

/-- UNSEAL (18 R271 to R276). -/
def execUnsealEntry (f : SF) (s : State) : Result := laneWord (.s 0x188 Rows.unsealEntry f) (holding (fun _ _ => none) (unsealEff f)) s

/-- WAITS (18 R271 to R276). -/
def execWaits (f : MF) (s : State) : Result := laneWord (.m 0x189 Rows.waits f) (waitsPoint f) s

/-- FENCEI (18 R271 to R276). -/
def execFencei (f : SF) (s : State) : Result := laneWord (.s 0x18A Rows.fencei f) (holding (fun _ _ => none) fenceiEff) s

/-- MEMS_COMPLETE: a memory operation in flight is performed at its host and completes; its result, flags and counters land (11 R166). -/
def execMemsComplete (gk op : Nat) (s : State) : Result := s.happens <|
  match (s.group gk).op? op with
  | some o =>
    if o.kind.isAccess && !(o.kind matches .xtld ..) && s.mayPerform gk o then
      some ((((s.perform gk o).dropOp gk o).pruneFences gk).updateBarriers (teamOf gk) false)
    else none
  | none => none

/-- Whether an earlier store of the group to bytes of its queue is still to be performed. -/
def State.storesTo (s : State) (gk id a n : Nat) : Bool :=
  (s.group gk).ops.any (fun o => o.id < id && o.kind.writes && (match o.kind.place with | some p => overlaps p.1 p.2 a n | none => false))

/-- WAITS_WAKE: the word at its host differs from the comparand; the lane receives it and goes on (18 R275). It reads its host, so it follows its group's
own earlier stores there. -/
def execWaitsWake (gk op : Nat) (s : State) : Result := s.happens <|
  match (s.group gk).op? op with
  | some o =>
    (match o.kind with
     | .waits a cmp dst _ =>
       let x := leNat (s.mem.readBytes a 4)
       if x ≠ cmp.toNat && !s.groupHalted gk && s.mayPerform gk o && !s.storesTo gk o.id a 4 && (s.team (teamOf gk)).residency = .resident then
         some (((((s.watchLane gk o a 4 true false).landRegs o.lane (regWrites dst 1 x) 0).dropOp gk o).passOp o).pruneFences gk)
       else none
     | _ => none)
  | none => none

/-- FENCEI_COMPLETE: the caches of the team's cores hold no clause of its image, and the lane goes on (18 R276). -/
def execFenceiComplete (gk op : Nat) (s : State) : Result := s.happens <|
  match (s.group gk).op? op with
  | some o =>
    (match o.kind with
     | .fencei => some (((s.invalidate (teamOf gk)).dropOp gk o).passOp o)
     | _ => none)
  | none => none

/-- A SEAL completes: its entry holds from now on (18 R268). -/
def State.sealDone (s : State) (gk part key : Nat) (x : SealEntry) (o : LaneOp) (dst : Operand) (e : Nat) : State :=
  let s := { s with sealTables := s.sealTables.put part ((s.sealTables.getD part []).put key { x with ready := true }) }
  ((s.landRegs o.lane (regWrites dst 1 e) 0).dropOp gk o).endSeals gk o.step

/-- An UNSEAL completes: the range's replicas and its registration are gone (14 R204, 18 R274). -/
def State.unsealDone (s : State) (gk part key : Nat) (x : SealEntry) (o : LaneOp) (dst : Operand) : State :=
  let s := { s with
    sealTables := s.sealTables.put part ((s.sealTables.getD part []).del key),
    replicas := s.replicas.filter (fun r => !(r.partition == part && x.space == 3 && overlaps (r.page * 65536) 65536 x.base x.len)) }
  ((s.landRegs o.lane (regWrites dst 1 0) 0).dropOp gk o).endSeals gk o.step

/-- SEAL_COMPLETE: every owner has registered the range and every earlier write into it has been performed; or an entry's replicas and
registrations are gone and it is cleared everywhere (18 R268, R274). Where another part owns the range, the event is its answer (14 R204). -/
def execSealComplete (gk op : Nat) (s : State) : Result := s.happens <|
  match (s.group gk).op? op with
  | some o =>
    (match o.kind with
     | .sealing e opening dst =>
       let part := s.partitionOf (teamOf gk)
       let tbl := s.sealTables.getD part []
       if opening then
         match tbl.find? (fun k => k.2.by_ == o.id) with
         | some (key, x) =>
           if !x.heard s then some (s.tellSeal gk part key (.register x.len))
           else if s.writesPending part o.id x then none
           else some (s.sealDone gk part key x o dst e)
         | none => none
       else
         match tbl.get? e with
         | some x =>
           if !x.heard s then some (s.tellSeal gk part e (.unregister x.len))
           else if !x.ready then none
           else some (s.unsealDone gk part e x o dst)
         | none => none
     | _ => none)
  | none => none

end Sys2Proof.Machine
end

