-- ==== Sys2Proof/Machine/Matrix.lean ====
section
/-! DEFINITION. The matrix engine (17): the exact accumulator, draining, the sequencer and its stream words, and the lane-side points. -/

namespace Sys2Proof.Machine

/-! ## The accumulator (17 R241 to R243) -/

def Team.tile (t : Team) (n : Nat) : Tile := t.tiles.getD n Tile.zero
def Tile.cell (t : Tile) (i j : Nat) : Cell := t.cells.getD (32 * i + j) Cell.zero

def accMax : Int := 2 ^ 575 - 1
def accMin : Int := -(2 ^ 575)
/-- The modulus of a shadow (17 R256). -/
def shadowMod : Int := 2 ^ 61 - 1

def Cell.stateBits (c : Cell) : Nat := b2n c.pinf + 2 * b2n c.ninf + 4 * b2n c.nan + 8 * b2n c.ovf

/-- The shadow a cell would have (17 R256). -/
def Cell.shadowed (c : Cell) : Cell := { c with shadowV := (c.v % shadowMod).toNat, shadowBits := c.stateBits }

/-- Whether a cell agrees with its shadow. -/
def Cell.agrees (c : Cell) : Bool := c.shadowV == (c.v % shadowMod).toNat && c.shadowBits == c.stateBits

/-- AddToCell: exact, pinned at a bound with ovf (17 R243). -/
def Cell.addExact (c : Cell) (x : Int) : Cell :=
  if c.ovf then c
  else
    let v := c.v + x
    if accMax < v then { c with v := accMax, ovf := true }
    else if v < accMin then { c with v := accMin, ovf := true }
    else { c with v := v }

/-- One product (17 R242) of elements under a sum of scales: the cell, and whether NV is noted. -/
def Cell.product (c : Cell) (scale : Int) (a b : TVal) : Cell × Bool :=
  match a, b with
  | .nan, _ => ({ c with nan := true }, false)
  | _, .nan => ({ c with nan := true }, false)
  | .inf m, .inf n => (if m = n then { c with pinf := true } else { c with ninf := true }, false)
  | .inf m, .fin q _ => if q = 0 then ({ c with nan := true }, true) else (if m = decide (q < 0) then { c with pinf := true } else { c with ninf := true }, false)
  | .fin q _, .inf m => if q = 0 then ({ c with nan := true }, true) else (if m = decide (q < 0) then { c with pinf := true } else { c with ninf := true }, false)
  | .fin p x, .fin q y => (c.addExact (p * q * 2 ^ (x + y + scale + 284).toNat), false)

/-- The products of a cell over a K range, and over its shadow's copy in redundant mode (17 R254, R256). -/
def macCell (red : Bool) (scale : Int) (ks : List (TVal × TVal)) (c : Cell) : Cell × Bool :=
  let r := ks.foldl (fun (acc : Cell × Bool) p => let x := acc.1.product scale p.1 p.2; (x.1, acc.2 || x.2)) (c, false)
  if red then
    -- the second computation runs over the same cell as the shadow stands for it
    let again := ks.foldl (fun (acc : Cell) p => (acc.product scale p.1 p.2).1) c
    let drift : Int := (c.shadowV : Int) - c.v % shadowMod
    ({ r.1 with
        shadowV := ((again.v + drift) % shadowMod).toNat,
        shadowBits := c.shadowBits ||| again.stateBits }, r.2)
  else r

/-! ## Draining (17 R244, R245) -/

def modeOfDrain (m : Nat) : Nat := m + 1

/-- What a drained element is: its encoding in a row-major target, its significand and exponent byte in planes, and the flags raised. -/
structure Drained where
  code : Nat
  q : Int
  x : Nat
  flags : Flags
  deriving DecidableEq, Repr

/-- An encoded float as planes hold it (17 R237). -/
def floatPlane (f : Fmt) (code : Nat) : Int × Nat :=
  let fr := code % 2 ^ f.fbits
  let ex := code / 2 ^ f.fbits % 2 ^ f.ebits
  let sg : Int := if code / 2 ^ (f.ebits + f.fbits) % 2 = 1 then -1 else 1
  if ex = 2 ^ f.ebits - 1 then ((if fr = 0 then sg else 0), 255)
  else (sg * ((fr + (if ex = 0 then 0 else 2 ^ f.fbits) : Nat) : Int), (if ex = 0 then 1 else ex))

/-- A cell drained to a float format. -/
def drainFloat (f : Fmt) (mode : Nat) (s : Int) (c : Cell) : Drained :=
  let of := flagIf c.ovf flagOF
  let r : Nat × Flags :=
    if c.nan || (c.pinf && c.ninf) then (f.nan, flagIf (c.pinf && c.ninf) flagNV)
    else if c.pinf then (f.inf false, 0)
    else if c.ninf then (f.inf true, 0)
    else if c.v = 0 then (0, 0)
    else f.round (modeOfDrain mode) (c.v < 0) c.v.natAbs 1 (-284 - s)
  let p := floatPlane f r.1
  { code := r.1, q := p.1, x := p.2, flags := r.2 ||| of }

/-- A cell drained to INT32 or INT8. -/
def drainInt (w mode : Nat) (s : Int) (c : Cell) : Drained :=
  let of := flagIf c.ovf flagOF
  let r : Int × Flags :=
    if c.nan || (c.pinf && c.ninf) then (0, flagNV)
    else if c.pinf then (maxS w, flagNV)
    else if c.ninf then (minS w, flagNV)
    else
      let x := toInteger (modeOfDrain mode) (c.v < 0) c.v.natAbs (-284 - s)
      let y := clampInt x.1 (minS w) (maxS w)
      (y, flagIf (y != x.1) flagOF ||| flagIf x.2 flagNX)
  { code := ofSigned w r.1, q := r.1, x := 0, flags := r.2 ||| of }

/-- Q of a value V × 2^-284-s at an exponent E (17 R245), and whether it is exact. -/
def bfpQ (m : Nat) (s v : Int) (e : Nat) : Int × Bool :=
  let x := toInteger 1 (v < 0) v.natAbs (-284 - s + 127 + m - 1 - e)
  (x.1, !x.2)

/-- A row of a tile drained to a BFP block (17 R245): the exponent byte, the significands and the flags. -/
def drainBlock (m : Nat) (s : Int) (row : List Cell) : Nat × List Int × Flags :=
  let of := row.foldl (fun fl c => fl ||| flagIf c.ovf flagOF) 0
  if row.any (fun c => c.nan || c.pinf || c.ninf) then
    (255, row.map (fun _ => 0), of ||| flagIf (row.any (fun c => if c.nan then c.pinf && c.ninf else c.pinf || c.ninf)) flagNV)
  else
    let fits (e : Nat) : Bool := row.all (fun c => let q := (bfpQ m s c.v e).1; minS m ≤ q && q ≤ maxS m)
    let inexact (e : Nat) : Bool := row.any (fun c => !(bfpQ m s c.v e).2)
    match (List.range 255).find? fits with
    | some e => (e, row.map (fun c => (bfpQ m s c.v e).1), of ||| flagIf (inexact e) flagNX ||| flagIf (e == 0 && inexact e) flagUF)
    | none => (254, row.map (fun c => clampInt (bfpQ m s c.v 254).1 (minS m) (maxS m)), of ||| flagOF ||| flagIf (inexact 254) flagNX)

/-! ## Traps of the stream (17 R252, R255) -/

/-- The detail word of 17 Table 17.5. -/
def mdetail (reason tta ttb ti tj acc soff : Nat) : Nat :=
  reason * 2 ^ 56 + tta * 2 ^ 48 + ttb * 2 ^ 40 + ti * 2 ^ 32 + tj * 2 ^ 24 + acc * 2 ^ 22 + soff % 2 ^ 20

/-- The group on whose behalf the sequencer runs: that of the MSTART whose stream runs. -/
def State.streamGroup (s : State) (tk : Nat) : Nat :=
  match s.cmds.get? (s.team tk).seqr.starter with
  | some c => c.group
  | none => groupKey tk 0

/-- The stream ends: oc.mtx of its starter falls (17 R248). -/
def State.endStream (s : State) (tk : Nat) (fault : Bool) : State :=
  let k := (s.team tk).seqr.starter
  (s.updTeam tk (fun t => { t with seqr := { t.seqr with run := false, wait := .free, fault := fault } })).finish k

/-- A stream fault (02 R48, 17 R252): the trap is recorded with an empty mask, and the stream ends. -/
def State.streamTrap (s : State) (tk cause detail : Nat) : State :=
  let gk := s.streamGroup tk
  let spc := (s.team tk).seqr.spc
  (takeTrap s gk ⟨0, cause, detail⟩ 0 (BitVec.ofNat 32 spc) true).endStream tk true

/-- Byte ranges of the chamber inside its allocation. -/
def rangesIn (t : Team) (rs : List (Nat × Nat)) : Bool := rs.all (fun r => r.1 + r.2 ≤ t.chamberSize)

/-! ## A stream word in progress -/

/-- Watchpoints met by the sequencer over chamber ranges (22 R304); a range is taken in pieces that lie on one core. -/
def State.watchSeq (s : State) (tk : Nat) (rs : List (Nat × Nat)) (reads writes : Bool) : State :=
  let t := s.team tk
  let pieces := rs.flatMap (fun r => (List.range (r.2 / 4096 + 2)).filterMap (fun k =>
    let lo := if k = 0 then r.1 else (r.1 / 4096 + k) * 4096
    let hi := min (r.1 + r.2) ((r.1 / 4096 + k + 1) * 4096)
    if lo < hi then some (lo, hi - lo) else none))
  pieces.foldl (fun s p => s.watch (s.streamGroup tk) (t.chamberPhys p.1) p.2 reads writes 3 0 (BitVec.ofNat 32 t.seqr.spc) 0) s

def State.updSeqr (s : State) (tk : Nat) (f : Sequencer → Sequencer) : State := s.updTeam tk (fun t => { t with seqr := f t.seqr })

/-- The sequencer moves on to the next word. -/
def State.nextWord (s : State) (tk : Nat) : State := s.updSeqr tk (fun q => { q with spc := q.spc + 8, wait := .free })

/-- Bytes of a chamber written by the sequencer, one by one. -/
def State.putBytes (s : State) (tk : Nat) (bs : List (Nat × Byte)) : State :=
  let t := s.team tk
  bs.foldl (fun s b => s.setMem (s.mem.write (t.chamberPhys b.1) b.2)) s

/-- What a stream word is to its meaning: the trap it raises (cause and detail), and its effect, which moves the sequencer on. -/
structure StreamPoint where
  own : Nat → State → Option (Nat × Nat)
  eff : Nat → State → State

/-- THE MEANING OF A STREAM WORD: the sequencer of the team whose turn it is completes the word at spc, or ends in a stream fault, which changes
nothing else (17 R247, R255). -/
def streamWord (p : StreamPoint) (s : State) : Result :=
  match s.turn with
  | .stream tk =>
    let s := s.setTurn .idle
    .next (match p.own tk s with
      | some (cause, detail) => s.streamTrap tk cause detail
      | none => p.eff tk (s.watchSeq tk [((s.team tk).seqr.spc, 8)] true false))
  | _ => .fault .noWordHere

def simple (eff : Nat → State → State) : StreamPoint := { own := fun _ _ => none, eff := eff }

/-- The matrix-operand trap with a reason. -/
def operandTrap (detail : Nat) : Option (Nat × Nat) := some (28, detail)

/-- Traps in order: the first reason that holds. -/
def reasons (soff tta ttb ti tj acc : Nat) (xs : List (Nat × Bool)) : Option (Nat × Nat) :=
  match xs.find? (fun x => x.2) with
  | some (r, _) => operandTrap (mdetail r tta ttb ti tj acc soff)
  | none => none

/-- A seal over bytes the sequencer would write (17 R255). -/
def State.streamSeal (s : State) (tk : Nat) (rs : List (Nat × Nat)) : Option (Nat × Nat) :=
  (rs.findSome? (fun r => s.sealHit tk ((s.team tk).cores.getD 0 0 / 64) 0 r.1 r.2)).map (fun e => (15, e))

/-- The redundant-mode comparison (17 R256). -/
def mismatch (t : Team) (acc : Nat) (pos : Option (Nat × Nat)) : Option (Nat × Nat) :=
  let x := t.tile acc
  let ij := pos.getD (x.ti, x.tj)
  if t.seqr.red && (x.cells.any (fun c => !c.2.agrees)) then some (29, mdetail 0 x.tta x.ttb ij.1 ij.2 acc t.seqr.spc) else none

def State.noteMatrix (s : State) (tk : Nat) (f : Flags) : State :=
  let bits4 : BitVec 4 := BitVec.ofNat 4 (b2n (f.getLsbD 0) + 2 * b2n (f.getLsbD 1) + 4 * b2n (f.getLsbD 2) + 8 * b2n (f.getLsbD 4))
  s.updSeqr tk (fun q => { q with status := q.status ||| bits4 })

/-! ## MSEL, MMAC, MZERO, MSCL -/

/-- The tensor of a slot with its id. -/
def Team.slot (t : Team) (p : Nat) : Option (Entry × Nat) := t.seqr.slots.get? p

def mselPoint (f : MSF) : StreamPoint :=
  { own := fun tk s =>
      let t := s.team tk
      let m := f.tt.toNat
      let e := t.tt.getD m 0
      reasons t.seqr.spc m 0 0 0 0
        [(2, 64 * t.kernel.acc ≤ m), (3, ttRowMajor e || 12 ≤ ttFmt e), (4, !rangesIn t (footprint e))]
    eff := fun tk s => (s.updTeam tk (fun t => { t with seqr := { t.seqr with
      slots := t.seqr.slots.put f.oslot.val (t.tt.getD f.tt.toNat 0, f.tt.toNat) } })).nextWord tk }

/-- The chamber ranges an MMAC reads of an operand: the plane blocks of a row block over its K range, and their exponents. -/
def operandRanges (e : Entry) (ti kb n : Nat) : List (Nat × Nat) :=
  let cols := (List.range n).filter (fun k => kb + k < ttEB e)
  if ttRB e ≤ ti then []
  else
    (List.range (planes (ttFmt e))).flatMap (fun j => cols.map (fun k => (blockAt e j ti (kb + k), 128)))
      ++ ((List.range 32).filter (fun r => 32 * ti + r < ttRows e)).flatMap (fun r => cols.filterMap (fun k =>
          if isBfp (ttFmt e) then some (ttExpoff e + (32 * ti + r) * ttEB e + kb + k, 1)
          else if isFloat (ttFmt e) then some (ttExpoff e + (32 * ti + r) * 32 * ttEB e + 32 * (kb + k), 32)
          else none))

def mmacPoint (f : MSF) : StreamPoint :=
  let p := f.oslot.val
  { own := fun tk s =>
      let t := s.team tk
      let a := t.slot p
      let b := t.slot (p + 1)
      let sc : Int := (match a with | some x => ttScale x.1 | none => 0) + (match b with | some x => ttScale x.1 | none => 0)
      let ida := (a.map (·.2)).getD 0
      -- the cause involves B only where both scales make it
      match reasons t.seqr.spc ida 0 f.ti.toNat f.tj.toNat f.acc.val [(1, t.kernel.acc ≤ f.acc.val), (12, a.isNone || b.isNone)] with
      | some tr => some tr
      | none => reasons t.seqr.spc ida ((b.map (·.2)).getD 0) f.ti.toNat f.tj.toNat f.acc.val [(5, decide (sc < -16) || decide (34 < sc))]
    eff := fun tk s =>
      let t := s.team tk
      match t.slot p, t.slot (p + 1) with
      | some (ea, ia), some (eb, ib) =>
        let sc := ttScale ea + ttScale eb
        let k0 := 64 * f.k0.toNat
        let n := 64 * (f.kn.toNat + 1)
        let row (i : Nat) : List TVal := (List.range n).map (fun k => s.elem t ea (32 * f.ti.toNat + i) (k0 + k))
        let col (j : Nat) : List TVal := (List.range n).map (fun k => s.elem t eb (32 * f.tj.toNat + j) (k0 + k))
        let x := t.tile f.acc.val
        let out := (List.range 1024).map (fun ij => (ij, macCell t.seqr.red sc ((row (ij / 32)).zip (col (ij % 32))) (x.cell (ij / 32) (ij % 32))))
        let nv := out.any (fun o => o.2.2)
        let tile : Tile := { cells := out.map (fun o => (o.1, o.2.1)), tta := ia, ttb := ib, ti := f.ti.toNat, tj := f.tj.toNat }
        let s := s.updTeam tk (fun t => { t with tiles := t.tiles.put f.acc.val tile })
        let s := s.watchSeq tk (operandRanges ea f.ti.toNat (2 * f.k0.toNat) (2 * (f.kn.toNat + 1))
          ++ operandRanges eb f.tj.toNat (2 * f.k0.toNat) (2 * (f.kn.toNat + 1))) true false
        (s.noteMatrix tk (flagIf nv flagNV)).nextWord tk
      | _, _ => s }

/-- MZERO clears a tile, its shadows and its record, and traps for nothing of its own (17 R254 to R256). Of a tile that the team does not hold no word reads
anything: each that names it traps for reason 1. -/
def mzeroPoint (f : MSF) : StreamPoint :=
  { own := fun _ _ => none
    eff := fun tk s => (s.updTeam tk (fun t => { t with tiles := t.tiles.put f.acc.val Tile.zero })).nextWord tk }

def mscalePoint (f : MSF) : StreamPoint :=
  let p := f.oslot.val
  { own := fun tk s =>
      let t := s.team tk
      let x := t.slot p
      let sc : Int := (match x with | some y => ttScale y.1 | none => 0) + toSigned 8 f.k0.toNat
      reasons t.seqr.spc ((x.map (·.2)).getD 0) 0 0 0 0 [(12, x.isNone), (5, decide (sc < -128) || decide (127 < sc))]
    eff := fun tk s => (s.updTeam tk (fun t =>
      match t.slot p with
      | some (e, id) =>
        let sc := ofSigned 8 (ttScale e + toSigned 8 f.k0.toNat)
        { t with seqr := { t.seqr with slots := t.seqr.slots.put p ((e &&& ~~~(0xFF00#128)) ||| (BitVec.ofNat 128 (sc * 256)), id) } }
      | none => t)).nextWord tk }

/-! ## MDRAIN, MLDACC, MSTACC -/

/-- The elements of a tile that a tensor takes: (i, j) pairs. -/
def drainCells (e : Entry) (ti tj : Nat) : List (Nat × Nat) :=
  ((List.range 32).filter (fun i => 32 * ti + i < ttRows e)).flatMap (fun i =>
    ((List.range 32).filter (fun j => 32 * tj + j < ttCols e)).map (fun j => (i, j)))

/-- Chamber bytes an MDRAIN writes, in ranges. -/
def drainRanges (e : Entry) (ti tj : Nat) : List (Nat × Nat) :=
  let rows := (List.range 32).filter (fun i => 32 * ti + i < ttRows e)
  let n := min 32 (ttCols e - 32 * tj)
  if n = 0 then []
  else if ttRowMajor e then
    rows.map (fun i =>
      let at_ := ttBase e + (32 * ti + i) * ttRstride e
      match ttFmt e with
      | 7 => (at_ + 32 * tj, n)
      | 10 => (at_ + 64 * tj, 2 * n)
      | 11 => (at_ + 64 * tj, 2 * n)
      | 12 => (at_ + 128 * tj, 4 * n)
      | 13 => (at_ + 128 * tj, 4 * n)
      | m => (at_ + tj * (1 + 4 * (m + 2)), 1 + (n * (m + 2) + 7) / 8))
  else
    (List.range (planes (ttFmt e))).flatMap (fun j => rows.map (fun i => (blockAt e j ti tj + 4 * i, (n + 7) / 8)))
      ++ (if isBfp (ttFmt e) then rows.map (fun i => (ttExpoff e + (32 * ti + i) * ttEB e + tj, 1))
          else if isFloat (ttFmt e) then rows.map (fun i => (ttExpoff e + (32 * ti + i) * 32 * ttEB e + 32 * tj, n))
          else [])

/-- The drained elements of a tile for a target. -/
def drainAll (e : Entry) (mode tj : Nat) (x : Tile) (i : Nat) : List Drained :=
  let n := min 32 (ttCols e - 32 * tj)
  let cells := (List.range n).map (fun j => x.cell i j)
  let s := ttScale e
  match ttFmt e with
  | 7 => cells.map (drainInt 8 mode s)
  | 10 => cells.map (drainFloat f16 mode s)
  | 11 => cells.map (drainFloat bf16 mode s)
  | 12 => cells.map (drainFloat f32 mode s)
  | 13 => cells.map (drainInt 32 mode s)
  | m =>
    let b := drainBlock (m + 2) s cells
    b.2.1.map (fun q => { code := ofSigned (m + 2) q, q := q, x := b.1, flags := b.2.2 })

/-- Bit fields put into little-endian bytes: field `k` of `w` bits, the other bits kept. -/
def putFields (w : Nat) (old : List Byte) (codes : List Nat) : List Byte :=
  let n := leNat old
  let m := codes.zipIdx.foldl (fun acc c => acc - acc / 2 ^ (w * c.2) % 2 ^ w * 2 ^ (w * c.2) + c.1 * 2 ^ (w * c.2)) n
  leBytes old.length m

/-- The bytes of one drained row (17 R238, R239, R254). -/
def State.drainRow (s : State) (t : Team) (e : Entry) (ti tj i : Nat) (ds : List Drained) : List (Nat × Byte) :=
  let row := 32 * ti + i
  let run (at_ : Nat) (bs : List Byte) : List (Nat × Byte) := bs.zipIdx.map (fun b => (at_ + b.2, b.1))
  if ttRowMajor e then
    let at_ := ttBase e + row * ttRstride e
    match ttFmt e with
    | 7 => run (at_ + 32 * tj) (ds.map (fun d => BitVec.ofNat 8 d.code))
    | 10 => run (at_ + 64 * tj) (ds.flatMap (fun d => leBytes 2 d.code))
    | 11 => run (at_ + 64 * tj) (ds.flatMap (fun d => leBytes 2 d.code))
    | 12 => run (at_ + 128 * tj) (ds.flatMap (fun d => leBytes 4 d.code))
    | 13 => run (at_ + 128 * tj) (ds.flatMap (fun d => leBytes 4 d.code))
    | m =>
      let b := at_ + tj * (1 + 4 * (m + 2))
      let len := (ds.length * (m + 2) + 7) / 8
      (b, BitVec.ofNat 8 ((ds.map (·.x)).headD 0)) :: run (b + 1) (putFields (m + 2) (s.chamberRead t (b + 1) len) (ds.map (·.code)))
  else
    let p := planes (ttFmt e)
    (List.range p).flatMap (fun j =>
        let b := blockAt e j ti tj + 4 * i
        run b (putFields 1 (s.chamberRead t b ((ds.length + 7) / 8)) (ds.map (fun d => ofSigned p d.q / 2 ^ j % 2))))
      ++ (if isBfp (ttFmt e) then [(ttExpoff e + row * ttEB e + tj, BitVec.ofNat 8 ((ds.map (·.x)).headD 0))]
          else if isFloat (ttFmt e) then run (ttExpoff e + row * 32 * ttEB e + 32 * tj) (ds.map (fun d => BitVec.ofNat 8 d.x))
          else [])

def mdrainPoint (f : MSF) : StreamPoint :=
  let ti := f.ti.toNat
  let tj := f.tj.toNat
  { own := fun tk s =>
      let t := s.team tk
      let m := f.tt.toNat
      let e := t.tt.getD m 0
      let fm := ttFmt e
      let rs := drainRanges e ti tj
      match reasons t.seqr.spc m 0 ti tj f.acc.val
        [(1, t.kernel.acc ≤ f.acc.val), (2, 64 * t.kernel.acc ≤ m),
         (3, fm == 8 || fm == 9 || 14 ≤ fm || (!ttRowMajor e && 12 ≤ fm)), (4, !rangesIn t rs), (10, isBfp fm && f.mode.val != 0)] with
      | some tr => some tr
      | none => (match s.streamSeal tk rs with | some tr => some tr | none => mismatch t f.acc.val (some (ti, tj)))
    eff := fun tk s =>
      let t := s.team tk
      let e := t.tt.getD f.tt.toNat 0
      let x := t.tile f.acc.val
      let rows := (List.range 32).filter (fun i => 32 * ti + i < ttRows e)
      let out := rows.map (fun i => (i, drainAll e f.mode.val tj x i))
      let fl := out.foldl (fun fl r => r.2.foldl (fun fl d => fl ||| d.flags) fl) 0
      let s1 := out.foldl (fun s r => if r.2.isEmpty then s else s.putBytes tk (s.drainRow t e ti tj r.1 r.2)) s
      ((s1.watchSeq tk (drainRanges e ti tj) false true).noteMatrix tk fl).nextWord tk }

/-- The image of a cell (17 R254). -/
def Cell.image (c : Cell) : List Byte := leBytes 72 (ofSigned 576 c.v) ++ [BitVec.ofNat 8 c.stateBits] ++ List.replicate 7 0

def Cell.ofImage (b : List Byte) : Cell :=
  let st := (b.getD 72 0).toNat
  { v := toSigned 576 (leNat (b.take 72)), pinf := bit st 0, ninf := bit st 1, nan := bit st 2, ovf := bit st 3, shadowV := 0, shadowBits := 0 }

/-- The traps of MLDACC and MSTACC up to the range (17 R255). -/
def cellTraps (t : Team) (f : MSF) : List (Nat × Bool) :=
  let b := ttBase (t.tt.getD f.tt.toNat 0)
  [(1, t.kernel.acc ≤ f.acc.val), (2, 64 * t.kernel.acc ≤ f.tt.toNat), (3, b % 128 != 0), (4, t.chamberSize < b + 81920)]

def mldaccPoint (f : MSF) : StreamPoint :=
  { own := fun tk s =>
      let t := s.team tk
      let b := ttBase (t.tt.getD f.tt.toNat 0)
      let bad := (List.range 1024).any (fun k =>
        let x := s.chamberRead t (b + 80 * k + 72) 8
        16 ≤ (x.headD 0).toNat || (x.drop 1).any (· != 0))
      reasons t.seqr.spc f.tt.toNat 0 0 0 f.acc.val (cellTraps t f ++ [(11, bad)])
    eff := fun tk s =>
      let t := s.team tk
      let b := ttBase (t.tt.getD f.tt.toNat 0)
      let cells := (List.range 1024).map (fun k =>
        let c := Cell.ofImage (s.chamberRead t (b + 80 * k) 80)
        (k, if t.seqr.red then c.shadowed else c))
      let s := s.updTeam tk (fun t => { t with tiles := t.tiles.put f.acc.val { Tile.zero with cells := cells } })
      (s.watchSeq tk [(b, 81920)] true false).nextWord tk }

def mstaccPoint (f : MSF) : StreamPoint :=
  { own := fun tk s =>
      let t := s.team tk
      let b := ttBase (t.tt.getD f.tt.toNat 0)
      match reasons t.seqr.spc f.tt.toNat 0 0 0 f.acc.val (cellTraps t f) with
      | some tr => some tr
      | none => (match s.streamSeal tk [(b, 81920)] with | some tr => some tr | none => mismatch t f.acc.val none)
    eff := fun tk s =>
      let t := s.team tk
      let b := ttBase (t.tt.getD f.tt.toNat 0)
      let x := t.tile f.acc.val
      let bytes := (List.range 1024).flatMap (fun k => (x.cell (k / 32) (k % 32)).image.zipIdx.map (fun y => (b + 80 * k + y.2, y.1)))
      ((s.putBytes tk bytes).watchSeq tk [(b, 81920)] false true).nextWord tk }

/-! ## Control of the stream -/

def mloopPoint (f : MSF) : StreamPoint :=
  { own := fun tk s =>
      let q := (s.team tk).seqr
      reasons q.spc 0 0 0 0 0 [(6, 4 ≤ q.loops.length)]
    eff := fun tk s => (s.updSeqr tk (fun q => { q with loops := (q.spc + 8, f.wide) :: q.loops })).nextWord tk }

def mloopEndPoint : StreamPoint :=
  { own := fun tk s =>
      let q := (s.team tk).seqr
      reasons q.spc 0 0 0 0 0 [(6, q.loops.isEmpty)]
    eff := fun tk s =>
      match (s.team tk).seqr.loops with
      | (start, n) :: rest =>
        if n - 1 = 0 then (s.updSeqr tk (fun q => { q with loops := rest })).nextWord tk
        else s.updSeqr tk (fun q => { q with loops := (start, n - 1) :: rest, spc := start })
      | [] => s }

/-- MJMP: a target below the chamber wraps beyond it, so that its fetch fails (17 R247). -/
def mjmpEff (f : MSF) (tk : Nat) (s : State) : State :=
  s.updSeqr tk (fun q => { q with spc := ofSigned 36 ((q.spc : Int) + 8 * toSigned 32 f.wide) })

/-- Shadows formed in every held tile (17 R256). -/
def Team.formShadows (t : Team) : Team :=
  { t with tiles := (List.range t.kernel.acc).map (fun n => (n, { t.tile n with
      cells := (List.range 1024).map (fun k => (k, ((t.tile n).cell (k / 32) (k % 32)).shadowed)) })) }

def State.setRed (s : State) (tk : Nat) (on : Bool) : State :=
  s.updTeam tk (fun t => let t := { t with seqr := { t.seqr with red := on } }; if on then t.formShadows else t)

/-- The copy commands of a team that are outstanding, those of a group whose state stands in the trap frame among them (17 R254, R257, 21 R287). -/
def State.copiesOut (s : State) (tk : Nat) : Nat :=
  (s.teamGroups tk).foldl (fun acc gk => acc + (s.group gk).outstanding 0) 0
    + (match (s.team tk).frame with | some f => f.group.outstanding 0 | none => 0)

/-- MWAITC: every copy command of the team but n has completed (17 R254). -/
def mwaitcEff (f : MSF) (tk : Nat) (s : State) : State :=
  if s.copiesOut tk ≤ f.k0.toNat then s.nextWord tk else s.updSeqr tk (fun q => { q with wait := .copies f.k0.toNat })

/-- MBARA: the sequencer arrives, or waits to arrive where it is already counted in the phase (17 R257, 18 R272). -/
def mbaraEff (f : MSF) (tk : Nat) (s : State) : State :=
  let nb := f.nb.val
  let b := (s.team tk).barrier nb
  if b.seq then s.updSeqr tk (fun q => { q with wait := .barArrive nb })
  else ((s.setBarrier tk nb { b with seq := true, last := b.last.put 200 b.phase.toNat }).nextWord tk).updateBarrier tk nb true

/-- MBARW: the sequencer waits for the phase of its last arrival (17 R257, 18 R272). -/
def mbarwEff (f : MSF) (tk : Nat) (s : State) : State :=
  let nb := f.nb.val
  let b := (s.team tk).barrier nb
  match b.last.get? 200 with
  | some p => if p = b.phase.toNat then s.updSeqr tk (fun q => { q with wait := .barWait nb p }) else s.nextWord tk
  | none => s.nextWord tk

/-- MEND: the stream ends whatever the loop stack holds (17 R254). -/
def mendEff (tk : Nat) (s : State) : State := (s.nextWord tk).endStream tk false

/-! ## The lane-side points (17 R250 to R252) -/

def laneReason (reason tta : Nat) : Trap := ⟨180, 28, mdetail reason tta 0 0 0 0 0⟩

def ttsetTrap (f : SF) (c : Ctx) (s : State) : Option Trap :=
  let n := f.imm.toNat
  if 64 * (s.team c.tk).kernel.acc ≤ n then some (laneReason 2 n)
  else if !entryOk (BitVec.ofNat 128 (s.readOp c.lk f.a 4).1) then some { laneReason 3 n with rank := 181 }
  else none

/-- TTSET: the entry stands from the end of the step; the highest lane stands (17 R251). -/
def ttsetEff (f : SF) (c : Ctx) (s : State) : State := s.leave ⟨0x160, f.imm.toNat, (s.readOp c.lk f.a 4).1⟩

def ttgetTrap (f : SF) (c : Ctx) (s : State) : Option Trap :=
  if 64 * (s.team c.tk).kernel.acc ≤ f.imm.toNat then some (laneReason 2 f.imm.toNat) else none

/-- TTGET: the entry as held at the start of the step (17 R251). -/
def ttgetEff (f : SF) (c : Ctx) (s : State) : State := s.writeOp c.lk f.d 4 (c.st.tt0.getD f.imm.toNat 0).toNat

def mstartTrap (c : Ctx) (s : State) : Option Trap :=
  let t := s.team c.tk
  if t.kernel.acc = 0 then some { laneReason 9 0 with rank := 179 }
  else if t.seqr.run then some { laneReason 8 0 with rank := 182 }
  else none

/-- Whether a higher lane of the step executes MSTART. -/
def mstartAbove (c : Ctx) (s : State) : Bool :=
  c.st.all.any (fun x => c.pos < x.pos && bits x.word 8 0 == 0x162 && (s.lane (laneKey c.gk x.pos)).guard (SF.ofWord x.word).g)

/-- MSTART: the highest lane of the step starts the stream (17 R248, R251). -/
def mstartEff (f : SF) (c : Ctx) (s : State) : State :=
  let a := (s.readOp c.lk f.a 1).1
  if mstartAbove c s then s
  else
    let k := s.serial
    let redmx := (s.team c.tk).kernel.redmx
    let s := s.issueCommand c { Command.fresh 0x162 3 with word := f.pack 0x162 }
    (s.updSeqr c.tk (fun q =>
      { q with run := true, spc := a, loops := [], status := 0, wait := .free, starter := k, halted := false })).setRed c.tk redmx

/-- MSTOP: a running stream ends after the word in progress (17 R251). -/
def mstopEff (c : Ctx) (s : State) : State := if (s.team c.tk).seqr.run then s.endStream c.tk false else s

/-- The status word of 17 Table 17.4. -/
def Sequencer.word (q : Sequencer) : Nat :=
  q.spc % 2 ^ 20 * 2 ^ 32 + b2n (match q.wait with | .barWait .. => true | .copies _ => true | _ => false) * 2 ^ 12 + b2n q.red * 2 ^ 11
    + b2n q.fault * 2 ^ 10 + b2n q.run * 2 ^ 9 + q.loops.length * 2 ^ 4 + q.status.toNat

/-- MSTAT: 0 in a team without a sequencer (17 R251). -/
def mstatEff (f : SF) (c : Ctx) (s : State) : State :=
  s.writeOp c.lk f.d 2 (if (s.team c.tk).kernel.acc = 0 then 0 else (s.team c.tk).seqr.word)

/-! ## The meanings -/

/-- TTSET (17 R250 to R252). -/
def execTtset (f : SF) (s : State) : Result := laneWord (.s 0x160 Rows.ttset f) (trapping (ttsetTrap f) (ttsetEff f)) s

/-- TTGET (17 R250 to R252). -/
def execTtget (f : SF) (s : State) : Result := laneWord (.s 0x161 Rows.ttget f) (trapping (ttgetTrap f) (ttgetEff f)) s

/-- MSTART (17 R250 to R252). -/
def execMstart (f : SF) (s : State) : Result := laneWord (.s 0x162 Rows.mstart f) (trapping mstartTrap (mstartEff f)) s

/-- MSTOP (17 R250 to R252). -/
def execMstop (f : SF) (s : State) : Result := laneWord (.s 0x163 Rows.mstop f) (plain mstopEff) s

/-- MSTAT (17 R250 to R252). -/
def execMstat (f : SF) (s : State) : Result := laneWord (.s 0x164 Rows.mstat f) (plain (mstatEff f)) s

/-- MMAC (17 R253 to R257). -/
def execMmac (f : MSF) (s : State) : Result := streamWord (mmacPoint f) s

/-- MZERO (17 R253 to R257). -/
def execMzero (f : MSF) (s : State) : Result := streamWord (mzeroPoint f) s

/-- MDRAIN (17 R253 to R257). -/
def execMdrain (f : MSF) (s : State) : Result := streamWord (mdrainPoint f) s

/-- MBARA (17 R253 to R257). -/
def execMbara (f : MSF) (s : State) : Result := streamWord (simple (mbaraEff f)) s

/-- MBARW (17 R253 to R257). -/
def execMbarw (f : MSF) (s : State) : Result := streamWord (simple (mbarwEff f)) s

/-- MLOOP (17 R253 to R257). -/
def execMloop (f : MSF) (s : State) : Result := streamWord (mloopPoint f) s

/-- MLOOP_END (17 R253 to R257). -/
def execMloopEnd (_f : MSF) (s : State) : Result := streamWord (mloopEndPoint) s

/-- MJMP (17 R253 to R257). -/
def execMjmp (f : MSF) (s : State) : Result := streamWord (simple (mjmpEff f)) s

/-- MEND (17 R253 to R257). -/
def execMend (_f : MSF) (s : State) : Result := streamWord (simple mendEff) s

/-- MRED (17 R253 to R257). -/
def execMred (f : MSF) (s : State) : Result := streamWord (simple (fun tk s => (s.setRed tk (f.mode.val == 1)).nextWord tk)) s

/-- MLDACC (17 R253 to R257). -/
def execMldacc (f : MSF) (s : State) : Result := streamWord (mldaccPoint f) s

/-- MSTACC (17 R253 to R257). -/
def execMstacc (f : MSF) (s : State) : Result := streamWord (mstaccPoint f) s

/-- MSEL (17 R253 to R257). -/
def execMsel (f : MSF) (s : State) : Result := streamWord (mselPoint f) s

/-- MSCL (17 R253 to R257). -/
def execMscl (f : MSF) (s : State) : Result := streamWord (mscalePoint f) s

/-- MWAITC (17 R253 to R257). -/
def execMwaitc (f : MSF) (s : State) : Result := streamWord (simple (mwaitcEff f)) s

/-- MNOP (17 R253 to R257). -/
def execMnop (_f : MSF) (s : State) : Result := streamWord (simple (fun tk s => s.nextWord tk)) s

end Sys2Proof.Machine
end

