-- ==== Sys2Proof/Machine/Place.lean ====
section
/-! DEFINITION. Launches and teams: reading an image (01 R15 to R18), the launch checks (01 R35), distribution (04 R77), placement (05 R95 to R97),
what a retired or ended team releases (25 R318, 21 R288), and the completion of a launch (25 R320 to R322). -/

namespace Sys2Proof.Machine

/-! ## Virtual memory as the command processor and Fiaris reach it -/

/-- Bytes of a partition's memory read for a die, page by page; none where one is not mapped. Each translation is that die's (14 R200). -/
def readVaGo (die part : Nat) : Nat → State → Nat → Nat → Option (List Byte) × State
  | 0, s, _, _ => (some [], s)
  | n + 1, s, va, len =>
    if len = 0 then (some [], s)
    else if !s.ownAddr va || vaReserved va then (none, s)
    else
      let k := min len (65536 - va % 65536)
      let r := s.serve (.die die) (vaDie va) part (vaOff va) k none
      match r.1 with
      | .error _ => (none, r.2)
      | .ok b =>
        let t := readVaGo die part n r.2 (va + k) (len - k)
        (t.1.map (fun x => b ++ x), t.2)

def State.readVaFrom (s : State) (die part va len : Nat) : Option (List Byte) × State := readVaGo die part (len / 65536 + 2) s va len

/-- Bytes as the command processor and Fiaris read them: from the hub die. -/
def State.readVa (s : State) (part va len : Nat) : Option (List Byte) × State := s.readVaFrom 4 part va len

/-- Bytes of a partition's memory written from the hub die, page by page. -/
def writeVaGo (part : Nat) : Nat → State → Nat → List Byte → State
  | 0, s, _, _ => s
  | n + 1, s, va, bs =>
    if bs.isEmpty || !s.ownAddr va || vaReserved va then s
    else
      let k := 65536 - va % 65536
      writeVaGo part n (s.serve (.die 4) (vaDie va) part (vaOff va) (min k bs.length) (some (bs.take k))).2 (va + k) (bs.drop k)

def State.writeVa (s : State) (part va : Nat) (bs : List Byte) : State := writeVaGo part (bs.length / 65536 + 2) s va bs

/-- Whether the page of an address is mapped for a partition (01 R35, cause 1). -/
def State.mapped (s : State) (part va : Nat) : Bool :=
  s.ownAddr va && !vaReserved va
    && (match s.walk (vaDie va) part (vaOff va) with
        | .ok l =>
          let pa := if l.page = 27 then bits l.word 51 27 * 2 ^ 27 + vaOff va % 2 ^ 27 else pteFrame l.word + vaOff va % 65536
          (s.spaceOf (vaDie va) part (pteKind l.word) pa).isSome
        | .error _ => false)

def State.mappedRange (s : State) (part va len : Nat) : Bool :=
  len == 0 || (List.range ((va + len - 1) / 65536 - va / 65536 + 1)).all (fun k => s.mapped part ((va / 65536 + k) * 65536))

/-! ## The launch descriptor (01 Tables 1.4, 1.5) and the kernel -/

def dImage (d : BitVec 512) : Nat := descField d 0 63 0
def dGx (d : BitVec 512) : Nat := descField d 8 31 0
def dGy (d : BitVec 512) : Nat := descField d 8 47 32
def dGz (d : BitVec 512) : Nat := descField d 8 63 48
def dLanes (d : BitVec 512) : Nat := descField d 16 15 0
def dSplit (d : BitVec 512) : Nat := descField d 16 23 16
def dFlags (d : BitVec 512) : Nat := descField d 16 31 24
def dPrio (d : BitVec 512) : Nat := descField d 16 39 32
def dPart (d : BitVec 512) : Nat := descField d 16 47 40
def dArgs (d : BitVec 512) : Nat := descField d 24 63 0
def dSignal (d : BitVec 512) : Nat := descField d 32 63 0
def dTimerec (d : BitVec 512) : Nat := descField d 40 63 0
def dParent (d : BitVec 512) : Nat := descField d 48 63 0
def dSig (d : BitVec 512) : Bool := bit (dFlags d) 0
def dTrec (d : BitVec 512) : Bool := bit (dFlags d) 1
def dAfter (d : BitVec 512) : Bool := bit (dFlags d) 2
def dTeams (d : BitVec 512) : Nat := dGx d * dGy d * dGz d

/-- A descriptor with one field replaced. -/
def setDesc (d : BitVec 512) (off hi lo x : Nat) : BitVec 512 :=
  let at_ := 8 * off + lo
  let w := hi + 1 - lo
  BitVec.ofNat 512 (d.toNat - bits d.toNat (8 * off + hi) at_ * 2 ^ at_ + x % 2 ^ w * 2 ^ at_)

/-- The header and image descriptor words of an image (01 R18). -/
def State.kernelAt (s : State) (part image : Nat) : Option Kernel × State :=
  let r := s.readVa part image 16
  (r.1.map (fun b => { image := image, hdr := leNat (b.take 8), idw := leNat (b.drop 8) }), r.2)

/-- What reading an image's header words and entry table for the checks of a launch leaves: the translations made, their accessed bits (14 R200). -/
def State.lookedUp (s : State) (part image : Nat) : State :=
  let r := s.kernelAt part image
  match r.1 with
  | some k => (r.2.readVa part (k.image + 16) (4 * k.entries)).2
  | none => r.2

/-- Where an image ends. -/
def Kernel.extent (k : Kernel) : Nat := if k.imageSize = 0 then k.codeAt + k.codeSize else k.chamberImageAt + k.imageSize

/-- The entry table (01 Table 1.1). -/
def State.entryTable (s : State) (part : Nat) (k : Kernel) : List Nat :=
  let b := (s.readVa part (k.image + 16) (4 * k.entries)).1.getD []
  (List.range k.entries).map (entryOffset b)

/-! ## Room on a core (05 R95, R96) -/

/-- Whether a partition's handler table names an image (05 R96). -/
def State.hasHandlers (s : State) (part : Nat) : Bool :=
  match s.config with
  | some r => (List.range 8).any (fun h => AList.getD r.handlers (part * 8 + h) 0 != 0)
  | none => false

/-- Whether the distributors may place on a core (25 R331, 21 R292, 22 R302). -/
def State.usable (s : State) (core : Nat) : Bool :=
  !(s.core core).retired && !s.coreStopped core && !s.vacating.contains core

/-- Chamber bytes that team core `j` of `k` hosts (05 R97). -/
def chamberShare (kn : Kernel) (k j : Nat) : Nat :=
  let u := (kn.chamber + k - 1) / k
  min ((j + 1) * u) kn.chamber * 4096 - j * u * 4096

/-- Groups that team core `j` of `k` takes (05 R97). -/
def groupShare (g k j : Nat) : Nat := g / k + (if j < g % k then 1 else 0)

/-- Scratchpad ranges held on a core: its deque, and the chambers and spill stacks of resident teams. -/
def State.scratchUsed (s : State) (core : Nat) : List (Nat × Nat) :=
  let c := s.core core
  let dq := (c.dqbase.toNat, c.dqlim.toNat - c.dqbase.toNat)
  let teams := s.teams.filter (fun t => t.2.residency == .resident && t.2.cores.contains core)
  dq :: (teams.map (fun t =>
      let j := t.2.coreIndex core
      (t.2.chamberAt.getD j 0, chamberShare t.2.kernel t.2.cores.length j)))
    ++ (s.coreGroups core).map (fun gk => ((s.group gk).spillAt, (s.team (teamOf gk)).spillSize))

/-- The lowest place for `n` bytes beside the ranges held, at a multiple of `al` (log 12). -/
def firstFit (used : List (Nat × Nat)) (al n : Nat) : Option Nat :=
  if n = 0 then some 0
  else
    let ok (a : Nat) : Bool := a + n ≤ 2 ^ 20 && used.all (fun u => u.2 == 0 || !overlaps a n u.1 u.2)
    ((0 :: used.map (fun u => (u.1 + u.2 + al - 1) / al * al)).filter ok).foldl (fun best a => match best with
      | none => some a
      | some b => some (min a b)) none

/-- Places for a chamber share and `n` spill stacks. -/
def allocSpills (used : List (Nat × Nat)) (spill : Nat) : Nat → Option (List Nat)
  | 0 => some []
  | n + 1 =>
    match firstFit used 1024 spill with
    | none => none
    | some a => (allocSpills (used ++ [(a, spill)]) spill n).map (fun r => a :: r)

/-- What one core of a plan gives. -/
structure Share where
  core : Nat
  groups : Nat
  chamberAt : Nat
  spills : List Nat
  deriving DecidableEq, Repr

/-- Group slots of a core that teams may still take; the kept slot only for a handler (05 R96, 25 Table 25.7). -/
def State.freeSlots (s : State) (part core : Nat) (handler : Bool) : Nat :=
  let all := 8 * (4 - (s.core core).retiredPorts.length)
  let gs := s.coreGroups core
  let handlers := (gs.filter (fun gk => match (s.team (teamOf gk)).kind with | .message _ => true | _ => false)).length
  if handler then (if handlers = 0 then all - gs.length else 0)
  else all - gs.length - (if s.hasHandlers part && handlers = 0 then 1 else 0)

/-- Granules that a placement may take: those free, less what the pending requests need. A request that fits is served before any placement, and one that
does not fit holds back what it needs (05 R99). -/
def State.spareGranules (s : State) (core : Nat) : Nat :=
  (s.core core).grants.foldl (fun n gk => n - (s.group gk).grant.getD 0) (s.freeGranules core).length

/-- Resident teams that hold a core. -/
def State.teamsOn (s : State) (core : Nat) : List (Nat × Team) :=
  s.teams.filter (fun t => t.2.residency == .resident && t.2.cores.contains core)

/-- Whether a core holds its share of a team (05 Table 5.2): `home` says that it is team core 0. A team with accumulators holds the core's one sequencer
with them (17 R246). -/
def State.shareOn (s : State) (part : Nat) (kn : Kernel) (core groups chamber : Nat) (home handler : Bool) : Option Share :=
  let on := s.teamsOn core
  let ctx := on.foldl (fun n t => n + t.2.kernel.xctx) 0
  let taken := (on.filter (fun t => t.2.cores.head? == some core)).any (fun t => t.2.kernel.acc != 0)
  if s.usable core && groups ≤ s.freeSlots part core handler && groups ≤ s.spareGranules core && ctx + kn.xctx ≤ 8
      && (!home || kn.acc = 0 || (!taken && kn.acc ≤ 4)) then
    let used := s.scratchUsed core
    match firstFit used 4096 chamber with
    | none => none
    | some a =>
      (allocSpills (used ++ [(a, chamber)]) (kn.spill * 1024) groups).map (fun sp => ⟨core, groups, a, sp⟩)
  else none

/-- Every share of a team over its cores, or none (05 R97). -/
def State.planOn (s : State) (part : Nat) (kn : Kernel) (g : Nat) (cores : List Nat) (handler : Bool) : Option (List Share) :=
  let shares := cores.zipIdx.map (fun c =>
    s.shareOn part kn c.1 (groupShare g cores.length c.2) (chamberShare kn cores.length c.2) (c.2 == 0) handler)
  if shares.all (fun x => x.isSome) then some (shares.filterMap id) else none

/-- The entry with the greatest weight, the first of them on ties. -/
def maxBy (w : Nat → Nat) : List Nat → Option Nat
  | [] => none
  | x :: xs => match maxBy w xs with
    | some y => if w x < w y then some y else some x
    | none => some x

/-- The `n` entries of greatest weight, in ascending order. -/
def topBy (w : Nat → Nat) (xs : List Nat) : Nat → List Nat
  | 0 => []
  | n + 1 => match maxBy w xs with
    | some x => let r := topBy w (xs.filter (fun y => y != x)) n; (r.filter (fun y => y < x)) ++ x :: r.filter (fun y => x < y)
    | none => []

/-- The place of a team of `g` groups on a cluster: the best single core, else the smallest spread (05 R97). -/
def State.planFor (s : State) (part : Nat) (kn : Kernel) (g cluster : Nat) : Option (List Share) :=
  let cores := ((List.range 8).map (fun i => cluster * 8 + i)).filter s.usable
  match maxBy (fun c => (s.freeGranules c).length) (cores.filter (fun c => (s.planOn part kn g [c] false).isSome)) with
  | some c => s.planOn part kn g [c] false
  | none =>
    [2, 3, 4].findSome? (fun k =>
      let cs := topBy (fun c => s.freeSlots part c false) cores k
      if cs.length = k then s.planOn part kn g cs false else none)

/-! ## Putting a team on its cores (05 R93, R97, 01 R16, R17) -/

/-- The coordinates of a team index: of its child in a merged grid, else of the grid (04 R75, R84). -/
def Grid.child (g : Grid) (index : Nat) : Option Child := g.children.find? (fun c => c.first ≤ index && index < c.first + c.count)

def Grid.coords (g : Grid) (index : Nat) : Nat × Nat × Nat :=
  match g.child index with
  | some c => let m := index - c.first; (m % c.gx, m / c.gx % c.gy, m / (c.gx * c.gy))
  | none => (index % dGx g.desc, index / dGx g.desc % dGy g.desc, index / (dGx g.desc * dGy g.desc))

/-- The port of a core with the fewest resident groups, and its lowest free slot (05 R97). -/
def State.freeSlot (s : State) (core : Nat) : Nat × Nat :=
  let gs := (s.coreGroups core).map (fun gk => ((s.group gk).port, (s.group gk).slot))
  let n (p : Nat) : Nat := (gs.filter (fun x => x.1 == p)).length
  let ports := (List.range 4).filter (fun p => !(s.core core).retiredPorts.contains p)
  let port := (maxBy (fun p => 8 - n p) ports).getD 0
  (port, ((List.range 8).find? (fun k => !gs.contains (port, k))).getD 0)

/-- One group of a team with its lanes: `lanes` live ones from the first position, v registers as given (05 R93). -/
def State.spawn (s : State) (tk gi core spillAt lanes : Nat) (producer : Bool) (entry : Nat) (v : AList W32) : State :=
  let t := s.team tk
  let p := s.freeSlot core
  let gk := groupKey tk gi
  let s := s.setMem (s.mem.clear (scratchAddr core spillAt) t.spillSize)
  let s := s.setGroup gk
    { Group.fresh with
      core := core, port := p.1, slot := p.2, producer := producer,
      budget := if producer then t.kernel.pgrant else t.kernel.cgrant,
      granules := (s.freeGranules core).take 1, patience := t.kernel.patience, spillAt := spillAt, placedAt := s.cycle }
  s.updLanes gk (fun pos _ => { Lane.fresh with live := pos < lanes, v := v, pc := BitVec.ofNat 32 entry })

/-- The records that a team finds in b0 and b1: its chamber, and the spill stack of each group (11 R161). -/
def firstSlots (kn : Kernel) (cores : Nat) : AList (BitVec 256) :=
  [(0, BitVec.ofNat 256 (kn.chamber * 4096 * 2 ^ 64 + (if cores = 1 then 1 else 2) * 2 ^ 123)),
   (1, BitVec.ofNat 256 (kn.spill * 1024 * 2 ^ 64 + 2 * 2 ^ 112))]

/-- A grid's time slice runs from the start of a residency: when a team of it comes to its cores and no other one is there (21 R292). -/
def State.startSlice (s : State) (g tk : Nat) : State :=
  if s.teams.any (fun t => t.1 != tk && t.2.grid == g && t.2.residency == .resident) then s else s.updGrid g (fun x => { x with sliceAt := s.cycle })

/-- A team placed by a plan: its chamber cleared and its image copied in, its groups dealt in consecutive runs (05 R93, R97, 01 R17). None while a
byte of the image cannot be read (log 12). -/
def State.placeTeam (s : State) (g index : Nat) (kn : Kernel) (kind : TeamKind) (lanes split : Nat) (plan : List Share) (v : AList W32) :
    Option (Nat × State) :=
  let gr := s.grid g
  let part := gr.partition
  let image := s.readVa part (kn.image + kn.chamberImageAt) kn.imageSize
  let table := image.2.readVa part (kn.image + 16) 4
  match image.1, table.1 with
  | some bytes, some e =>
    let s := table.2
    let tk := s.serial
    let n := groupsFor lanes
    let c := gr.coords index
    let s := s.bump
    let s := plan.zipIdx.foldl (fun s p =>
      s.setMem (s.mem.clear (scratchAddr p.1.core p.1.chamberAt) (chamberShare kn plan.length p.2))) s
    let t := { Team.fresh with
      grid := g, index := index, kernel := kn, kind := kind, x := c.1, y := c.2.1, z := c.2.2, lanes := lanes,
      cores := plan.map (fun p => p.core), chamberAt := plan.map (fun p => p.chamberAt), groups := n,
      slots := firstSlots kn plan.length, seqr := { Sequencer.fresh with red := kn.redmx && kn.acc != 0 } }
    let s := (s.setTeam tk t).chamberWrite t 0 bytes
    let runs := plan.flatMap (fun p => p.spills.map (fun a => (p.core, a)))
    let s := runs.zipIdx.foldl (fun s r =>
      s.spawn tk r.2 r.1.1 r.1.2 (min 32 (lanes - 32 * r.2)) (kn.roles && r.2 < split) (leNat e) v) s
    some (tk, s.startSlice g tk)
  | _, _ => none

/-! ## The launch checks (01 R35) -/

/-- The clusters of a partition that its grids are handed out to: those with a core that is neither retired nor vacated (04 R77, 25 R331, 21 R293), or,
where every one is vacated, those with a core not retired. -/
def State.clusters (s : State) (part : Nat) : List Nat :=
  let having (p : Nat → Bool) : List Nat := (List.range 32).filter (fun cl => s.partCluster part cl && (List.range 8).any (fun i => p (cl * 8 + i)))
  let kept := having (fun c => !(s.core c).retired && !s.vacating.contains c)
  if kept.isEmpty then having (fun c => !(s.core c).retired) else kept

/-- The part with nothing resident, as the checks of causes 10 and 11 take it. -/
def State.emptied (s : State) : State := { s with groups := [], teams := [], lanes := [], stoppedCores := [], vacating := [] }

/-- Teams of a kernel that fit at once on a cluster, counted up to a limit (cause 11). -/
def fitCount (g : Nat) (kn : Kernel) (lanes cluster : Nat) : Nat → State → Nat
  | 0, _ => 0
  | n + 1, s =>
    match s.planFor (s.grid g).partition kn (groupsFor lanes) cluster with
    | none => 0
    | some p =>
      match s.placeTeam g 0 { kn with idw := 0 } .ordinary lanes 0 p [] with
      | some r => 1 + fitCount g kn lanes cluster n r.2
      | none => 0

/-- A launch that has not yet completed (01 R24). -/
def State.running (s : State) (id : Nat) : Bool :=
  s.grids.any (fun g => (g.2.id.toNat == id && !g.2.complete) || g.2.children.any (fun c => c.id.toNat == id && !c.done))

/-- The lowest rejection cause of a launch asked for by a partition, or 0 (01 Table 1.13). -/
def State.launchCause (s : State) (d : BitVec 512) (part : Nat) : Nat :=
  let kn? := (s.kernelAt part (dImage d)).1
  let kn : Kernel := kn?.getD { image := dImage d, hdr := 0, idw := 0 }
  let known := kn?.isSome
  let g := groupsFor (dLanes d)
  let probe : State := { s.emptied with grids := s.grids.put 0 { Grid.fresh with partition := part } }
  let capacity (t : Nat) : Nat := (s.emptied.clusters part).foldl (fun n cl =>
    if t ≤ n then n else n + fitCount 0 { kn with idw := kn.idw % 2 ^ 32 } (dLanes d) cl (min 257 (t - n)) probe) 0
  let causes : List (Nat × Bool) :=
    [(1, dImage d % 64 != 0 || dArgs d % 8 != 0 || (dSig d && dSignal d % 8 != 0) || (dTrec d && dTimerec d % 64 != 0)
        || (s.partValid part && !(known && s.mappedRange part (dImage d) kn.extent))),
     (2, known && kn.version != 1 && kn.version != 2),
     (3, descField d 16 63 48 != 0 || descField d 56 63 0 != 0 || bits (dFlags d) 7 3 != 0
        || (known && (bit kn.hdr 47 || bits kn.hdr 41 35 != 0 || bits kn.idw 63 60 != 0))),
     (4, dTeams d == 0 || dLanes d == 0 || 4096 < dLanes d),
     (5, known && ((kn.handler != 0 && kn.entries ≤ kn.handler) || 4 < kn.acc || 8 < kn.xctx || 8 < kn.chutes || 7 < kn.cgrant
        || 7 < kn.pgrant || (!kn.roles && kn.pgrant != 0))),
     (6, known && (kn.entries == 0 || kn.imageSize % 8 != 0 || kn.chamber * 4096 < kn.imageSize || kn.codeSize % 8 != 0 || kn.codeSize < 16
        || (s.entryTable part kn).any (fun e => e % 8 != 0 || kn.codeSize ≤ e))),
     (7, known && (if kn.roles then dSplit d == 0 || g ≤ dSplit d else dSplit d != 0)),
     (8, 15 < dPrio d || dPart d != part || !s.partValid (dPart d)),
     (9, dParent d != 0 && !s.running (dParent d)),
     (10, !(s.emptied.clusters part).any (fun cl => (s.emptied.planFor part kn g cl).isSome)),
     (11, kn.coop && capacity (dTeams d) < dTeams d)]
  match causes.find? (fun c => c.2) with
  | some c => c.1
  | none => 0

/-! ## Distribution (04 R77) -/

/-- A range cut among parts in equal shares, the first ones one longer. -/
def cutRange (lo n : Nat) (parts : List Nat) : List (Nat × Nat × Nat) :=
  let c := parts.length
  (parts.zipIdx.foldl (fun (acc : Nat × List (Nat × Nat × Nat)) p =>
    let k := n / c + (if p.2 < n % c then 1 else 0)
    (acc.1 + k, acc.2 ++ [(p.1, acc.1, k)])) (lo, [])).2

/-- A range handed to clusters: by die in proportion to the clusters it holds, then in equal shares (04 R77). -/
def spreadRange (lo n : Nat) (cls : List Nat) : List (Nat × Nat × Nat) :=
  let dies := (List.range 4).filter (fun d => cls.any (fun cl => cl / 8 == d))
  let count (d : Nat) : Nat := (cls.filter (fun cl => cl / 8 == d)).length
  let base (d : Nat) : Nat := n * count d / cls.length
  let left := n - dies.foldl (fun a d => a + base d) 0
  (dies.zipIdx.foldl (fun (acc : Nat × List (Nat × Nat × Nat)) d =>
    let k := base d.1 + (if d.2 < left then 1 else 0)
    (acc.1 + k, acc.2 ++ cutRange acc.1 k (cls.filter (fun cl => cl / 8 == d.1)))) (lo, [])).2

/-- Ranges given to clusters, behind those they hold; an empty range is none. -/
def Grid.give (g : Grid) (rs : List (Nat × Nat × Nat)) : Grid :=
  { g with ranges := rs.foldl (fun m r => if r.2.2 = 0 then m else m.put r.1 (m.getD r.1 [] ++ [(r.2.1, r.2.2)])) g.ranges }

/-- Unstarted teams of a grid in a cluster. -/
def Grid.unstarted (g : Grid) (cl : Nat) : Nat := (g.ranges.getD cl []).foldl (fun n r => n + r.2) 0

/-- An accepted grid dispatched: its kernel words held, its code pages pinned, its teams handed out (01 R18, 04 R77, 06 R105). -/
def State.dispatch (s : State) (g : Nat) (kn : Kernel) (teams : Nat) : State :=
  s.updGrid g (fun x => { x with kernel := kn, accepted := true, pinned := true, teams := teams, dispatchAt := s.now }.give
    (spreadRange 0 teams (s.clusters x.partition)))

/-! ## Completing a launch (25 R320 to R322, 01 R35) -/

/-- A report entry (25 Table 25.2). -/
def reportEntry (id status cause feed parent stamp : Nat) (record : Option TrapRecord) : List Byte :=
  leBytes 8 id ++ leBytes 8 (status + 2 ^ 8 * cause + 2 ^ 16 * feed) ++ leBytes 8 parent ++ leBytes 8 stamp
    ++ (match record with | some r => r.bytes | none => List.replicate 64 0) ++ List.replicate 32 0

/-- An entry written to the report ring, or dropped (25 R321). -/
def State.report1 (s : State) (e : List Byte) : State :=
  let r := s.report
  let n := 16 * 2 ^ r.size
  if !r.enable then s
  else if (r.tail - r.head).toNat = n then { s with report := { r with lost := satInc r.lost } }
  else
    { s.setMem (s.mem.writeBytes (hostAddr (r.base.toNat + 128 * (r.tail.toNat % n))) e) with report := { r with tail := r.tail + 1 } }

/-- What the part's own cores send for a partition to an address of another part (14 R209): its answer changes nothing here. Whether it left. -/
def State.tellPart (s : State) (part va : Nat) (act : OwnerAct) : Option State :=
  (s.requestTo (vaDev va) va part (Holder.scheduler.source 0) act).map (fun r => r.2.answered r.1 (vaDev va))

/-- Whether an address is another part's that is in the domain. -/
def State.elsewhere (s : State) (va : Nat) : Bool := !vaReserved va && !s.ownAddr va && s.present (vaDev va)

/-- The eight words of a time record (22 Table 22.8), mod 2^64: they always add up to end − start. -/
def timeWords (start call0 dispatch now fault io engine : Nat) : List Byte :=
  let call : Int := if dispatch < start + call0 then (dispatch : Int) - start else call0
  let run : Int := (now : Int) - dispatch - fault - io - engine
  leBytes 8 start ++ leBytes 8 now ++ leBytes 8 (ofSigned 64 call) ++ leBytes 8 (ofSigned 64 ((dispatch : Int) - start - call)) ++ leBytes 8 fault
    ++ leBytes 8 io ++ leBytes 8 engine ++ leBytes 8 (ofSigned 64 run)

/-- The time record completed (22 R312, 25 R322): dispatch, end, and the cycles of each field, in nanoseconds. One on another part is written over the
links; what its driver wrote there is not in this part: free values (log 15). -/
def State.closeTime (s : State) (part at_ dispatch end_ fault io engine : Nat) : State :=
  let ns (c : Nat) : Nat := c * 10 / 11
  if s.elsewhere at_ then
    let start := (Config.freeValue s.freeN).toNat
    let call0 := (Config.freeValue (s.freeN + 1)).toNat
    let s := { s with freeN := s.freeN + 2 }
    (s.tellPart part at_ (.write (timeWords start call0 dispatch end_ (ns fault) (ns io) (ns engine)))).getD s
  else
    let old := (s.readVa part at_ 64).1.getD (List.replicate 64 0)
    s.writeVa part at_ (timeWords (leNat (old.take 8)) (leNat ((old.drop 16).take 8)) dispatch end_ (ns fault) (ns io) (ns engine))

/-- What a launch leaves behind, in order: time record, report entry, signal (25 R320). A misaligned time record or signal is passed over
(01 R35); a signal of another part leaves over the links (log 15). A time record or a signal whose write the owner refuses, its page not writable or
its range sealed, is not written, and the launch completes without it (DESIGN CHOICE, log 52). -/
def State.leaveBehind (s : State) (part : Nat) (id : W64) (d : BitVec 512) (feed : Nat) (status cause : Nat) (record : Option TrapRecord)
    (dispatch end_ fault io engine : Nat) : State :=
  let s := if dTrec d && dTimerec d % 64 == 0 then s.closeTime part (dTimerec d) dispatch end_ fault io engine else s
  let s := if status = 0 then s
    else s.report1 (reportEntry id.toNat status cause feed (dParent d) end_ (if 2 ≤ status && status ≤ 4 then record else none))
  if !(dSig d && dSignal d % 8 == 0) then s
  else if s.ownAddr (dSignal d) && !vaReserved (dSignal d) then (s.signalAt (.die 4) part (dSignal d) (fun x => (x + 1) % 2 ^ 64)).2
  else if s.elsewhere (dSignal d) then (s.tellPart part (dSignal d) (.add 1)).getD s
  else s

/-- Whether what a completing launch writes at an address can be settled now: a link to its part is up, or the owner answers it at once, with the write
or with a fault that no pager serves (14 R201); only a page that is not mapped has to be waited for (log 52). -/
def State.canReach (s : State) (part va : Nat) : Bool :=
  if s.elsewhere va then (s.linkFor (vaDev va)).isSome
  else vaReserved va || !s.ownAddr va || !((s.walk (vaDie va) part (vaOff va)) matches .error 1)

/-- Whether what a launch writes at completion can be written now: its signal and its time record, where it has them and they are aligned. -/
def State.canLeave (s : State) (part : Nat) (d : BitVec 512) : Bool :=
  (!(dSig d && dSignal d % 8 == 0) || s.canReach part (dSignal d)) && (!(dTrec d && dTimerec d % 64 == 0) || s.canReach part (dTimerec d))

/-- A rejected launch completes as soon as what it leaves behind can be written (01 R35); until then LAUNCH_COMPLETE has it to do. Its dispatch and its end
are the moment of rejection (25 R322). -/
def State.reject (s : State) (g feed cause : Nat) : State :=
  let x := s.grid g
  let done := s.canLeave x.partition x.desc
  let s := if done then s.leaveBehind x.partition x.id x.desc feed 1 cause none x.dispatchAt x.dispatchAt 0 0 0 else s
  s.updGrid g (fun x => { x with complete := done, status := 1, cause := cause })

/-! ## Launch ids (01 R332) -/

def State.usedId (s : State) (x : Nat) : Bool :=
  s.grids.any (fun g => g.2.id.toNat == x || g.2.children.any (fun c => c.id.toNat == x))

/-- How many launch ids have been given. -/
def State.idsGiven (s : State) : Nat := s.grids.foldl (fun n g => n + 1 + g.2.children.length) 0

/-- A launch id: the implementation's candidate where it is fresh, else the least one that no launch has (log 5). -/
def State.newId (s : State) : W64 :=
  let x := Config.launchId s.serial
  if x.toNat = 0 || s.usedId x.toNat then
    BitVec.ofNat 64 ((((List.range (s.idsGiven + 1)).map (fun k => k + 1)).find? (fun y => !s.usedId y)).getD 1)
  else x

/-! ## The task deque of a core (04 R86, 11 R175) -/

def Core.dqCap (c : Core) : Nat := (c.dqlim.toNat - c.dqbase.toNat) / 64

/-- Where record `k` from the head of a deque stands. -/
def State.dqAddr (s : State) (core k : Nat) : Nat :=
  let c := s.core core
  scratchAddr core (c.dqbase.toNat + 64 * ((c.dqHead + k) % c.dqCap))

/-- The records of a deque from its head on, with what is held beside them. -/
def State.dqRecords (s : State) (core : Nat) : List (List Byte × TaskEntry) :=
  (s.core core).dqTasks.zipIdx.map (fun g => (s.mem.readBytes (s.dqAddr core g.2) 64, g.1))

/-- A record pushed at the owner's tail: by a group, whose accesses before it the push releases (11 R175, 18 R269). -/
def State.dqPush (s : State) (core : Nat) (rec : List Byte) (e : TaskEntry) : State :=
  let s := s.setMem (s.mem.writeBytes (s.dqAddr core (s.core core).dqCount) rec)
  let s := s.updCore core (fun c => { c with dqCount := c.dqCount + 1, dqTasks := c.dqTasks ++ [e] })
  s.updGrid e.grid (fun x => { x with tasks := x.tasks + 1 })

/-- The record at the tail taken by the owner; the grid's count is left to the caller. -/
def State.dqPop (s : State) (core : Nat) : State :=
  s.updCore core (fun c => { c with dqCount := c.dqCount - 1, dqTasks := c.dqTasks.dropLast })

/-- The record at the head taken by a thief. -/
def State.dqShift (s : State) (core : Nat) : State :=
  s.updCore core (fun c => { c with dqCount := c.dqCount - 1, dqTasks := c.dqTasks.drop 1, dqHead := (c.dqHead + 1) % c.dqCap })

/-- A deque holding just these records. -/
def State.dqSet (s : State) (core : Nat) (rs : List (List Byte × TaskEntry)) : State :=
  let s := rs.zipIdx.foldl (fun s r => s.setMem (s.mem.writeBytes (s.dqAddr core r.2) r.1.1)) s
  s.updCore core (fun c => { c with dqCount := rs.length, dqTasks := rs.map (fun r => r.2) })

/-- Whether a record can be taken: what its push releases has been performed (18 R269). -/
def State.taskReleased (s : State) (e : TaskEntry) : Bool := s.released e.group e.serial

/-- Tasks of an ended grid leave every deque (25 R320). -/
def State.dqDiscard (s : State) (g : Nat) : State :=
  (s.cores.map (fun c => c.1)).foldl (fun s c =>
    if (s.core c).dqTasks.any (fun e => e.grid == g) then s.dqSet c ((s.dqRecords c).filter (fun r => r.2.grid != g)) else s) s

/-- The fields of a task record (01 Table 1.6). -/
def taskWord (rec : List Byte) (off : Nat) : Nat := leNat ((rec.drop off).take 8)
def taskPinned (rec : List Byte) : Bool := bit (taskWord rec 16) 48

/-- The checks of a task record when it is pushed (01 R25, R26): its own fields, and its image as a one-group launch. -/
def State.taskOk (s : State) (part : Nat) (rec : List Byte) : Bool :=
  let d := setDesc (setDesc (setDesc (setDesc (setDesc (setDesc 0 0 63 0 (taskWord rec 0)) 8 31 0 1) 8 47 32 1) 8 63 48 1) 16 15 0 32) 16 47 40 part
  let kn := (s.kernelAt part (taskWord rec 0)).1
  bits (taskWord rec 16) 63 49 == 0 && taskWord rec 24 % 8 == 0 && s.launchCause d part == 0
    && (match kn with | some k => !k.roles && !k.coop | none => false)

/-! ## Leaving (25 R317 to R319, 21 R288) -/

/-- A team counted out of its grid. -/
def State.countOut (s : State) (tk : Nat) : State :=
  let t := s.team tk
  match t.kind with
  | .task .. => s.updGrid t.grid (fun g => { g with tasks := g.tasks - 1 })
  | _ => s.updGrid t.grid (fun g => { g with
      retired := g.retired + 1,
      children := g.children.map (fun c => if c.first ≤ t.index && t.index < c.first + c.count then { c with retired := c.retired + 1 } else c) })

/-- Everything a team holds goes: watchpoints, groups, lanes, commands, chutes, tables and contexts; nothing is cleared (25 R318, 05 R93). -/
def State.release (s : State) (tk : Nat) (r : Residency) : State :=
  let t := s.team tk
  let s := t.cores.foldl (fun s c => s.updCore c (fun x =>
    { x with watches := x.watches.filter (fun w => w.2.team != some tk), grants := x.grants.filter (fun g => teamOf g != tk) })) s
  let s := s.setTeam tk { t with
    slots := [], chutes := [], tt := [], contexts := [], tiles := [], seqr := Sequencer.fresh, frame := none, handling := false,
    trigger := none, stops := [], saveFor := none, residency := r }
  { s with
    groups := s.groups.filter (fun g => teamOf g.1 != tk),
    lanes := s.lanes.filter (fun l => teamOf (l.1 / 32) != tk),
    cmds := s.cmds.filter (fun c => teamOf c.2.group != tk) }

/-- The commands of a team that ECAN would end are ended, its collectives abandoned (21 R288, 15 R228, R232). -/
def State.cancelTeam (s : State) (tk : Nat) : State :=
  let s := s.abandonColls tk
  let ks := (s.cmds.filter (fun c => teamOf c.2.group == tk && (c.2.frozen || s.endable c.2))).map (fun c => c.1)
  ks.foldl (fun s k => (s.updCmd k (fun c => { c with frozen := false })).cancel k) s

/-- A launch begins to end (21 R288): its status and record stand, no team of it starts any more, every resident team stops, and a saved one is
gone with its image. -/
def State.beginEnd (s : State) (g status : Nat) (record : Option TrapRecord) : State :=
  if (s.grid g).status ≠ 0 || (s.grid g).complete then s
  else
    let s := s.updGrid g (fun x => { x with
      status := status, record := record, ranges := [], retired := x.retired + (x.ranges.foldl (fun n r => n + r.2.foldl (fun m q => m + q.2) 0) 0),
      children := x.children.map (fun c => { c with
        retired := c.retired + (x.ranges.foldl (fun n r => n + r.2.foldl (fun m q =>
          m + ((List.range q.2).filter (fun k => c.first ≤ q.1 + k && q.1 + k < c.first + c.count)).length) 0) 0) }) })
    let s := s.dqDiscard g
    let s := s.updGrid g (fun x => { x with
      tasks := (s.teams.filter (fun t => t.2.grid == g && (match t.2.residency, t.2.kind with
        | .resident, .task .. => true
        | .saved .., .task .. => true
        | _, _ => false))).length })
    (s.teams.filter (fun t => t.2.grid == g)).foldl (fun s t =>
      match t.2.residency with
      | .resident =>
        let s := (s.teamGroups t.1).foldl (fun s gk => s.haltGroup gk) (s.triggerTeam t.1 (t.2.cores.getD 0 0))
        (s.cancelTeam t.1).updTeam t.1 (fun x => { x with seqr := { x.seqr with run := false } })
      | .saved .. => ((s.cancelTeam t.1).countOut t.1).release t.1 .ended
      | _ => s) s

/-- Whether a team that is being ended has nothing left to do: its operations but unsatisfied WAITS have landed and its commands have completed. -/
def State.drained (s : State) (tk : Nat) : Bool :=
  s.allLanded tk && s.cmds.all (fun c => teamOf c.2.group != tk || c.2.st == .done || c.2.op == 0x162)

end Sys2Proof.Machine
end

