-- ==== Sys2Proof/Machine/Image.lean ====
section
/-! DEFINITION. Context images (21 R294, R295, Tables 21.3, 21.4) with the row forms of the main file (05 R102), and core dumps (25 R324, 22 R309). -/

namespace Sys2Proof.Machine

/-! ## Row forms (05 R102) -/

/-- The deltas of a row from its value at lane position 0, read as signed (05 R102). -/
def rowDeltas (row : List W32) : List Int := row.map (fun x => (x - row.headD 0).toInt)

/-- Whether every delta of a row fits `w` bits. -/
def deltasFit (row : List W32) (w : Nat) : Bool := (rowDeltas row).all (fun d => -(2 ^ (w - 1) : Int) ≤ d && d < 2 ^ (w - 1))

/-- The form in which the main file stores a row: the first of Table 5.3 that holds it (05 R102). -/
def rowForm (row : List W32) : Nat :=
  if row.all (fun x => x == row.headD 0) then 0
  else if deltasFit row 4 then 1
  else if deltasFit row 8 then 2
  else if deltasFit row 16 then 3
  else 4

/-- The bits of a delta in a form: 4, 8 or 16. -/
def formBits (form : Nat) : Nat := 2 ^ (form + 1)

/-- A row's deltas packed, the delta of lane position 0 lowest (log 7). -/
def packDeltas (w : Nat) (ds : List Int) : Nat := ds.reverse.foldl (fun n d => n * 2 ^ w + ofSigned w d) 0

/-- A row as an image records it: its code, then b and the deltas, or the 32 values (05 Table 5.3). -/
def rowImage (row : List W32) : List Byte :=
  let f := rowForm row
  BitVec.ofNat 8 f :: (match f with
    | 0 => leBytes 4 (row.headD 0).toNat
    | 4 => row.flatMap (fun x => leBytes 4 x.toNat)
    | _ => leBytes 4 (row.headD 0).toNat ++ leBytes (4 * formBits f) (packDeltas (formBits f) (rowDeltas row)))

/-- Row `n` of 32 lanes. -/
def laneRow (lanes : Nat → Lane) (n : Nat) : List W32 := (List.range 32).map (fun p => (lanes p).reg n)

/-! ## The barriers of a team (22 Table 22.5) -/

/-- The state of one barrier: its header, then a word for each group; number 16 is the grid barrier, whose arrivals are teams (22 R309; log 7). -/
def State.barrierImage (s : State) (tk nb : Nat) : List Byte :=
  let t := s.team tk
  let b := t.barrier nb
  let arr := if nb = 16 then s.gridArrivals t.grid else b.counted.length + b2n b.seq
  let expected := if nb = 16 then (s.grid t.grid).teams else b.expected
  let waits (gi : Nat) : Bool := (List.range 32).any (fun p => match (s.lane (laneKey (groupKey tk gi) p)).block with
    | .barWait n _ => n == nb
    | .barArrive n w => n == nb && w
    | _ => false)
  leBytes 8 (expected % 256 + 2 ^ 8 * (arr % 256) + 2 ^ 16 * b.phase.toNat + 2 ^ 32 * b2n b.seq)
    ++ (List.range t.groups).flatMap (fun gi =>
      let cnt := b.counted.contains gi
      leBytes 8 (b.last.getD gi 0 % 2 ^ 16 + 2 ^ 16 * b2n cnt + 2 ^ 17 * b2n (waits gi)
        + 2 ^ 32 * (if cnt then 0 else (b.lanes.getD gi 0).toNat)))

/-! ## The sections of an image (21 Table 21.4) -/

/-- The scratchpad ranges of a team: its chamber by core, and each group's spill stack. -/
def State.scratchOf (s : State) (tk : Nat) : List (Nat × Nat) :=
  let t := s.team tk
  t.cores.zipIdx.map (fun c => (scratchAddr c.1 (t.chamberAt.getD c.2 0), chamberShare t.kernel t.cores.length c.2))
    ++ (s.teamGroups tk).map (fun gk => ((s.group gk).spillPhys 0, t.spillSize))

/-- What a pending rendezvous keeps (07 R122, R123). -/
def Arrival.fields (x : Arrival) : List Nat :=
  [x.tag, x.op, x.imm, b2n x.pred, x.a.toNat, x.b.toNat, x.c.toNat, x.dst.code, x.pd]

/-- What is kept of a lane beside its registers; the cycles that a park still owes stand as they will when the lane is released. -/
def Lane.fields (l : Lane) : List Nat :=
  [b2n l.live, l.pc.toNat, l.skid.toNat, l.cd, l.p.toNat] ++ (List.range 12).map l.ctr ++ [l.fpflags.toNat, l.fprm.toNat, l.xs.toNat]
    ++ (match l.block with
        | .rendezvous x => 1 :: x.fields
        | .park _ owed => [2, owed]
        | .yield _ since => [3, since]
        | _ => [0])

/-- The section of one group: its rows, what is kept of its lanes and of itself, and its spill stack. A dump adds the stall reason of every lane
(22 R309). -/
def State.groupImage (s : State) (gk : Nat) (g : Group) (lanes : Nat → Lane) (spill : List Byte) (dump : Bool) : List Byte :=
  (List.range (32 * g.granules.length)).flatMap (fun n => rowImage (laneRow lanes n))
    ++ Config.packing 0 ((List.range 32).flatMap (fun p => (lanes p).fields ++ (if dump then [s.stallOf gk p] else []))
        ++ (List.range 14).map (fun k => g.s.getD k 0)
        ++ [g.patience, g.last.elim 0 (fun k => k + 1), b2n g.producer, g.budget, g.grant.elim 0 (fun n => n + 1)]
        ++ (List.range 4).map (fun k => g.oc.getD k 0) ++ (List.range 4).map (fun k => g.skips.getD k 0)
        ++ (List.range 4).map (fun k => g.issued.getD k 0))
    ++ spill

/-- The bytes of a team's scratchpad ranges: its chamber by team core, then the spill stack of each group. Those of a saved team stand in its image. -/
def State.scratchImage (s : State) (tk : Nat) : List (List Byte) :=
  match (s.team tk).residency with
  | .resident => (s.scratchOf tk).map (fun r => s.mem.readBytes r.1 r.2)
  | _ => (s.team tk).image.map (fun r => r.2)

/-- What is kept of a chute (11 R171, R178). -/
def Chute.fields (c : Chute) : List Nat :=
  [c.desc.elim 0 (fun d => d.toNat + 1), c.head, c.elems.length, b2n c.closed, c.window.length, b2n c.withdrawn]

/-- What is kept of a command: its fields, its class, and its resume point, the lowest element not yet performed with those performed above it
(21 R291). -/
def Command.fields (c : Command) : List Nat :=
  let low := ((List.range (c.performed.length + 1)).find? (fun k => !c.performed.contains k)).getD 0
  [indexOf c.group, c.lane, c.cls, c.seq, c.op, c.word, c.pc, c.chan, c.d, c.aux, c.cnt, c.sd.toNat, c.ss.toNat, c.sx.toNat, c.sdN, c.ssN, c.sxN,
    c.dst.code, c.page, b2n c.unserved, c.skip, c.flags.toNat, low] ++ c.performed.filter (fun k => low < k)

/-- What is kept of the sequencer (17 R246). -/
def Sequencer.fields (q : Sequencer) : List Nat :=
  [b2n q.run, q.spc, b2n q.red, q.status.toNat, b2n q.fault]
    ++ q.loops.flatMap (fun l => [l.1, l.2]) ++ q.slots.flatMap (fun x => [x.1, x.2.1.toNat, x.2.2])
    ++ (match q.wait with | .free => [0] | .barArrive n => [1, n] | .barWait n p => [2, n, p] | .copies n => [3, n])

/-- A tile: its cells in the form of MSTACC, then its record and its shadows (17 R249, R254, R256). -/
def Tile.image (x : Tile) : List Byte :=
  (List.range 1024).flatMap (fun k => (x.cell (k / 32) (k % 32)).image)
    ++ Config.packing 4 ([x.tta, x.ttb, x.ti, x.tj]
        ++ (List.range 1024).flatMap (fun k => [(x.cell (k / 32) (k % 32)).shadowV, (x.cell (k / 32) (k % 32)).shadowBits]))

/-- The trap frame: the trapping group's section as it stood. -/
def State.frameImage (s : State) (tk : Nat) (f : Frame) : List Byte :=
  s.groupImage (groupKey tk f.gi) f.group (fun p => f.lanes.getD p Lane.fresh) f.spill false

/-- The sections of a team's image, in order (21 Table 21.4). Where the table gives no byte layout, the fields are packed as the part packs them
(log 7). -/
def State.imageSections (s : State) (tk : Nat) (dump : Bool) : List Byte :=
  let t := s.team tk
  let scratch := s.scratchImage tk
  let cmds := s.cmds.filter (fun c => teamOf c.2.group == tk && c.2.st != .done && c.2.op != 0x162)
  (s.teamGroups tk).zipIdx.flatMap (fun g =>
      s.groupImage g.1 (s.group g.1) (fun p => s.lane (laneKey g.1 p)) (scratch.getD (t.cores.length + g.2) []) dump)
    ++ (scratch.take t.cores.length).flatten
    ++ Config.packing 2 ((List.range 8).flatMap (fun q => (t.chute q).fields) ++ (List.range 64).map (fun b => (t.slots.getD b 0).toNat)
        ++ (List.range (64 * t.kernel.acc)).map (fun n => (t.tt.getD n 0).toNat) ++ [t.phases.toNat])
    ++ (List.range 17).flatMap (fun nb => s.barrierImage tk nb)
    ++ (List.range (8 * t.cores.length)).flatMap (fun k =>
        let x := t.contexts.getD k Context.empty
        Config.packing 3 [x.cond, x.detail.toNat, x.image.length] ++ x.image)
    ++ Config.packing 4 t.seqr.fields
    ++ (List.range t.kernel.acc).flatMap (fun n => (t.tile n).image)
    ++ Config.packing 5 (cmds.flatMap (fun c => c.2.fields))
    ++ (match t.record with | some r => r.bytes | none => List.replicate 64 0)
    ++ (match t.frame with | some f => s.frameImage tk f | none => [])

/-- Bytes filled up with zeros to a multiple of 64. -/
def padTo64 (b : List Byte) : List Byte := b ++ List.replicate ((64 - b.length % 64) % 64) 0

/-- Bits [31:0] of header word +32 of an image (21 Table 21.3): those of a saved team as they stood at the start of its save. -/
def imageWhy (t : Team) : Nat :=
  match t.residency with
  | .saved w _ _ _ => w + 2 ^ 8 * b2n t.savedHalted + 2 ^ 9 * b2n t.savedHandling
  | _ => 4 + 2 ^ 8 * b2n (!t.stops.isEmpty) + 2 ^ 9 * b2n t.handling

/-- The size of an image: its header and its sections, a multiple of 64 (21 Table 21.3). -/
def State.imageSize (s : State) (tk : Nat) (dump : Bool) : Nat := 64 + (padTo64 (s.imageSections tk dump)).length

/-- The launch id and the linear index that a team's image names: in a merged grid those of its child (04 R84). -/
def State.imageName (s : State) (tk : Nat) : Nat × Nat :=
  let t := s.team tk
  match (s.grid t.grid).child t.index with
  | some c => (c.id.toNat, t.index - c.first)
  | none => ((s.grid t.grid).id.toNat, t.index)

/-- Bits [31:0] of header word +32 of the image in a dump: why = 4, whether the team is resident or saved (25 R324). -/
def dumpWhy (t : Team) : Nat :=
  4 + 2 ^ 8 * b2n (!t.stops.isEmpty) + 2 ^ 9 * b2n (match t.residency with | .saved .. => t.savedHandling | _ => t.handling)

/-- The header of an image of `size` bytes whose save began at `stamp`, or of a dump stamped so (21 Table 21.3, 25 R324). -/
def State.imageHeader (s : State) (tk stamp size : Nat) (dump : Bool) : List Byte :=
  let t := s.team tk
  let name := s.imageName tk
  let place := t.cores.zipIdx.foldl (fun n x => n + x.1 * 2 ^ (8 * x.2)) 0
  let page := match t.residency with | .saved 3 p _ _ => if dump then 0 else p | _ => 0
  leBytes 8 name.1 ++ leBytes 8 (name.2 + 2 ^ 32 * (t.groups - 1) + 2 ^ 39 * (t.cores.length - 1)) ++ leBytes 8 place ++ leBytes 8 stamp
    ++ leBytes 8 (if dump then dumpWhy t else imageWhy t) ++ leBytes 8 page ++ leBytes 8 size ++ leBytes 8 0

/-- The image of a saved team (21 Tables 21.3, 21.4). -/
def State.imageBytes (s : State) (tk : Nat) : List Byte :=
  s.imageHeader tk (s.team tk).savedAt (s.imageSize tk false) false ++ padTo64 (s.imageSections tk false)

/-! ## Core dumps (25 R324) -/

/-- One queued store of a dump (25 Table 25.4). -/
def dumpStore (gi lane op width space off data : Nat) : List Byte :=
  leBytes 8 (1 + 2 ^ 8 * gi + 2 ^ 15 * lane + 2 ^ 20 * op + 2 ^ 24 * (width - 1)) ++ leBytes 8 (space * 2 ^ 60 + off) ++ leBytes 16 data

/-- The entries of one operation in flight: those that write. A CHRD or TASKP store stands as four of width 16. -/
def opEntries (gi : Nat) (o : LaneOp) : List (List Byte) :=
  let e (op w d : Nat) (off : Nat) := dumpStore gi (o.lane % 32) op w o.space off d
  match o.kind with
  | .store _ d false =>
    if d.length = 64 then (List.range 4).map (fun k => e 0 16 (leNat ((d.drop (16 * k)).take 16)) (o.off + 16 * k))
    else [e 0 d.length (leNat d) o.off]
  | .atomic _ w _ x _ ret _ _ false _ => [e (if ret then 1 else 3) w x o.off]
  | .cas _ w c n _ _ _ false _ => [e 2 w (n + 2 ^ 64 * c) o.off]
  | _ => []

/-- The entry of one unfinished command. -/
def cmdEntry (c : Command) : List Byte :=
  let st := match c.st with | .queued => 0 | .performing => 1 | _ => 2
  leBytes 8 (2 + 2 ^ 8 * indexOf c.group + 2 ^ 15 * c.lane + 2 ^ 20 * c.cls + 2 ^ 29 * st) ++ leBytes 8 c.word
    ++ leBytes 4 c.d ++ leBytes 4 c.aux ++ leBytes 8 c.cnt

/-- The entries of a dump: what is issued and not visible, queued stores first (25 R324). -/
def State.dumpEntries (s : State) (tk : Nat) : List (List Byte) :=
  (s.teamGroups tk).flatMap (fun gk => (s.group gk).ops.flatMap (opEntries (indexOf gk)))
    ++ (s.cmds.filter (fun c => teamOf c.2.group == tk && c.2.st != .done)).map (fun c => cmdEntry c.2)

/-- The dump of a team with its stamp (25 R324): header, image, entries. -/
def State.dumpBytes (s : State) (tk stamp : Nat) : List Byte :=
  let size := s.imageSize tk true
  let entries := s.dumpEntries tk
  let name := s.imageName tk
  leBytes 8 name.1 ++ leBytes 8 name.2 ++ leBytes 8 stamp ++ leBytes 8 (size + 2 ^ 32 * entries.length) ++ List.replicate 32 0
    ++ s.imageHeader tk stamp size true ++ padTo64 (s.imageSections tk true) ++ entries.flatten

end Sys2Proof.Machine
end

