-- ==== Sys2Proof/Machine/Syst.lean ====
section
/-! DEFINITION. Class SYST (04 R79 to R90, 05 R103, 21 R289, R298, R299, 22 R306, R311), with the aggregation windows of device-side launches
(04 R83 to R85). -/

namespace Sys2Proof.Machine

/-! ## SRD and SWR (04 R79, R80) -/

/-- A value that the spec does not state, and the counter past it (log 8). -/
def State.free (s : State) : W64 × State := (Config.freeValue s.freeN, { s with freeN := s.freeN + 1 })

/-- Whether a team is a task or an active-message handler. -/
def Team.loose (t : Team) : Bool := match t.kind with | .task .. => true | .message _ => true | _ => false

/-- The launch id a lane of a team reads: its child's own in a merged grid (04 R84); 0 in tasks and handlers. -/
def State.launchIdOf (s : State) (tk : Nat) : W64 :=
  let t := s.team tk
  let g := s.grid t.grid
  if t.loose then 0 else match g.child t.index with | some c => c.id | none => g.id

/-- A dimension of the grid of a team that has a place in it; for a task or handler the spec states none (log 9). -/
def State.gridDim (s : State) (tk x : Nat) : Nat × State :=
  if (s.team tk).loose then (s.free.1.toNat % 2 ^ 32, s.free.2) else (x, s)

/-- The value of a special register in a lane (04 Table 4.4). -/
def State.special (s : State) (gk pos n : Nat) : Nat × State :=
  let tk := teamOf gk
  let t := s.team tk
  let g := s.grid t.grid
  let gr := s.group gk
  let l := s.lane (laneKey gk pos)
  let c := g.child t.index
  match n with
  | 0x000 => (if t.kernel.g16 then pos % 16 else pos, s)
  | 0x001 => (32 * indexOf gk + pos, s)
  | 0x002 => (indexOf gk, s)
  | 0x003 => (t.x, s)
  | 0x004 => (t.y, s)
  | 0x005 => (t.z, s)
  | 0x006 => (t.lanes, s)
  | 0x008 => s.gridDim tk (match c with | some c => c.gx | none => dGx g.desc)
  | 0x009 => s.gridDim tk (match c with | some c => c.gy | none => dGy g.desc)
  | 0x00A => s.gridDim tk (match c with | some c => c.gz | none => dGz g.desc)
  | 0x00C => (b2n gr.producer, s)
  | 0x010 => (gr.core, s)
  | 0x011 => (gr.core / 64, s)
  | 0x012 => (s.device, s)
  | 0x014 => (s.now % 2 ^ 64, s)
  | 0x018 => (if t.loose then 0 else match c with | some c => c.args.toNat | none => dArgs g.desc, s)
  | 0x019 => (match t.kind with | .task r _ => taskWord r 8 | _ => 0, s)
  | 0x01A => (match t.kind with | .task r _ => taskWord r 16 | _ => 0, s)
  | 0x01B => (match t.kind with | .message src => src | _ => 0, s)
  | 0x01C => ((s.launchIdOf tk).toNat, s)
  | 0x020 => (gr.patience, s)
  | 0x021 => (l.fpflags.toNat, s)
  | _ => (l.fprm.toNat, s)

def specialRegs (n : Nat) : Nat := if special64 n then 2 else 1

/-- The illegal-operand trap of a 64-bit register read into an odd destination (04 R80). -/
def srdTrap (f : SF) (_c : Ctx) (_s : State) : Option Trap :=
  match f.d with
  | .v n => if special64 f.sr.toNat && n.val % 2 == 1 then some ⟨80, 3, 0⟩ else none
  | _ => none

def srdEff (f : SF) (c : Ctx) (s : State) : State :=
  let r := s.special c.gk c.pos f.sr.toNat
  r.2.writeOp c.lk f.d (specialRegs f.sr.toNat) r.1

/-- The SRs a program may write (04 R79, R80); read-only ones raise illegal-instruction. -/
def specialWritable (n : Nat) : Bool := [0x020, 0x021, 0x022].contains n

/-- The illegal-instruction trap of an SWR naming a read-only register, after the checks of 02 Table 2.29 (04 R80). -/
def swrTrap (f : SF) (_c : Ctx) (_s : State) : Option Trap :=
  if specialWritable f.sr.toNat then none else some ⟨80, 2, 0⟩

/-- SWR: fprm and fpflags of the lane, patience of the group (04 R80). -/
def swrEff (f : SF) (c : Ctx) (s : State) : State :=
  let r := s.readOp c.lk f.a 1
  let x := r.1
  match f.sr.toNat with
  | 0x022 => r.2.updLane c.lk (fun l => { l with fprm := if 1 ≤ x ∧ x ≤ 5 then BitVec.ofNat 3 x else 1 })
  | 0x021 => r.2.updLane c.lk (fun l => { l with fpflags := BitVec.ofNat 9 x })
  | _ => r.2.updGroup c.gk (fun g => { g with patience := if x % 16 = 0 then 4 else x % 16 })

/-! ## TRAP, BRK, RETH (21 R289) -/

/-- Whether a BRK of a group takes a debug stop: its team's partition has an armed debugger, and the team records the trap; an earlier trap that
stands leaves the step unexecuted (21 R284, R289, 22 DBG_ATTACH.brk). -/
def State.brkArmed (s : State) (gk : Nat) : Bool := s.dbg.brk && s.watched (teamOf gk) && s.recordsTrap gk

/-- BRK raises its trap, but runs as a NOP in the first step after the resume from its own stop (21 R289, 22 R303). -/
def brkTrap (f : SF) (c : Ctx) (s : State) : Option Trap :=
  if (s.group c.gk).passBrk then none else some ⟨191, 31, f.imm.toNat⟩

/-- A trap of cause 31 by a BRK under an armed debugger takes a team stop in its place (21 R289). -/
def State.brkStop (s : State) (gk : Nat) (armed : Bool) : State :=
  if armed then (s.takeStop gk (s.group gk).core 0 false 3).updTeam (teamOf gk) (fun t => { t with stopRecord := true }) else s

/-- RETH acts at the end of its step (21 R289). -/
def rethEff (f : SF) (c : Ctx) (s : State) : State := s.leave ⟨0x1A4, f.imm.toNat % 4, c.pos⟩

/-! ## Device-side launches (04 R81 to R85) -/

/-- The memory operand of LAUNCH, TASK and TASKP: a record of 64 bytes (04 R82). -/
def recordAccess (f : SF) (c : Ctx) (s : State) : Except Trap Access × State :=
  let i := s.readOp c.lk f.a 1
  (s.laneAccess c.gk (f.imm.toNat % 64) (toSigned 32 i.1) 0 64, i.2)

/-- The 64 bytes of the operand, or zeros where mode 1 drops the access. -/
def State.recordBytes (s : State) (gk : Nat) (x : Access) : List Byte := if x.drop then List.replicate 64 0 else s.loadBytes gk x.phys 64

/-- OOB noted for an access that mode 1 drops (01 Table 1.10). -/
def State.noteDrop (s : State) (lk : Nat) (x : Access) : State := if x.drop then s.updLane lk (fun l => l.orFlags flagOOB) else s

/-- Whether a child never merges: its kernel is cooperative, or its after flag is set (04 R83). -/
def State.single (s : State) (g : Nat) : Bool :=
  let x := s.grid g
  dAfter x.desc || (match (s.kernelAt x.partition (dImage x.desc)).1 with | some k => k.coop | none => false)

/-- Whether a child agrees with a window's first (04 R83). -/
def sameKind (a b : Grid) : Bool :=
  a.partition == b.partition && dImage a.desc == dImage b.desc && dLanes a.desc == dLanes b.desc && dSplit a.desc == dSplit b.desc
    && dFlags a.desc == dFlags b.desc && dPrio a.desc == dPrio b.desc

/-- The children of a window checked and laid out in arrival order: their entries, the teams so far, and the state (04 Table 4.6). A rejected one completes
as soon as what it leaves behind can be written (01 R35). -/
def State.checkChildren (s : State) (gs : List Nat) : List Child × Nat × State :=
  gs.foldl (fun (acc : List Child × Nat × State) g =>
    let s := acc.2.2
    let x := s.grid g
    let cause := s.launchCause x.desc x.partition
    let s := s.lookedUp x.partition (dImage x.desc)
    let n := if cause = 0 then dTeams x.desc else 0
    let ch : Child :=
      { key := g, id := x.id, args := BitVec.ofNat 64 (dArgs x.desc), first := acc.2.1, count := n, gx := dGx x.desc, gy := dGy x.desc,
        gz := dGz x.desc, status := cause, desc := x.desc, retired := 0, done := cause != 0 && s.canLeave x.partition x.desc }
    let s := if !ch.done then s else s.leaveBehind x.partition x.id x.desc 0xFF 1 cause none s.now s.now 0 0 0
    (acc.1 ++ [ch], acc.2.1 + n, s)) (([] : List Child), 0, s)

/-- A closed window handed on: its merged grid is dispatched, or, with every child rejected, complete at once (04 R83, 01 R35). -/
def State.handOn (s : State) (w : Nat) : State :=
  match s.windows.get? w with
  | none => s
  | some x =>
    let r := s.checkChildren x.children
    let s := r.2.2
    let kept := match r.1.find? (fun c => c.status == 0) with | some c => some c.key | none => x.children.head?
    match kept with
    | none => { s with windows := s.windows.del w }
    | some k =>
      let first := s.grid k
      let kn := (s.kernelAt first.partition (dImage first.desc)).1.getD first.kernel
      let g := s.serial
      let s := { s.bump with
        windows := s.windows.del w, grids := s.grids.filter (fun e => !x.children.contains e.1),
        launchQueue := s.launchQueue.put x.die (s.launchQueue.getD x.die 0 - x.children.length) }
      let s := s.setGrid g { Grid.fresh with
        desc := first.desc, issuer := first.issuer, partition := first.partition, prio := dPrio first.desc, children := r.1,
        accepted := true, complete := r.1.all (fun c => c.done), dispatchAt := s.now }
      if r.2.1 = 0 then s else s.dispatch g kn r.2.1

/-- Whether closed windows are held: the Fiaris complex was halted, and has not yet handed on every one of them (22 R307). -/
def State.holding (s : State) : Bool := s.windows.any (fun e => e.2.closed)

/-- A window closes; while the Fiaris complex is halted it only waits, and behind others that still wait it waits too (04 R83, 22 R307). -/
def State.closeWindow (s : State) (w : Nat) : State :=
  if s.fwHalted || s.holding then
    { s with windows := s.windows.upd w (fun x => { x with closed := true, shut := s.windows.foldl (fun n e => max n e.2.shut) 0 + 1 }) }
  else s.handOn w

/-- Whether a held window is the one that closed first. -/
def State.shutFirst (s : State) (x : Window) : Bool := s.windows.all (fun e => !e.2.closed || x.shut ≤ e.2.shut)

/-- Lanes waiting in LAUNCHW whose children have all been handed on go on (04 R85). -/
def State.wakeLaunchers (s : State) : State :=
  s.lanes.foldl (fun s e => match (s.lane e.1).block with
    | .children ids =>
      let gk := e.1 / 32
      if s.groupHalted gk || (s.team (teamOf gk)).residency != .resident || s.windows.any (fun w => w.2.children.any (fun c => ids.contains c))
      then s
      else (s.retire e.1 (s.lane e.1).nextAt).updLane e.1 (fun l => { l with block := .free })
    | _ => s) s

/-- The teams a window's children ask for. -/
def State.windowTeams (s : State) (w : Window) : Nat := w.children.foldl (fun n c => n + dTeams (s.grid c).desc) 0

/-- A posted child reaches the aggregator of its die (04 R83). -/
def State.aggregate (s : State) (die g : Nat) : State :=
  let x := s.grid g
  let s := s.lookedUp x.partition (dImage x.desc)
  let open_ := if s.single g then none
    else s.windows.find? (fun w => w.2.die == die && !w.2.closed && s.cycle < w.2.opened + 256
      && (match w.2.children with | c :: _ => sameKind (s.grid c) x && !s.single c | [] => false))
  match open_ with
  | some (k, w) =>
    if 2 ^ 32 - 1 < s.windowTeams w + dTeams x.desc then
      let s := s.closeWindow k
      { s.bump with windows := s.windows.put s.serial { die := die, opened := s.cycle, closed := false, children := [g] } }
    else
      let s := { s with windows := s.windows.put k { w with children := w.children ++ [g] } }
      if w.children.length + 1 = 1024 then s.closeWindow k else s
  | none => { s.bump with windows := s.windows.put s.serial { die := die, opened := s.cycle, closed := false, children := [g] } }

def launchTrap (f : SF) (c : Ctx) (s : State) : Option Trap := accessTrap s c.gk 64 false (recordAccess f c s).1

/-- LAUNCH: the descriptor copied with its three fields replaced, posted under a fresh id, or 0 where the die's queue is full (04 R82). -/
def launchEff (f : SF) (c : Ctx) (s : State) : State :=
  withAccess (recordAccess f c s) (fun x s =>
    let s := s.noteDrop c.lk x
    let part := s.partitionOf c.tk
    let d0 := BitVec.ofNat 512 (leNat (s.recordBytes c.gk x))
    let d := setDesc (setDesc (setDesc d0 16 47 40 part) 48 63 0 (s.launchIdOf c.tk).toNat) 16 39 32
      (min (dPrio d0) (s.grid (s.team c.tk).grid).prio)
    let die := (s.group c.gk).core / 64
    if 4096 ≤ s.launchQueue.getD die 0 then s.writeOp c.lk f.d 2 0
    else
      let id := s.newId
      let g := s.serial
      let s := s.bump.setGrid g { Grid.fresh with id := id, desc := d, issuer := some (s.team c.tk).grid, partition := part, prio := dPrio d }
      let s := { s with launchQueue := s.launchQueue.put die (s.launchQueue.getD die 0 + 1) }
      (s.aggregate die g).writeOp c.lk f.d 2 id.toNat)

/-- The children a launch has posted before a serial that stand in windows. -/
def State.posted (s : State) (id before : Nat) : List Nat :=
  (s.windows.flatMap (fun w => w.2.children)).filter (fun c => c < before && dParent (s.grid c).desc == id)

/-- LAUNCHW: the windows close at the end of the step, and the lane waits for the children posted before it (04 R85). -/
def launchwEff (c : Ctx) (s : State) : State :=
  let id := (s.launchIdOf c.tk).toNat
  (s.leave ⟨0x1A6, id, 0⟩).updLane c.lk (fun l => { l with block := .children (s.posted id c.st.serial) })

/-- Every open window with a child of a launch closes (04 R85). -/
def State.closeWindowsOf (s : State) (id : Nat) : State :=
  let ws := (s.windows.filter (fun w => !w.2.closed && w.2.children.any (fun c => dParent (s.grid c).desc == id))).map (fun w => w.1)
  ws.foldl (fun s w => s.closeWindow w) s

/-! ## Tasks (04 R86, R87) -/

def trapTask : Trap := ⟨155, 23, 0⟩

/-- TASK: the operand's traps, then the record's (04 R87, 01 R26). -/
def taskTrap (f : SF) (c : Ctx) (s : State) : Option Trap :=
  match (recordAccess f c s).1 with
  | .error t => some t
  | .ok x => if s.taskOk (s.partitionOf c.tk) (s.recordBytes c.gk x) then none else some trapTask

/-- TASK: 1 where the local deque is full or absent, else the record is pushed (04 R87, 21 R298). -/
def taskEff (f : SF) (c : Ctx) (s : State) : State :=
  withAccess (recordAccess f c s) (fun x s =>
    let s := s.noteDrop c.lk x
    let core := (s.group c.gk).core
    if (s.core core).dqCap ≤ (s.core core).dqCount then s.writeOp c.lk f.d 1 1
    else
      let r := s.recordBytes c.gk x
      let s := s.lookedUp (s.partitionOf c.tk) (taskWord r 0)
      (s.dqPush core r ⟨(s.team c.tk).grid, c.gk, s.serial⟩).writeOp c.lk f.d 1 0)

def taskpTrap (f : SF) (c : Ctx) (s : State) : Option Trap := accessTrap s c.gk 64 true (recordAccess f c s).1

/-- TASKP: the record at the tail is taken and written, and is not run (04 R87). -/
def taskpEff (f : SF) (c : Ctx) (s : State) : State :=
  withAccess (recordAccess f c s) (fun x s =>
    let core := (s.group c.gk).core
    match (s.dqRecords core).getLast? with
    | none => s.writeOp c.lk f.d 1 0
    | some r =>
      let s := ((s.dqPop core).updGrid r.2.grid (fun g => { g with tasks := g.tasks - 1 })).noteDrop c.lk x
      (s.addOp c 0 x.space x.off (.store x.phys r.1 x.drop)).writeOp c.lk f.d 1 1)

/-- TASKS outside a task, or with a misaligned address (04 R87). -/
def tasksTrap (f : SF) (c : Ctx) (s : State) : Option Trap :=
  match (s.team c.tk).kind with
  | .task .. => if (s.readOp c.lk f.a 2).1 % 8 = 0 then none else some trapTask
  | _ => some trapTask

def tasksEff (f : SF) (c : Ctx) (s : State) : State :=
  let r := s.readOp c.lk f.a 2
  r.2.updTeam c.tk (fun t => { t with kind := match t.kind with | .task rec _ => .task rec r.1 | k => k })

/-! ## Active messages (04 R88 to R90) -/

/-- Whether a target word names a core of another device, or one of this device in the partition; a device above 1023 other than 0x7FF names
none (log 14). -/
def State.targetOk (s : State) (part x : Nat) : Bool :=
  bits x 31 19 == 0
    && (let dev := bits x 18 8
        if dev = 0x7FF || dev = s.device then s.corePart (bits x 7 0) == some part else dev ≤ 1023)

/-- The illegal-operand trap of a payload that is not eight registers from a multiple of 8 (04 R90). -/
def payloadTrap (o : Operand) : Option Trap :=
  match o with
  | .v n => if n.val % 8 = 0 then none else some ⟨80, 3, 0⟩
  | _ => some ⟨80, 3, 0⟩

def amsgTrap (f : SF) (c : Ctx) (s : State) : Option Trap :=
  firstTrap (payloadTrap f.a) (if s.targetOk (s.partitionOf c.tk) (s.readOp c.lk f.b 1).1 then none else some ⟨170, 24, 0⟩)

/-- msg.src of a lane (04 R89). -/
def State.msgSrc (s : State) (tk : Nat) : Nat := match (s.team tk).kind with | .message x => x | _ => 0

def amsgrTrap (f : SF) (c : Ctx) (s : State) : Option Trap :=
  firstTrap (payloadTrap f.a) (match (s.team c.tk).kind with
    | .message x => if s.targetOk (s.partitionOf c.tk) x then none else some ⟨170, 24, 0⟩
    | _ => some ⟨171, 25, 0⟩)

/-- One message placed in the core's outbound buffer (04 R90). -/
def State.sendMessage (s : State) (f : SF) (c : Ctx) (target : Nat) (reply : Bool) : State :=
  let core := (s.group c.gk).core
  let n := match f.a with | .v n => n.val | _ => 0
  let m : Message :=
    { target := bits target 7 0, device := bits target 18 8, handler := f.imm.toNat % 8, src := s.device * 256 + core,
      partition := s.partitionOf c.tk, reply := reply, refused := false, payload := (List.range 8).map (fun k => (s.lane c.lk).reg (n + k)) }
  s.updCore core (fun x => { x with outbox := x.outbox ++ [m] })

def amsgEff (f : SF) (c : Ctx) (s : State) : State :=
  let b := s.readOp c.lk f.b 1
  b.2.sendMessage f c b.1 false
def amsgrEff (f : SF) (c : Ctx) (s : State) : State := s.sendMessage f c (s.msgSrc c.tk) true

/-! ## REGION, PERF, STAMP, HINT (05 R103, 22 R311) -/

/-- REGION: the rows named and allocated; the highest lane stands (05 R103). -/
def regionEff (f : RI) (c : Ctx) (s : State) : State :=
  let b := Operand.code f.a
  s.updGroup c.gk (fun g =>
    { g with region := ((List.range 32).filter (fun k => f.imm.toNat.testBit k)).map (fun k => b + k)
        |>.filter (fun n => n < 32 * g.granules.length) })

/-- A counter of 22 Table 22.7, before this step. -/
def State.perfCounter (s : State) (gk n : Nat) : Nat :=
  let g := s.group gk
  (if n = 0 then s.cycle - g.placedAt else if n = 7 then (s.core g.core).steps else g.perf.getD n 0) % 2 ^ 64

def perfEff (f : SF) (c : Ctx) (s : State) : State := s.writeOp c.lk f.d 2 (s.perfCounter c.gk f.imm.toNat)

/-- STAMP and HINT write their record at the end of the step, from its lowest lane (22 R311). -/
def stampEff (f : SF) (c : Ctx) (s : State) : State :=
  let r := s.readOp c.lk f.a 1
  r.2.leave ⟨0x1AE, f.imm.toNat + 2 ^ 12 * c.pos, r.1⟩
def hintEff (f : SF) (c : Ctx) (s : State) : State := s.leave ⟨0x1B1, f.imm.toNat + 2 ^ 12 * c.pos, 0⟩

/-! ## WPSET, WPCLR (22 R306) -/

def wpsetEff (f : SF) (c : Ctx) (s : State) : State :=
  let r := s.readOp c.lk f.a 1
  r.2.leave ⟨0x1AF, f.imm.toNat + 2 ^ 12 * c.pos, r.1 + 2 ^ 32 * Operand.code f.d⟩

/-- The end of a step of WPSETs: the highest lane decides, every lane receives the status (22 R306). -/
def State.endWpset (s : State) (gk : Nat) (ps : List Pend) : State :=
  match ps.getLast? with
  | none => s
  | some p =>
    let tk := teamOf gk
    let t := s.team tk
    let o := p.y % 2 ^ 32
    let n := bits p.x 1 0
    let core := t.cores.getD (t.hostIndex o) 0
    let bad := o % 8 ≠ 0 || t.chamberSize < o + 8
    let busy := match (s.core core).watches.get? n with | some w => w.team != some tk | none => false
    let st := if bad then 2 else if busy then 1 else 0
    let w : Watch := ⟨o, t.chamberPhys o % 2 ^ 20, bits p.x 3 2, bits p.x 4 4, false, some tk⟩
    let s := if st ≠ 0 then s else s.updCore core (fun c => { c with watches := c.watches.put n w })
    ps.foldl (fun s q => s.writeOp (laneKey gk (q.x / 2 ^ 12)) (Operand.ofCode (q.y / 2 ^ 32)) 1 st) s

def wpclrEff (f : SF) (c : Ctx) (s : State) : State :=
  (s.team c.tk).cores.foldl (fun s k => s.updCore k (fun x =>
    { x with watches := x.watches.filter (fun w => !(w.1 == f.imm.toNat && w.2.team == some c.tk)) })) s

/-! ## PSWR (21 R298) -/

/-- The core that a PSWR of a group names: its own where b is z (21 R298). -/
def State.pswrCore (s : State) (gk : Nat) (b : Operand) (x : Nat) : Nat := match b with | .z => (s.group gk).core | _ => x

/-- The writes of a step's PSWR lanes: core, register and value; a core that the operand does not name is 256 or more. -/
def pswrWrites (c : Ctx) (s : State) : List (Nat × Nat × Nat) :=
  (c.st.reads.filter (fun r => bits r.word 8 0 == 0x1B2)).map (fun r =>
    (s.pswrCore c.gk (SF.ofWord r.word).b r.b, (SF.ofWord r.word).sr.toNat, r.a))

/-- A deque range that may stand on a core (21 R298). -/
def State.dequeOk (s : State) (core base lim : Nat) : Bool :=
  let n := (lim - base) / 64
  let held := (s.scratchUsed core).drop 1
    ++ (s.teams.filter (fun t => (match t.2.residency with | .saved _ _ q _ => q | _ => false) && t.2.cores.contains core)).map (fun t =>
        let j := t.2.coreIndex core
        (t.2.chamberAt.getD j 0, chamberShare t.2.kernel t.2.cores.length j))
    ++ (s.groups.filter (fun g => g.2.core == core && (match (s.team (teamOf g.1)).residency with | .saved _ _ q _ => q | _ => false))).map
        (fun g => (g.2.spillAt, (s.team (teamOf g.1)).spillSize))
  core < 256 && !(s.core core).retired && base % 64 == 0 && lim % 64 == 0 && base < 2 ^ 20 && lim < 2 ^ 21 && base ≤ lim
    && (n == 0 || ((List.range 13).any (fun k => 1 ≤ k && n == 2 ^ k)))
    && (n == 0 || held.all (fun r => r.2 == 0 || !overlaps base (lim - base) r.1 r.2))
    && (s.core core).dqCount == 0

/-- The pair of a core as the writes would leave it. -/
def State.dequePair (s : State) (core : Nat) (ws : List (Nat × Nat × Nat)) : Nat × Nat :=
  ws.foldl (fun p w => if w.1 = core then (if w.2.1 = 0x800 then (w.2.2, p.2) else (p.1, w.2.2)) else p)
    ((s.core core).dqbase.toNat, (s.core core).dqlim.toNat)

/-- The privileged-operand trap of a PSWR: the pair of its core as the whole step would leave it (21 R298). -/
def pswrTrap (f : SF) (c : Ctx) (s : State) : Option Trap :=
  let core := s.pswrCore c.gk f.b ((s.readOp c.lk f.a 1).2.readOp c.lk f.b 1).1
  let p := s.dequePair core (pswrWrites c s)
  if s.dequeOk core p.1 p.2 then none else some ⟨192, 34, 0⟩

def pswrEff (f : SF) (c : Ctx) (s : State) : State :=
  let a := s.readOp c.lk f.a 1
  let b := a.2.readOp c.lk f.b 1
  b.2.leave ⟨0x1B2, f.sr.toNat + 2 ^ 12 * s.pswrCore c.gk f.b b.1, a.1⟩

/-- The end of a step of PSWRs: every write applied, each deque written empty (21 R298). -/
def State.endPswr (s : State) (ps : List Pend) : State :=
  ps.foldl (fun s p => s.updCore (p.x / 2 ^ 12) (fun c =>
    let c := { c with dqHead := 0, dqCount := 0, dqTasks := [] }
    if p.x % 2 ^ 12 = 0x800 then { c with dqbase := BitVec.ofNat 32 p.y } else { c with dqlim := BitVec.ofNat 32 p.y })) s

/-! ## PCTX (21 R299) -/

/-- The saved team whose image stands at an address. -/
def State.imageAt (s : State) (a : Nat) : Option Nat :=
  (s.teams.find? (fun t => match t.2.residency with | .saved _ _ _ b => a == b | _ => false)).map (fun t => t.1)

/-- The op that decides for an image: that of the highest lane of the step that names it (21 R299). -/
def pctxOp (c : Ctx) (a : Nat) : Nat :=
  match (c.st.reads.filter (fun r => bits r.word 8 0 == 0x1B3 && r.a == a)).getLast? with
  | some r => (SF.ofWord r.word).imm.toNat % 4
  | none => 0

def pctxTrap (f : SF) (c : Ctx) (s : State) : Option Trap :=
  let a := (s.readOp c.lk f.a 2).1
  match s.imageAt a with
  | none => some ⟨192, 34, 0⟩
  | some tk =>
    if pctxOp c a = 2 then
      (match (s.team tk).residency with
       | .saved 3 _ _ _ => none
       | _ => some ⟨192, 34, 0⟩)
    else none

def pctxEff (f : SF) (c : Ctx) (s : State) : State :=
  let r := s.readOp c.lk f.a 2
  let op := pctxOp c r.1
  match s.imageAt r.1 with
  | none => r.2
  | some tk =>
    if op = 0 then r.2.writeOp c.lk f.d 2 (imageWhy (s.team tk) + 2 ^ 32 * s.imageSize tk false)
    else (r.2.leave ⟨0x1B3, op, tk⟩).writeOp c.lk f.d 2 0

/-- A page future completed: parked commands go on, and images that wait for the page are queued for their places (21 R290). -/
def State.future (s : State) (page : Nat) (served : Bool) : State :=
  let s := s.pageDone page served
  { s with teams := s.teams.mapVals (fun _ t => match t.residency with
      | .saved w p _ a => if w = 3 && p = page then { t with residency := .saved w p true a } else t
      | _ => t) }

/-- The end of a step of PCTXs (21 R299): op 1 ends the image's launch, op 2 fails the future of its page. -/
def State.endPctx (s : State) (ps : List Pend) : State :=
  ps.foldl (fun s p =>
    match (s.team p.y).residency with
    | .saved _ page _ _ => if p.x = 1 then s.beginEnd (s.team p.y).grid 6 none else s.future page false
    | _ => s) s

/-! ## The meanings -/


/-- SRD (04 R79, R80). -/
def execSrd (f : SF) (s : State) : Result := laneWord (.s 0x1A0 Rows.srd f) (trapping (srdTrap f) (srdEff f)) s

/-- SWR (04 R80). -/
def execSwr (f : SF) (s : State) : Result := laneWord (.s 0x1A1 Rows.swr f) (trapping (swrTrap f) (swrEff f)) s

/-- TRAP (21 R289: the step traps and executes in no lane). -/
def execTrap (f : SF) (s : State) : Result := laneWord (.s 0x1A2 Rows.trap f) (trapping (fun _ _ => some ⟨190, 30, f.imm.toNat⟩) (fun _ s => s)) s

/-- BRK (21 R289): the step traps and executes in no lane; under an armed debugger the team stops in its place. -/
def execBrk (f : SF) (s : State) : Result :=
  match laneWord (.s 0x1A3 Rows.brk f) (trapping (brkTrap f) (fun _ s => s)) s with
  | .next t =>
    (match s.turn, t.turn with
     | .issue st, .idle => .next (t.brkStop st.group (s.brkArmed st.group))
     | _, _ => .next t)
  | r => r

/-- RETH (21 R289). -/
def execReth (f : SF) (s : State) : Result := laneWord (.s 0x1A4 Rows.reth f) (plain (rethEff f)) s

/-- LAUNCH (04 R82). -/
def execLaunch (f : SF) (s : State) : Result := laneWord (.s 0x1A5 Rows.launch f) (trapping (launchTrap f) (launchEff f)) s

/-- LAUNCHW (04 R85). -/
def execLaunchw (f : SF) (s : State) : Result := laneWord (.s 0x1A6 Rows.launchw f) (holding (fun _ _ => none) launchwEff) s

/-- TASK (04 R87). -/
def execTask (f : SF) (s : State) : Result := laneWord (.s 0x1A7 Rows.task f) (trapping (taskTrap f) (taskEff f)) s

/-- TASKP (04 R87). -/
def execTaskp (f : SF) (s : State) : Result := laneWord (.s 0x1A8 Rows.taskp f) (trapping (taskpTrap f) (taskpEff f)) s

/-- TASKS (04 R87). -/
def execTasks (f : SF) (s : State) : Result := laneWord (.s 0x1A9 Rows.tasks f) (trapping (tasksTrap f) (tasksEff f)) s

/-- AMSG (04 R89, R90). -/
def execAmsg (f : SF) (s : State) : Result := laneWord (.s 0x1AA Rows.amsg f) (trapping (amsgTrap f) (amsgEff f)) s

/-- AMSGR (04 R89, R90). -/
def execAmsgr (f : SF) (s : State) : Result := laneWord (.s 0x1AB Rows.amsgr f) (trapping (amsgrTrap f) (amsgrEff f)) s

/-- REGION (05 R103). -/
def execRegion (f : RI) (s : State) : Result := laneWord (.ri 0x1AC Rows.region f) (plain (regionEff f)) s

/-- PERF (22 R311). -/
def execPerf (f : SF) (s : State) : Result := laneWord (.s 0x1AD Rows.perf f) (plain (perfEff f)) s

/-- STAMP (22 R311). -/
def execStamp (f : SF) (s : State) : Result := laneWord (.s 0x1AE Rows.stamp f) (plain (stampEff f)) s

/-- WPSET (22 R306). -/
def execWpset (f : SF) (s : State) : Result := laneWord (.s 0x1AF Rows.wpset f) (plain (wpsetEff f)) s

/-- WPCLR (22 R306). -/
def execWpclr (f : SF) (s : State) : Result := laneWord (.s 0x1B0 Rows.wpclr f) (plain (wpclrEff f)) s

/-- HINT (22 R311). -/
def execHint (f : SF) (s : State) : Result := laneWord (.s 0x1B1 Rows.hint f) (plain (hintEff f)) s

/-- PSWR (21 R298). -/
def execPswr (f : SF) (s : State) : Result := laneWord (.s 0x1B2 Rows.pswr f) (trapping (pswrTrap f) (pswrEff f)) s

/-- PCTX (21 R299). -/
def execPctx (f : SF) (s : State) : Result := laneWord (.s 0x1B3 Rows.pctx f) (trapping (pctxTrap f) (pctxEff f)) s

end Sys2Proof.Machine
end

