-- ==== Sys2Proof/Machine/Launches.lean ====
section
/-! DEFINITION. The events of launches, tasks and messages (04 R74, R75, R77, R78, R83, R86, R88, R90), and of retirement and completion
(25 R317 to R322, 21 R288). -/

namespace Sys2Proof.Machine

/-! ## Feeds (04 R74, R75) -/

/-- A feed of the configured count that runs its entries: the part is ready for feeds (04 R66). -/
def State.liveFeed (s : State) (f : Nat) : Bool :=
  s.bootStage == 4 && (match s.config with | some r => f < r.feeds | none => false) && !(s.feed f).stopped && !s.fwHalted

def entryDesc (e : List Byte) : BitVec 512 := BitVec.ofNat 512 (leNat e)

/-- The head entry of a feed consumed. -/
def State.consume (s : State) (f : Nat) : State := s.updFeed f (fun x => { x with entries := x.entries.drop 1, head := x.head + 1 })

/-- FEED_ENTRY_DISPATCH: the next launch entry, unless its after flag holds it, receives its id, is checked, and is dispatched or rejected
(04 R74, 01 R35, R332). -/
def execFeedEntryDispatch (f : Nat) (s : State) : Result := s.happens <|
  let x := s.feed f
  match x.entries with
  | [] => none
  | e :: _ =>
    let d := entryDesc e
    if !s.liveFeed f || x.work || (dAfter d && x.launches.any (fun g => !(s.grid g).complete)) then none
    else
      let id := s.newId
      let g := s.serial
      let cause := s.launchCause d x.partition
      let kn := (s.kernelAt x.partition (dImage d)).1
      let s := s.lookedUp x.partition (dImage d)
      let s := (s.bump.consume f).updFeed f (fun x => { x with launches := x.launches ++ [g] })
      let s := s.setGrid g { Grid.fresh with
        id := id, desc := d, feed := some f, partition := x.partition, prio := dPrio d, dispatchAt := s.now }
      if cause = 0 then
        kn.map (fun k => s.dispatch g k (dTeams d))
      else
        some ((s.updFeed f (fun x => { x with reject := cause })).reject g f cause)

/-- WORK_RECORD_APPEND: the next work record is appended to its chute as one push of the command-processor end, or the feed stops (04 R75). -/
def execWorkRecordAppend (f : Nat) (s : State) : Result := s.happens <|
  let x := s.feed f
  match x.entries with
  | [] => none
  | e :: _ =>
    if !s.liveFeed f || !x.work then none
    else
      let halt := s.updFeed f (fun x => { x with stopped := true, stop := 2 })
      match s.findTeam x.wlaunch x.team.toNat with
      | none => some halt
      | some tk =>
        let c := (s.team tk).chute x.chute
        match c.desc with
        | none => some halt
        | some d =>
          if descPend d ≠ 2 || s.partitionOf tk ≠ x.partition then some halt
          else if (s.team tk).residency ≠ .resident || c.free = 0 then none
          else
            some (((s.land tk x.chute none s.serial (s.cycle + 1) e true 0 0).bump.updChute tk x.chute (fun c => { c with free := c.free - 1 })).consume f)

/-! ## Windows (04 R83) -/

/-- WINDOW_TIMEOUT: a window closes 256 cycles after its first child arrived; one that closed under a halted Fiaris complex is handed on, in the order of
their closing (04 R83, 22 R307). -/
def execWindowTimeout (w : Nat) (s : State) : Result := s.happens <|
  match s.windows.get? w with
  | none => none
  | some x =>
    if x.closed then (if s.fwHalted || !s.shutFirst x then none else some (s.handOn w).wakeLaunchers)
    else if x.opened + 256 ≤ s.cycle then some (s.closeWindow w).wakeLaunchers
    else none

/-! ## Starting teams (04 R77, R78, 05 R97) -/

/-- A grid whose teams may start: accepted, not ending, and a child with the after flag only behind the earlier children of its issuer (04 R83). -/
def State.startable (s : State) (g : Nat) : Bool :=
  let x := s.grid g
  let after := x.children.any (fun c => dAfter c.desc
    && s.grids.any (fun o => o.2.children.any (fun e => !e.done && e.key < c.key && dParent e.desc == dParent c.desc)
      || (!o.2.accepted && o.1 < c.key && dParent o.2.desc == dParent c.desc && !o.2.complete)))
  x.accepted && !x.complete && x.status == 0 && !after

/-- Whether a grid comes before another at a distributor: higher priority, then dispatch order (04 R78). -/
def State.before (s : State) (a b : Nat) : Bool :=
  (s.grid b).prio < (s.grid a).prio || ((s.grid a).prio == (s.grid b).prio && a < b)

/-- The place of the next team of a grid on a cluster. -/
def State.roomFor (s : State) (g cl : Nat) : Option (List Share) :=
  let x := s.grid g
  if s.partCluster x.partition cl then s.planFor x.partition x.kernel (groupsFor (dLanes x.desc)) cl else none

/-- The first unstarted index of a grid in a cluster. -/
def Grid.nextIndex (g : Grid) (cl : Nat) : Option Nat := ((g.ranges.getD cl []).find? (fun r => r.2 != 0)).map (fun r => r.1)

/-- The first index of a cluster's range taken. -/
def Grid.takeIndex (g : Grid) (cl : Nat) : Grid :=
  match (g.ranges.getD cl []).filter (fun r => r.2 != 0) with
  | (lo, n) :: rest => { g with ranges := g.ranges.put cl (if n = 1 then rest else (lo + 1, n - 1) :: rest) }
  | [] => g

/-- One team of a grid started: index `i`, by a plan. -/
def State.startTeam (s : State) (g i : Nat) (plan : List Share) : Option State :=
  let x := s.grid g
  (s.placeTeam g i x.kernel (if x.service then .service else .ordinary) (dLanes x.desc) (dSplit x.desc) plan []).map (fun r => r.2)

/-- The next team of a cluster's range started. -/
def State.startNext (s : State) (g cl : Nat) : Option State :=
  match (s.grid g).nextIndex cl, s.roomFor g cl with
  | some i, some p => (s.updGrid g (fun x => x.takeIndex cl)).startTeam g i p
  | _, _ => none

/-- Every team of a cooperative grid started at once: each cluster its own range as far as it fits, the rest wherever there is room (01 R19). -/
def startAll (g : Nat) (cls : List Nat) : Nat → State → Option State
  | 0, _ => none
  | n + 1, s =>
    match cls.find? (fun cl => (s.grid g).unstarted cl != 0) with
    | none => some s
    | some own =>
      match s.startNext g own with
      | some t => startAll g cls n t
      | none =>
        match (s.grid g).nextIndex own, cls.findSome? (fun cl => s.roomFor g cl) with
        | some i, some p => (match (s.updGrid g (fun x => x.takeIndex own)).startTeam g i p with
          | some t => startAll g cls n t
          | none => none)
        | _, _ => none

/-- The start of a grid's next team on a cluster, or of the whole grid where it is cooperative (05 R97, 01 R19); none where there is no room. -/
def State.startOn (s : State) (grid cluster : Nat) : Option State :=
  let x := s.grid grid
  if x.kernel.coop then startAll grid (s.clusters x.partition) (x.teams + 1) s else s.startNext grid cluster

/-- TEAM_PLACE: a cluster distributor starts the next team of a grid's range, behind no grid offered earlier that can start; one that waits for room
holds back no other (05 R97, 04 R78). A cooperative grid is placed whole (01 R19). -/
def execTeamPlace (cluster grid : Nat) (s : State) : Result := s.happens <|
  let others := s.grids.filter (fun o => o.1 != grid && o.2.unstarted cluster != 0 && s.startable o.1 && s.before o.1 grid)
  if s.fwHalted || !s.startable grid || (s.grid grid).unstarted cluster == 0 || others.any (fun o => (s.startOn o.1 cluster).isSome) then
    none
  else s.startOn grid cluster

/-- The range of a cluster that a steal splits: the longest, the first of them on ties. -/
def Grid.longest (g : Grid) (cl : Nat) : Option (Nat × Nat) :=
  (g.ranges.getD cl []).foldl (fun best r => match best with | none => some r | some b => if b.2 < r.2 then some r else best) none

/-- A range split for a thief: the victim keeps the first half, the longer one (04 R78). -/
def Grid.rob (g : Grid) (cl : Nat) : Option ((Nat × Nat) × Grid) :=
  match g.longest cl with
  | some (lo, n) =>
    if n ≤ 1 then none
    else
      let k := (n + 1) / 2
      some ((lo + k, n - k), { g with ranges := g.ranges.put cl ((g.ranges.getD cl []).map (fun r => if r = (lo, n) then (lo, k) else r)) })
  | none => none

/-- Unstarted teams of every grid in a cluster. -/
def State.unstartedOn (s : State) (cl : Nat) : Nat := s.grids.foldl (fun n g => n + g.2.unstarted cl) 0

/-- The grid whose teams some clusters offer first to a thief: of those with a range that can be split there, the first at a distributor (04 R78;
log 76). -/
def State.offered (s : State) (cls : List Nat) : Option Nat :=
  let splits (g : Nat) : Bool :=
    s.startable g && !(s.grid g).kernel.coop && cls.any (fun cl => ((s.grid g).longest cl).any (fun r => 1 < r.2))
  ((s.grids.map (fun g => g.1)).filter splits).foldl
    (fun best g => match best with | none => some g | some b => if s.before g b then some g else some b) none

/-- What a cluster of a partition steals now: the victim, the fullest sibling of its die, and the grid. It has no unstarted team left and could place one
of that grid (04 R78). -/
def State.clusterSteal (s : State) (part cluster : Nat) : Option (Nat × Nat) :=
  if s.unstartedOn cluster ≠ 0 then none
  else
    match maxBy s.unstartedOn ((s.clusters part).filter (fun cl => cl / 8 == cluster / 8 && cl != cluster)) with
    | none => none
    | some v =>
      match s.offered [v] with
      | some g => if (s.roomFor g cluster).isSome then some (v, g) else none
      | none => none

/-- CLUSTER_STEAL: the upper half of the victim's range of a grid goes to the thief; steals that arise together are made in ascending order of the thief
(04 R78). -/
def execClusterSteal (cluster grid : Nat) (s : State) : Result := s.happens <|
  let x := s.grid grid
  let earlier := (s.clusters x.partition).filter (fun cl => cl / 8 == cluster / 8 && cl < cluster)
  match s.clusterSteal x.partition cluster with
  | none => none
  | some (v, g) =>
    if s.fwHalted || g ≠ grid || earlier.any (fun cl => (s.clusterSteal x.partition cl).isSome) then none
    else (x.rob v).map (fun r => s.setGrid grid (r.2.give [(cluster, r.1.1, r.1.2)]))

/-- What a die steals now for a partition: the cluster with the largest range of the fullest die, and the grid. No cluster of the die holds unstarted teams
of the partition, and one could place a team of that grid (04 R78). -/
def State.dieSteal (s : State) (part die : Nat) : Option (Nat × Nat) :=
  let cls := s.clusters part
  let on (d : Nat) : List Nat := cls.filter (fun cl => cl / 8 == d)
  if (on die).any (fun cl => s.unstartedOn cl != 0) then none
  else
    match maxBy (fun d => (on d).foldl (fun n cl => n + s.unstartedOn cl) 0) ((List.range 4).filter (fun d => d != die)) with
    | none => none
    | some d =>
      match s.offered (on d) with
      | none => none
      | some g =>
        match maxBy (fun cl => match (s.grid g).longest cl with | some r => r.2 | none => 0) (on d) with
        | some v => if (on die).any (fun cl => (s.roomFor g cl).isSome) then some (v, g) else none
        | none => none

/-- DIE_STEAL: half of that range goes to the die, shared among its clusters that have room; dies that ask together are served in ascending order
(04 R78). -/
def execDieSteal (die grid : Nat) (s : State) : Result := s.happens <|
  let x := s.grid grid
  let room := (s.clusters x.partition).filter (fun cl => cl / 8 == die && (s.roomFor grid cl).isSome)
  match s.dieSteal x.partition die with
  | none => none
  | some (v, g) =>
    if s.fwHalted || g ≠ grid || (List.range die).any (fun d => (s.dieSteal x.partition d).isSome) then none
    else (x.rob v).map (fun r => s.setGrid grid (r.2.give (cutRange r.1.1 r.1.2 room)))

/-! ## Tasks (04 R86) -/

/-- Eight words as v0 to v7 of every lane. -/
def firstRegs (ws : List Nat) : AList W32 := ws.zipIdx.map (fun w => (w.2, BitVec.ofNat 32 w.1))

/-- The coordinates of a team without a place in a grid: the spec states none (log 13). -/
def State.looseCoords (s : State) (tk : Nat) : State :=
  let x := s.free
  let y := x.2.free
  let z := y.2.free
  z.2.updTeam tk (fun t => { t with x := x.1.toNat % 2 ^ 32, y := y.1.toNat % 2 ^ 16, z := z.1.toNat % 2 ^ 16 })

/-- A task run on a core as a one-group team (01 R26). The spec has a record checked when it is pushed; the image's header words are read again here, as
memory now holds them, and not checked again (DESIGN CHOICE, log 46). -/
def State.runTask (s : State) (core : Nat) (rec : List Byte) (g : Nat) : Option State :=
  let part := (s.grid g).partition
  match (s.kernelAt part (taskWord rec 0)).1 with
  | none => none
  | some k =>
    match s.planOn part k 1 [core] false with
    | none => none
    | some p =>
      let v := firstRegs ((List.range 8).map (fun j => leNat ((rec.drop (32 + 4 * j)).take 4)))
      (s.placeTeam g 0 k (.task rec (taskWord rec 24)) 32 0 p v).map (fun r => r.2.looseCoords r.1)

/-- TASK_RUN: the owner takes the record at its tail and runs it (04 R86). -/
def execTaskRun (core : Nat) (s : State) : Result := s.happens <|
  match (s.dqRecords core).getLast? with
  | none => none
  | some r =>
    if s.fwHalted || (s.grid r.2.grid).status ≠ 0 || !s.taskReleased r.2 then none else (s.dqPop core).runTask core r.1 r.2.grid

/-- The victims of a thief in the order it tries them: its cluster, its die, the other dies, each from its own core upwards (04 R86). -/
def victims (core : Nat) : List Nat :=
  let up (lo n : Nat) : List Nat := (List.range (n - 1)).map (fun k => lo + (core - lo + 1 + k) % n)
  let near := up (core / 8 * 8) 8
  let die := (up (core / 64 * 64) 64).filter (fun c => c / 8 != core / 8)
  near ++ die ++ (up 0 256).filter (fun c => c / 64 != core / 64)

/-- TASK_STEAL: a core with an empty deque takes the record at the head of the first victim's deque, unless it is pinned, and runs it (04 R86). -/
def execTaskSteal (core : Nat) (s : State) : Result := s.happens <|
  if s.fwHalted || (s.core core).dqCount ≠ 0 then none
  else
    let able (v : Nat) : Bool := (s.corePart v == s.corePart core)
      && (match s.dqRecords v with | r :: _ => !taskPinned r.1 && (s.grid r.2.grid).status == 0 && s.taskReleased r.2 | [] => false)
    match (victims core).find? able with
    | none => none
    | some v =>
      match s.dqRecords v with
      | [] => none
      | r :: _ => (s.dqShift v).runTask core r.1 r.2.grid

/-! ## Active messages (04 R88, R90) -/

def State.handlerImage (s : State) (part h : Nat) : Nat := match s.config with | some r => AList.getD r.handlers (part * 8 + h) 0 | none => 0

/-- Whether a handler chute has room: 64 entries, eight of them kept for replies (04 R88). -/
def State.chuteRoom (s : State) (core : Nat) (m : Message) : Bool :=
  let q := (s.core core).inbox
  q.length < 64 && (m.reply || (q.filter (fun x => !x.reply)).length < 56)

/-- Whether a message is discarded at a core: it names an empty handler entry, or comes from outside the core's partition (04 R88). -/
def State.discards (s : State) (core : Nat) (m : Message) : Bool :=
  s.handlerImage m.partition m.handler == 0 || s.corePart core != some m.partition

/-- A message arrives at a core that has room: queued, or discarded and counted (04 R88). -/
def State.receive (s : State) (core : Nat) (m : Message) : State :=
  if s.discards core m then
    s.updHealth (core / 64) (fun h => { h with msg := satInc h.msg })
  else s.updCore core (fun c => { c with inbox := c.inbox ++ [m] })

/-- Whether a message's target is a core of this device. -/
def State.localTarget (s : State) (m : Message) : Bool := m.device == 0x7FF || m.device == s.device

/-- Whether two messages of this device go to one target: 0x7FF and the device's own number name the same device (04 Table 4.8). -/
def State.sameTarget (s : State) (a b : Message) : Bool :=
  a.target == b.target && (a.device == b.device || (s.localTarget a && s.localTarget b))

/-- The oldest message of an outbound buffer that no earlier one to its target holds back, among those a test picks, with its place (04 R90). -/
def State.nextOut (s : State) (pick : Message → Bool) (q : List Message) : Option (Nat × Message) :=
  (q.zipIdx.find? (fun m => pick m.1 && !(q.take m.2).any (fun e => s.sameTarget e m.1))).map (fun m => (m.2, m.1))

/-- A message leaves an outbound buffer for its target: delivered, refused for want of room, or sent to another part, as soon as a link to it is up (14
R209; log 15). -/
def State.deliver (s : State) (core k : Nat) (m : Message) : Option State :=
  let gone := s.updCore core (fun c => { c with outbox := c.outbox.eraseIdx k })
  if !s.localTarget m then
    (s.linkFor m.device).map (fun l => gone.sendPacket l
      ([m.device, m.target, m.handler, m.src, m.partition, b2n m.reply] ++ m.payload.map (fun w => w.toNat)))
  else if s.chuteRoom m.target m || s.discards m.target m then some (gone.receive m.target m)
  else some (s.updCore core (fun c => { c with outbox := c.outbox.set k { m with refused := true } }))

/-- MESSAGE_ARRIVE: the next message of an outbound buffer, or one of another part, arrives (04 R88, R90). -/
def execMessageArrive (src : MsgSource) (s : State) : Result := s.happens <|
  match src with
  | .core c =>
    (match s.nextOut (fun m => !m.refused) (s.core c).outbox with
     | some (k, m) => s.deliver c k m
     | none => none)
  | .remote core handler from_ part reply payload =>
    let m : Message := ⟨core, 0x7FF, handler, from_, part, reply, false, payload⟩
    if core < 256 && !s.held && s.links.any (fun l => s.linked l.1) && (s.chuteRoom core m || s.discards core m) then some (s.receive core m) else none

/-- MESSAGE_RETRY: a refused message is taken once its target has room (04 R90). -/
def execMessageRetry (core : Nat) (s : State) : Result := s.happens <|
  match s.nextOut (fun m => m.refused) (s.core core).outbox with
  | some (k, m) => if s.chuteRoom m.target m || s.discards m.target m then s.deliver core k m else none
  | none => none

/-- HANDLER_RUN: the reserved slot runs the oldest message of a core as a one-group team (04 R88). Its grid has no launch id, and reports nothing
(25 R319). -/
def execHandlerRun (core : Nat) (s : State) : Result := s.happens <|
  match (s.core core).inbox with
  | [] => none
  | m :: rest =>
    let busy := (s.coreGroups core).any (fun gk => match (s.team (teamOf gk)).kind with | .message _ => true | _ => false)
    match (s.kernelAt m.partition (s.handlerImage m.partition m.handler)).1 with
    | none => none
    | some k =>
      (match s.planOn m.partition k 1 [core] true with
       | none => none
       | some p =>
         if busy || s.fwHalted then none
         else
           let g := s.serial
           let s := s.bump.setGrid g { Grid.fresh with
             desc := setDesc (setDesc 0 8 31 0 1) 8 47 32 1, kernel := k, partition := m.partition, teams := 1, accepted := true, prio := 15 }
           match s.placeTeam g 0 k (.message m.src) 32 0 p (firstRegs (m.payload.map (fun w => w.toNat))) with
           | some r => some ((r.2.looseCoords r.1).updCore core (fun c => { c with inbox := rest }))
           | none => none)

/-! ## Retirement (25 R317 to R319) -/

/-- The record of a successor block whose counter has come to exactly 0 is pushed for a grid (01 R27); one that fails its checks ends the grid (01 R26).
None while room in a deque of the partition has to be waited for (log 16). What the retiring task did has been performed, so the push releases nothing
more. -/
def State.pushSuccessor (s : State) (g part core : Nat) (task : List Byte) : Option State :=
  let cs := core :: (List.range 256).filter (fun c => s.corePart c == some part && !(s.core c).retired)
  let t := s.lookedUp part (taskWord task 0)
  if !s.taskOk part task then some (t.beginEnd g 5 none)
  else (cs.find? (fun c => (s.core c).dqCount < (s.core c).dqCap)).map (fun c => t.dqPush c task ⟨g, 0, 0⟩)

/-- A task's successor block: the counter falls by one at its owner, and at exactly 0 its record is pushed (01 R27). Where the owner refuses the decrement
nothing is pushed and the task retires (DESIGN CHOICE, log 16). None while the counter's page, a link to its part, or room in a deque has to be waited
for. The counter and the record of a block on another part are what that part answers: free values (log 16). -/
def State.successor (s : State) (tk core : Nat) : Option State :=
  let t := s.team tk
  match t.kind with
  | .task _ succ =>
    let part := s.partitionOf tk
    if succ = 0 then some s
    else if s.elsewhere succ then
      let old := Config.freeValue s.freeN
      let task := (List.range 8).flatMap (fun k => leBytes 8 (Config.freeValue (s.freeN + 1 + k)).toNat)
      match ({ s with freeN := s.freeN + 9 }).tellPart part succ (.add (2 ^ 64 - 1)) with
      | none => none
      | some s => if old ≠ 1 then some s else ((s.tellPart part (succ + 8) (.read 64)).getD s).pushSuccessor t.grid part core task
    else if vaReserved succ || !s.ownAddr succ then some s
    else
      match s.readVaFrom (core / 64) part succ 72 with
      | (none, _) => none
      | (some b, s) =>
        let r := s.signalAt (.die (core / 64)) part succ (fun x => (x + 2 ^ 64 - 1) % 2 ^ 64)
        if r.1.isSome || leNat (b.take 8) ≠ 1 then some r.2 else r.2.pushSuccessor t.grid part core (b.drop 8)
  | _ => some s

/-- Whether every group of a team has retired. -/
def State.teamDone (s : State) (tk : Nat) : Bool := (List.range (s.team tk).groups).all (fun gi => (s.group (groupKey tk gi)).retired)

/-- The grid barrier of the teams that remain looks again: a retired team counts in it (18 R273). -/
def State.updateGridBarrierOf (s : State) (g : Nat) : State :=
  match s.teams.find? (fun t => t.2.grid == g && t.2.residency == .resident) with
  | some t => s.updateGridBarrier t.1
  | none => s

/-- GROUP_RETIRE: a group whose lanes have exited and whose work has drained gives up its slot, granules and spill stack; the last one of a team retires
it (25 R317, R318), and a task's successor block is handled (01 R27). The teams of an ending launch are ended and do not retire (21 R288, 25 R319). -/
def execGroupRetire (gk : Nat) (s : State) : Result := s.happens <|
  let g := s.group gk
  let tk := teamOf gk
  let t := s.team tk
  if (s.groups.get? gk).isNone || g.retired || (s.grid t.grid).status ≠ 0 || t.residency ≠ .resident || !(s.liveLanes gk).isEmpty || !g.ops.isEmpty
      || s.cmds.any (fun c => c.2.group == gk && (c.2.st != .done || (c.2.fault.isSome && !c.2.reported)))
      || g.oc.any (fun c => c.2 != 0) || (!t.handling && t.record.any (fun r => r.group == indexOf gk)) then none
  else
    let s := s.setGroup gk { g with retired := true, granules := [], grant := none }
    let s := { s with lanes := s.lanes.filter (fun l => l.1 / 32 != gk) }
    if s.teamDone tk then
      match s.successor tk g.core with
      | none => none
      | some s => some (((s.countOut tk).release tk .retired).updateGridBarrierOf t.grid)
    else some (s.updateBarriers tk true)

/-- A team with a trap that no handler takes: none is named, the trap arose in the handler group, or the trap frame is absent (21 R288). -/
def State.unhandled (s : State) (tk : Nat) : Bool :=
  let t := s.team tk
  t.residency == .resident && t.stops.isEmpty && t.record.isSome && s.allStopped tk && s.allLanded tk
    && (t.kernel.handler == 0 || t.record.any (fun r => r.inhdl) || !t.frameHeld)
    && !(t.handling && !t.record.any (fun r => r.inhdl))

/-- LAUNCH_END: Fiaris ends the launch of a team whose trap no handler takes; then, once what was performing has completed, each team of an ending
grid gives up what it holds (21 R288). -/
def execLaunchEnd (grid : Nat) (s : State) : Result := s.happens <|
  let x := s.grid grid
  let here := s.teams.filter (fun t => t.2.grid == grid && t.2.residency == .resident)
  if x.complete || s.fwHalted then none
  else if x.status = 0 then
    match here.find? (fun t => s.unhandled t.1) with
    | some t => some (s.beginEnd grid (if t.2.kernel.handler = 0 && !t.2.record.any (fun r => r.inhdl) then 2 else 4) t.2.record)
    | none => none
  else
    match here.find? (fun t => s.drained t.1) with
    | some t => some ((s.countOut t.1).release t.1 .ended)
    | none => none

/-! ## Completion (25 R320) -/

/-- Whether a launch naming `id` as parent has not completed. -/
def State.hasChild (s : State) (id : Nat) : Bool :=
  id != 0 && s.grids.any (fun g =>
    (g.2.children.isEmpty && !g.2.complete && dParent g.2.desc == id)
      || g.2.children.any (fun c => !c.done && dParent c.desc == id))

/-- LAUNCH_COMPLETE: a launch whose teams, tasks and children are done leaves its time record, report entry and signal, and its code pages are
unpinned (25 R320 to R322); each child of a merged grid completes by itself once its own teams have (04 R84), the grid with its last child and task, and a
rejected launch with what it leaves behind (01 R35). -/
def execLaunchComplete (grid : Nat) (s : State) : Result := s.happens <|
  let x := s.grid grid
  if x.complete then none
  else if x.status = 1 then (if s.canLeave x.partition x.desc then some (s.reject grid (x.feed.getD 0xFF) x.cause) else none)
  else if !x.accepted then none
  else if x.children.isEmpty then
    if x.tasks ≠ 0 || x.retired < x.teams || s.hasChild x.id.toNat || !s.canLeave x.partition x.desc then none
    else
      let s := if x.id = 0 then s
        else s.leaveBehind x.partition x.id x.desc (x.feed.getD 0xFF) x.status 0 x.record x.dispatchAt s.now x.fault x.io x.engine
      some (s.updGrid grid (fun g => { g with complete := true, pinned := false }))
  else
    match x.children.find? (fun c => !c.done && c.count ≤ c.retired && !s.hasChild c.id.toNat && s.canLeave x.partition c.desc) with
    | none => if x.children.all (fun e => e.done) && x.tasks = 0 then some (s.updGrid grid (fun g => { g with complete := true, pinned := false })) else none
    | some c =>
      let s :=
        if c.status ≠ 0 then s.leaveBehind x.partition c.id c.desc 0xFF 1 c.status none x.dispatchAt x.dispatchAt 0 0 0
        else s.leaveBehind x.partition c.id c.desc 0xFF x.status 0 x.record x.dispatchAt s.now x.fault x.io x.engine
      let s := s.updGrid grid (fun g => { g with children := g.children.map (fun e => if e.key = c.key then { e with done := true } else e) })
      some (if (s.grid grid).children.all (fun e => e.done) && x.tasks = 0 then
        s.updGrid grid (fun g => { g with complete := true, pinned := false }) else s)

end Sys2Proof.Machine
end

