-- ==== Sys2Proof/Machine/Preempt.lean ====
section
/-! DEFINITION. The events of halts, handlers, page waiters and pre-emption (21 R283 to R297). -/

namespace Sys2Proof.Machine

/-- HALT_RECEIVE: the halt of its team reaches a group, which issues nothing from here on (21 R283). -/
def execHaltReceive (gk : Nat) (s : State) : Result := s.happens <|
  if (s.groups.get? gk).isSome && (s.team (teamOf gk)).trigger.isSome && !(s.group gk).halted then some (s.receiveHalt gk)
  else none

/-- Every group of a team has received its halt. -/
def State.haltAll (s : State) (tk : Nat) : State := (s.teamGroups tk).foldl (fun s gk => s.receiveHalt gk) s

/-- A pre-emption selects a team: it is to be saved, and the halt is triggered (21 R292); a reason already given stands. -/
def State.selectTeam (s : State) (tk why core : Nat) : State :=
  (s.updTeam tk (fun t => { t with saveFor := match t.saveFor with | some x => some x | none => some (why, 0) })).triggerTeam tk core

/-- HANDLER_START: every group of the team has stopped and its lane instructions have landed; the handler group takes the trapping group's slot
(21 R287). Under a debug stop it waits (21 Table 21.5); a pre-emption that came with the trap halts the team again, with the handler running. The handler's entry is read from the entry
table as memory holds it now (DESIGN CHOICE, log 46). -/
def execHandlerStart (t : Nat) (s : State) : Result := s.happens <|
  let x := s.team t
  match x.record with
  | none => none
  | some r =>
    if x.residency ≠ .resident || x.handling || r.inhdl || !x.stops.isEmpty || x.kernel.handler = 0 || !x.frameHeld
        || (s.grid x.grid).status ≠ 0 || !s.allStopped t || !s.allLanded t then none
    else
      match s.readVa (s.partitionOf t) (x.kernel.image + 16 + 4 * x.kernel.handler) 4 with
      | (none, _) => none
      | (some e, s) =>
        let s := (s.haltAll t).enterHandler t (leNat e) r
        some (if x.saveFor.isSome then s.triggerTeam t r.core else s)

/-! ## Saving (21 R290, R294, R295, 11 R178) -/

/-- Every element of a chute back in its ring: pops at the window are counted, the window is discarded, and the mirrored count is that of the ring. -/
def Chute.settled (c : Chute) : Chute :=
  match c.desc with
  | none => c
  | some d =>
    let left := c.elems.drop c.popped
    let back (e : Element) : Element := { e with forwarded := false }
    { c with
      elems := left.map back, head := (c.head + c.popped) % descCap d, popped := 0, poppedAt := none, withdrawn := false, window := [], notices := 0,
      closedThere := false,
      free := descCap d - left.length, freedN := 0 }

/-- Whether every command of a team has completed or parked with its started elements done, but for unsatisfied SWAITs, untaken COLLs and a stopped
stream (15 R216, 21 R291). -/
def State.commandsRest (s : State) (tk : Nat) : Bool :=
  s.cmds.all (fun c => teamOf c.2.group != tk || c.2.st == .done || (c.2.st == .parked && s.startedDone c.2) || c.2.op == 0x162
    || c.2.op == 0x14F || (c.2.op == 0x150 && c.2.sent.isEmpty))

/-- The address Fiaris records for an image: one that no other image has, a multiple of 64 (log 7). -/
def State.imageAddr (s : State) : Nat :=
  let a := (Config.freeValue (2 ^ 71 + s.serial)).toNat / 64 * 64
  let used := s.teams.filterMap (fun t => match t.2.residency with | .saved _ _ _ b => some b | _ => none)
  if used.contains a then 64 + used.foldl max 0 else a

/-- Whether a team can be saved now: it has stopped and all its work rests, and no trap of it waits to be handled (21 R295, Table 21.5). -/
def State.canSave (s : State) (tk : Nat) : Bool :=
  let t := s.team tk
  t.residency == .resident && (s.grid t.grid).status == 0 && s.allStopped tk && s.allLanded tk && s.commandsRest tk
    && t.chutes.all (fun c => c.2.arriving.isEmpty) && s.turn != .stream tk
    && (t.record.isNone || t.handling || !t.stops.isEmpty) && !s.capturing tk

/-- A lane in the image of its team: the cycles counted in a YIELD's wait so far stand in place of its start (06 R114). -/
def Lane.stored (now : Nat) (l : Lane) : Lane :=
  match l.block with
  | .yield opps since => { l with block := .yield opps (now - since) }
  | _ => l

/-- The lanes of a team, those of its trap frame among them, each changed. -/
def State.updTeamLanes (s : State) (tk : Nat) (f : Lane → Lane) : State :=
  ((s.teamGroups tk).foldl (fun s gk => s.updLanes gk (fun _ l => f l)) s).updTeam tk (fun t =>
    { t with frame := t.frame.map (fun x => { x with lanes := x.lanes.mapVals (fun _ l => f l) }) })

/-- How a team stands when it has been saved: a page waiter records the page of its oldest parked command, and is queued for its place at once where
the pager has meanwhile mapped every page it waited for (21 R290). -/
def State.savedAs (s : State) (tk why addr : Nat) : Residency :=
  if why ≠ 3 then .saved why 0 true addr
  else
    match s.cmds.find? (fun c => teamOf c.2.group == tk && c.2.st == .parked) with
    | some c => .saved 3 c.2.page false addr
    | none => .saved 3 0 true addr

/-- TEAM_SAVE: the team's image is written and its place given up (21 R290, R294, R295). -/
def execTeamSave (t : Nat) (s : State) : Result := s.happens <|
  match (s.team t).saveFor with
  | none => none
  | some (why, _) =>
    if !s.canSave t then none
    else
      let r := s.savedAs t why s.imageAddr
      let image := (s.scratchOf t).map (fun r => (r.1, s.mem.readBytes r.1 r.2))
      let s := ((s.haltAll t).bump).updTeamLanes t (Lane.stored s.cycle)
      let s := (s.team t).cores.foldl (fun s c => s.updCore c (fun x => { x with watches := x.watches.filter (fun w => w.2.team != some t) })) s
      let s := s.updTeam t (fun x => { x with
        residency := r, saveFor := none, trigger := none, image := image, savedAt := s.now, savedHalted := !x.stops.isEmpty,
        savedHandling := x.handling, chutes := x.chutes.mapVals (fun _ c => c.settled) })
      let freeze (c : Command) : Command :=
        if teamOf c.group = t && c.st ≠ .done && c.op ≠ 0x162 then
          { c with frozen := true, st := if c.st = .parked then CmdState.parked else CmdState.queued, stage := [], sent := [], buf := if c.st = .parked then c.buf else [] }
        else c
      let s := (s.cmds.filter (fun c => teamOf c.2.group == t)).foldl (fun s c => s.giveUp c.2) s
      some { s with cmds := s.cmds.mapVals (fun _ c => freeze c) }

/-- PAGE_MAPPED: the pager, while the Fiaris complex runs (22 R307), maps a page or gives it up: parked commands are sent again, and page waiters are
queued for their places (15 R215, 21 R290). -/
def execPageMapped (page : Nat) (served : Bool) (s : State) : Result := s.happens <|
  if s.fwHalted then none else some (s.future page served)

/-! ## Restoring (21 R296) -/

/-- Granules a group of an image needs: its own, or while a handler runs in its slot those of the trap frame. -/
def State.granulesOf (s : State) (gk : Nat) : Nat :=
  match (s.team (teamOf gk)).frame with
  | some f => if f.gi = indexOf gk then f.group.granules.length else (s.group gk).granules.length
  | none => (s.group gk).granules.length

/-- Whether a core of an image's place can hold the team's share again (21 R294, 05 R97, R99). -/
def State.restorable (s : State) (tk core : Nat) : Bool :=
  let t := s.team tk
  let mine := (s.teamGroups tk).filter (fun gk => (s.group gk).core == core)
  let on := s.teamsOn core
  let handler := match t.kind with | .message _ => true | _ => false
  let used := s.scratchUsed core
  s.usable core && mine.length ≤ s.freeSlots (s.partitionOf tk) core handler
    && mine.foldl (fun n gk => n + s.granulesOf gk) 0 ≤ s.spareGranules core
    && on.foldl (fun n x => n + x.2.kernel.xctx) 0 + t.kernel.xctx ≤ 8
    && (t.cores.head? != some core || t.kernel.acc == 0
        || on.all (fun x => x.2.cores.head? != some core || x.2.kernel.acc == 0))
    && (s.scratchOf tk).all (fun r => r.1 / 2 ^ 20 != core || r.2 == 0 || used.all (fun u => u.2 == 0 || !overlaps (r.1 % 2 ^ 20) r.2 u.1 u.2))

/-- A lane as its image gives it back: one at a clause header enters the clause again (06 R108), skids are cleared (21 R296), and a YIELD waits for what
it still owes (06 R114). -/
def Lane.restored (now : Nat) (l : Lane) : Lane :=
  match l.block with
  | .yield opps since => { l.reenter with skid := 0, block := .yield opps (now - since) }
  | _ => { l.reenter with skid := 0 }

/-- The image of a team written back to its place, its commands sent again, its groups released unless a debug stop or a trap holds them, and its sequencer
with them (21 R296, 17 R249). -/
def State.restore (s : State) (tk : Nat) : State :=
  let img := (s.team tk).image
  let s := img.foldl (fun s r => s.setMem (Memory.writeBytes (s.mem.clear r.1 r.2.length) r.1 r.2)) s
  let gks := s.teamGroups tk
  let s := s.updTeamLanes tk (Lane.restored s.cycle)
  let counts := gks.map (fun gk => (gk, s.granulesOf gk))
  let s := gks.foldl (fun s gk => s.updGroup gk (fun g => { g with granules := [] })) s
  let s := s.updTeam tk (fun t => { t with
    image := [], residency := .resident, frame := t.frame.map (fun f => { f with group := { f.group with granules := [] } }) })
  let s := { s with groups := s.groups.mapVals (fun k g => if teamOf k = tk && !g.retired then { g with port := 99, slot := 99 } else g) }
  let s := counts.foldl (fun s c =>
    let g := s.group c.1
    let p := s.freeSlot g.core
    let gs := (s.freeGranules g.core).take c.2
    let s := s.setGroup c.1 { g with
      port := p.1, slot := p.2, granules := if g.handler then gs.take 1 else gs, last := none, perf := [], placedAt := s.cycle, region := [] }
    s.updTeam tk (fun t => { t with frame := t.frame.map (fun f => if groupKey tk f.gi = c.1 then
      { f with group := { f.group with granules := gs, port := p.1, slot := p.2, last := none, perf := [], placedAt := s.cycle, region := [] } }
      else f) })) s
  let thaw (c : Command) : Command :=
    if teamOf c.group = tk && c.frozen then
      { c with frozen := false, st := if c.st = .parked then (if c.performed.isEmpty && c.stage.isEmpty then CmdState.queued else CmdState.performing) else c.st }
    else c
  let s := { s with cmds := s.cmds.mapVals (fun _ c => thaw c) }
  let s := s.startSlice (s.team tk).grid tk
  if (s.team tk).runs then s.resumeTeam tk else s.updTeam tk (fun t => { t with seqr := { t.seqr with halted := t.seqr.run } })

/-- A saved team queued for its place. -/
def State.waiting (s : State) (tk : Nat) : Bool := match (s.team tk).residency with | .saved _ _ q _ => q | _ => false

def State.fitsBack (s : State) (tk : Nat) : Bool := s.waiting tk && (s.team tk).cores.all (fun c => s.restorable tk c)

/-- Every saved team of a cooperative grid restored, one after the other, or none (21 R292). -/
def restoreAll : List Nat → State → Option State
  | [], s => some s
  | tk :: r, s => if s.fitsBack tk then restoreAll r (s.restore tk) else none

/-- TEAM_RESTORE: an image returns to its place (21 R294, R296); the images of a cooperative grid return together, once each of its teams that is to be
saved has been (21 R292). -/
def execTeamRestore (t : Nat) (s : State) : Result := s.happens <|
  let g := (s.team t).grid
  let saving := (s.team t).kernel.coop
    && s.teams.any (fun x => x.2.grid == g && x.2.residency == .resident && x.2.saveFor.any (fun w => w.1 != 3))
  if s.fwHalted || !s.waiting t || saving then none
  else
    let all := if (s.team t).kernel.coop then
        (s.teams.filter (fun x => x.2.grid == g && (match x.2.residency with | .saved .. => true | _ => false))).map (fun x => x.1)
      else [t]
    match restoreAll all s with
    | some s => some s
    | none => none

/-! ## Pre-emption (21 R292, R293) -/

/-- Whether a grid of a partition, of at least a priority, waits for cores. -/
def State.coresWanted (s : State) (part prio g : Nat) : Bool :=
  s.grids.any (fun o => o.1 != g && o.2.partition == part && prio ≤ o.2.prio && s.startable o.1
      && o.2.ranges.any (fun r => r.2.any (fun q => q.2 != 0)))
    || s.teams.any (fun t => t.2.grid != g && s.waiting t.1 && (s.grid t.2.grid).partition == part && prio ≤ (s.grid t.2.grid).prio)

/-- Whether a core has been asked for in this cycle. -/
def State.askedNow (s : State) (c : Nat) : Bool := s.vacateAt.get? c == some (s.cycle + 55000)

/-- TIME_SLICE_EXPIRE: at the end of its slice a grid is saved if another of at least its priority waits, and runs another slice otherwise; under a
debug stop the expiry is discarded; teams on cores that are asked for in the same cycle are left to the spatial request (21 R292, Table 21.5). -/
def execTimeSliceExpire (grid : Nat) (s : State) : Result := s.happens <|
  let x := s.grid grid
  let here := s.teams.filter (fun t => t.2.grid == grid && t.2.residency == .resident && !t.2.cores.any s.askedNow)
  let slice := match s.config with | some r => cyclesOf r.sliceNs | none => cyclesOf 2000000
  if s.fwHalted || here.isEmpty || x.status ≠ 0 || s.cycle < x.sliceAt + slice then none
  else
    let again := s.updGrid grid (fun g => { g with sliceAt := s.cycle })
    if here.any (fun t => !t.2.stops.isEmpty) || !s.coresWanted x.partition x.prio grid then some again
    else some (here.foldl (fun s t => s.selectTeam t.1 1 (t.2.cores.getD 0 0)) again)

/-- SPATIAL_PREEMPT: Fiaris asks for cores to be vacated; dispatch and restores to them stop, and their teams have 55,000 cycles to retire (21 R292); those
that an expiry of the same cycle has selected are left to the request (Table 21.5). A further request adds its cores, and one for no cores gives back
those vacated (log 17). -/
def execSpatialPreempt (cores : List Nat) (s : State) : Result := s.happens <|
  if s.fwHalted then none
  else if cores.isEmpty then some { s with vacating := [], vacateAt := [] }
  else
    let late := (s.teams.filter (fun t => s.expiredNow t.1 && t.2.cores.any (fun c => cores.contains c))).map (fun t => t.1)
    let s := late.foldl (fun s k => s.dropSlice k) s
    some { s with
      vacating := s.vacating ++ cores.filter (fun c => !s.vacating.contains c)
      vacateAt := cores.foldl (fun m c => if (m.get? c).isSome then m else m.put c (s.cycle + 55000)) s.vacateAt }

/-- Ranges of clusters that are left with no usable core, handed to the die's other clusters, or to the other dies (21 R293). -/
def State.redistribute (s : State) (g : Nat) : State :=
  let x := s.grid g
  let cls := s.clusters x.partition
  (x.ranges.filter (fun r => !cls.contains r.1)).foldl (fun s r =>
    let near := cls.filter (fun cl => cl / 8 == r.1 / 8)
    let s := s.updGrid g (fun y => { y with ranges := y.ranges.del r.1 })
    r.2.foldl (fun s q => s.updGrid g (fun y => y.give (if near.isEmpty then spreadRange q.1 q.2 cls else cutRange q.1 q.2 near))) s) s

/-- The cores whose window has ended. -/
def State.windowOver (s : State) : List Nat := (s.vacateAt.filter (fun v => v.2 ≤ s.cycle)).map (fun v => v.1)

/-- Whether a team holds a slot on a core: a group of it there has not retired (25 R317). -/
def State.holdsSlot (s : State) (tk core : Nat) : Bool := (s.coreGroups core).any (fun gk => teamOf gk == tk)

/-- SPATIAL_WINDOW_EXPIRE: every team that still holds a slot on the cores whose window has ended is halted to be saved, and unstarted ranges move on (21
R292, R293). -/
def execSpatialWindowExpire (s : State) : Result := s.happens <|
  let gone := s.windowOver
  if s.fwHalted || gone.isEmpty then none
  else
    let s := { s with vacateAt := s.vacateAt.filter (fun v => !(v.2 ≤ s.cycle)) }
    let hit := s.teams.filterMap (fun t =>
      if t.2.residency = .resident then (t.2.cores.find? (fun c => gone.contains c && s.holdsSlot t.1 c)).map (fun c => (t.1, c)) else none)
    let s := hit.foldl (fun s t => s.selectTeam t.1 2 t.2) s
    some ((s.grids.map (fun g => g.1)).foldl (fun s g => s.redistribute g) s)

end Sys2Proof.Machine
end

