-- ==== Sys2Proof/Machine/Debugger.lean ====
section
/-! DEFINITION. The debugger's events (22 R301 to R310) and core dumps (25 R323, R324). -/

namespace Sys2Proof.Machine

def State.setDbg (s : State) (f : Debug → Debug) : State := { s with dbg := f s.dbg }
/-- A request refused: DBG_STATUS error, and nothing else (22 R301). -/
def State.dbgError (s : State) (e : Nat) : State := s.setDbg (fun d => { d with error := e })

/-- The device authority of the host (22 DBG_ATTACH.auth). -/
def State.authority (s : State) : Bool := match s.config with | some r => r.authority | none => false

/-- The selected team, where it is of the attached partition (22 R301). -/
def State.selected (s : State) : Option Nat :=
  match s.findTeam s.dbg.sel s.dbg.team.toNat with
  | some tk => if s.partitionOf tk = s.dbg.part then some tk else none
  | none => none

def wScope (w : Nat) : Nat := bits w 2 0
def wTarget (w : Nat) : Nat := bits w 11 4

/-- A malformed stop or resume word (22 R301). -/
def malformed (w : Nat) : Bool :=
  4 ≤ wScope w || bits w 63 12 != 0
    || (match wScope w with
        | 1 => 31 < wTarget w
        | 2 => 4 < wTarget w
        | _ => wTarget w != 0)

/-- The error a stop or resume word meets before its target is looked at (22 R301). -/
def State.refusal (s : State) (w : Nat) : Option Nat :=
  if malformed w then some 4
  else if wScope w ≤ 1 && !s.dbg.att then some 5
  else if 2 ≤ wScope w && !s.authority then some 1
  else none

/-- A DBG_STOP write of one scope; a malformed word is answered whatever scope it names (22 R301, R302). -/
def dbgStop (scope : Nat) (word : W64) (s : State) : Result := s.happens <|
  let w := word.toNat
  if wScope w ≠ scope && wScope w < 4 then none
  else
    match s.refusal w with
    | some e => some (s.dbgError e)
    | none =>
      let fw := bit w 3
      if scope = 0 then
        match s.selected with
        | none => some (s.dbgError 3)
        | some tk => some (((s.stopOne tk fw).traceStops [(tk, (s.team tk).cores.getD 0 0)] (groupKey tk 0) 0 fw 0).dbgError 0)
      else
        let hit := s.teamsIn scope (wTarget w)
        some (((s.stopScope scope (wTarget w) fw).traceStops hit 0 scope fw 0).dbgError 0)

/-- Whether a group's BRK took the stop that a team's record stands for (21 R289): the detail of a BRK is its code, that of a breakpoint has bit 12 set. -/
def Team.brkOf (t : Team) (gk : Nat) : Bool :=
  t.stopRecord && t.record.any (fun r => r.cause == 31 && r.detail.toNat < 2 ^ 12 && r.group == indexOf gk)

/-- The parks of a group counted on from a cycle (06 R114). -/
def Lane.unfreeze (now : Nat) (l : Lane) : Lane := match l.block with | .park _ owed => { l with block := .park now owed } | _ => l

/-- No group is stepped any more: one that has steps left stands again, and its parks are frozen (06 R114). -/
def State.stepsOver (s : State) : State :=
  let still (s : State) : State := s.setDbg (fun d => { d with left := 0, why := 0, stepping := none })
  match s.dbg.stepping with
  | some gk => if s.dbg.left = 0 then still s else still (s.updLanes gk (fun _ => Lane.freeze s.cycle))
  | none => still s

/-- A stop removed from a team: without another, the team is released, unless a trap of it waits for its handler (22 R302, 21 R297). The record of a stop goes,
and that of a handler it halted stands again. The first issue step
of each of its groups passes the breakpoints, and the BRK that took the stop (22 R303); the slice of its grid restarts. -/
def State.unstop (s : State) (tk : Nat) (h : StopHold) : State :=
  let t := s.team tk
  let left := t.stops.erase h
  if left.length = t.stops.length then s
  else if !left.isEmpty then s.setTeam tk { t with stops := left }
  else
    let s := s.setTeam tk { t with stops := [], record := if t.stopRecord then t.frame.map (fun f => f.record) else t.record, stopRecord := false }
    let s := s.updGrid t.grid (fun g => { g with sliceAt := s.cycle })
    let s := if s.dbg.stepping.any (fun gk => teamOf gk == tk) then s.stepsOver else s
    let s := (s.teamGroups tk).foldl (fun s gk => s.updGroup gk (fun g => { g with skipBreak := true, passBrk := g.passBrk || t.brkOf gk })) s
    if t.residency = .resident && (s.team tk).runs && t.saveFor.isNone then s.resumeTeam tk else s

/-- A stop of cluster, die or device scope lifted from every team and core it holds. -/
def State.lift (s : State) (scope target : Nat) : State :=
  let left : List (Nat × Nat) := s.dbg.stops.erase (scope, target)
  let s : State := { s with dbg := { s.dbg with stops := left }, stoppedCores := left.flatMap (fun x => scopeCores x.1 x.2) }
  (s.teams.map (fun t => t.1)).foldl (fun s tk => s.unstop tk ⟨scope, target⟩) s

/-- A resume of a stop that stopped nothing (22 R301). -/
def State.liftIdle (s : State) (scope target : Nat) : State :=
  { s with dbg := { s.dbg with idleStops := s.dbg.idleStops.erase (scope, target) } }

/-- A DBG_RESUME write of one scope: the stop it matches is lifted, and with fw the Fiaris complex runs on, whether or not a stop matches (22 R302, R307;
log 53). -/
def dbgResume (scope : Nat) (word : W64) (s : State) : Result := s.happens <|
  let w := word.toNat
  if wScope w ≠ scope && wScope w < 4 then none
  else
    match s.refusal w with
    | some e => some (s.dbgError e)
    | none =>
      let fw := bit w 3 || scope == 3
      let s' := (if fw then { s with fwHalted := false } else s).dbgError 0
      if scope = 0 then
        match s.selected with
        | none => some (s'.dbgError 3)
        | some tk =>
          if (s.team tk).stops.contains ⟨0, tk⟩ then some (s'.unstop tk ⟨0, tk⟩).wakeLaunchers
          else some (s'.dbgError 2)
      else if s.dbg.stops.contains (scope, wTarget w) then
        some (s'.lift scope (wTarget w)).wakeLaunchers
      else if s.dbg.idleStops.contains (scope, wTarget w) then some (s'.liftIdle scope (wTarget w))
      else some (s'.dbgError 2)

/-- DBG_STOP_TEAM (22 R301, R302). -/
def execDbgStopTeam (word : W64) (s : State) : Result := dbgStop 0 word s
/-- DBG_STOP_CLUSTER (22 R301, R302). -/
def execDbgStopCluster (word : W64) (s : State) : Result := dbgStop 1 word s
/-- DBG_STOP_DIE (22 R301, R302). -/
def execDbgStopDie (word : W64) (s : State) : Result := dbgStop 2 word s
/-- DBG_STOP_DEVICE (22 R301, R302, R307). -/
def execDbgStopDevice (word : W64) (s : State) : Result := dbgStop 3 word s
/-- DBG_RESUME_TEAM (22 R301, R302). -/
def execDbgResumeTeam (word : W64) (s : State) : Result := dbgResume 0 word s
/-- DBG_RESUME_CLUSTER (22 R301, R302). -/
def execDbgResumeCluster (word : W64) (s : State) : Result := dbgResume 1 word s
/-- DBG_RESUME_DIE (22 R301, R302). -/
def execDbgResumeDie (word : W64) (s : State) : Result := dbgResume 2 word s
/-- DBG_RESUME_DEVICE (22 R301, R302, R307). -/
def execDbgResumeDevice (word : W64) (s : State) : Result := dbgResume 3 word s

/-- The debugger's watchpoints taken off every core, and enable cleared in every WPk (22 R304). -/
def State.disarm (s : State) : State :=
  { s with
    cores := s.cores.mapVals (fun _ c => { c with watches := c.watches.filter (fun w => w.2.team.isSome) }),
    dbg := { s.dbg with wp := s.dbg.wp.mapVals (fun _ w => if w.getLsbD 34 then w - (1#36 <<< 34) else w) } }

/-- DBG_ATTACH_WRITE: partition, attachment and brk (22 Table 22.2, R304). -/
def execDbgAttachWrite (val : Nat) (s : State) : Result :=
  let att := bit val 8
  let part := bits val 7 0
  let s := if !att || part ≠ s.dbg.part then s.disarm else s
  .next (s.setDbg (fun d => { d with part := part, att := att, brk := att && bit val 10 }))

/-- A team under a debug stop. -/
def State.stopped (s : State) (tk : Nat) : Bool := !(s.team tk).stops.isEmpty && s.allStopped tk

/-- DBG_STEP: the selected group of a stopped team is to take n steps, and its parks count on (22 R308, 06 R114). -/
def execDbgStep (n : Nat) (s : State) : Result := s.happens <|
  if n = 0 || 255 < n then none
  else if !s.dbg.att then some (s.dbgError 5)
  else
    match s.selected with
    | none => some (s.dbgError 3)
    | some tk =>
      let gk := groupKey tk s.dbg.group
      if !s.stopped tk then some (s.dbgError 2)
      else if !(s.teamGroups tk).contains gk then some (s.dbgError 3)
      else
        some ((s.stepsOver.updLanes gk (fun _ => Lane.unfreeze s.cycle)).setDbg (fun d =>
          { d with error := 0, left := n, stepping := some gk, stepFirst := true }))

/-- DBG_STEP_CANCEL: a write of 0 cancels the steps still owed (22 R308). -/
def execDbgStepCancel (s : State) : Result := if !s.dbg.att then .next (s.dbgError 5) else .next s.stepsOver

/-- BREAKPOINT_SET: half 0 is the image address of BPk, half 1 its pc, enable and scope; the breakpoint belongs to the selected team (22 Table 22.2,
R301, R303). -/
def execBreakpointSet (k half val : Nat) (s : State) : Result := s.happens <|
  if 4 ≤ k then none
  else
    let b := s.dbg.bp.getD k { image := 0, pc := 0, enable := false, scope := 0, launch := 0, team := 0 }
    let put (b : Breakpoint) : Option State := some (s.setDbg (fun d => { d with bp := d.bp.put k b }))
    if half = 0 then put { b with image := BitVec.ofNat 64 val }
    else if bit val 32 && !s.dbg.att then some (s.dbgError 5)
    else if bit val 32 && 4 ≤ bits val 35 33 then some (s.dbgError 4)
    else if bit val 32 && 2 ≤ bits val 35 33 && !s.authority then some (s.dbgError 1)
    else put { b with pc := BitVec.ofNat 32 val, enable := bit val 32, scope := bits val 35 33, launch := s.dbg.sel, team := s.dbg.team }

/-- WATCHPOINT_SET: WPk armed at its core, left unarmed where a field of it is out of range or a team holds the watchpoint, or cleared (22 Table 22.2,
R301, R304). -/
def execWatchpointSet (k val : Nat) (s : State) : Result := s.happens <|
  if 4 ≤ k then none
  else
    let off := bits val 19 0
    let core := bits val 27 20
    let en := bit val 34
    if en && !s.dbg.att then some (s.dbgError 5)
    else if en && 3 ≤ bits val 32 30 && bits val 32 30 ≤ 4 && !s.authority then some (s.dbgError 1)
    else
      let s := { s with cores := s.cores.mapVals (fun _ c => { c with watches := c.watches.filter (fun w => !(w.1 == k && w.2.team.isNone)) }) }
      let held := (s.core core).watches.any (fun w => w.1 == k)
      let ok := off % 8 == 0 && bits val 29 28 != 0 && bits val 32 30 ≤ 4 && s.corePart core == some s.dbg.part && !held
      let word := BitVec.ofNat 36 (val % 2 ^ 34 + (if en && ok then 2 ^ 34 else 0))
      let s := s.setDbg (fun d => { d with wp := d.wp.put k word })
      if !en then some s
      else if !ok then some (s.dbgError 4)
      else
        let w : Watch := ⟨off, off, bits val 29 28, bits val 32 30, bit val 33, none⟩
        some (s.updCore core (fun c => { c with watches := c.watches.put k w }))

/-- DBG_TRC_WRITE: tracing on or off, and the sample interval while it is off (22 Table 22.2, R310). -/
def execDbgTrcWrite (val : Nat) (s : State) : Result :=
  let k := bits val 12 8
  .next (s.setDbg (fun d => { d with trace := bit val 0, k := if !d.trace && 10 ≤ k && k ≤ 24 then k else d.k }))

/-- The sample that a port writes in this cycle: every 2^k cycles, for the group it served in it (22 R310); none where it has been written. -/
def State.sampleDue (s : State) (core port : Nat) : Option Sample :=
  if !s.dbg.trace || s.cycle % 2 ^ s.dbg.k ≠ 0 || (s.core core).served.get? port ≠ some s.cycle then none
  else (AList.get? (s.core core).samples port).filter (fun x => s.watched (teamOf x.group))

/-- A sample written (22 Table 22.6). -/
def State.writeSample (s : State) (core port : Nat) (x : Sample) : State :=
  (s.updCore core (fun c => { c with samples := c.samples.del port })).trace x.group 1 (coreSource core (1 + port)) x.mask.toNat
    (x.tag + 2 ^ 16 * x.cls + 2 ^ 20 * b2n x.idle)

/-- Every sample of this cycle not yet written is (22 R310). -/
def State.writeSamples (s : State) : State :=
  if !s.dbg.trace || s.cycle % 2 ^ s.dbg.k ≠ 0 then s
  else s.cores.foldl (fun s c => (List.range 4).foldl (fun s port => match s.sampleDue c.1 port with
    | some x => s.writeSample c.1 port x
    | none => s) s) s

/-- TRACE_SAMPLE: a port writes its sample of this cycle; one not written by the end of the cycle is written then (22 R310). -/
def execTraceSample (core port : Nat) (s : State) : Result := s.happens <| (s.sampleDue core port).map (fun x => s.writeSample core port x)

/-! ## Dumps (25 R323, R324, 22 R309) -/

/-- DBG_DUMP: a capture of the selected team begins where it is stopped (25 R323). -/
def execDbgDump (addr : Nat) (s : State) : Result :=
  if !s.dbg.att then .next (s.dbgError 5)
  else
    match s.selected with
    | some tk =>
      if s.stopped tk && !s.dbg.dumpBusy then
        .next (s.setDbg (fun d => { d with dump := BitVec.ofNat 64 addr, dumpBusy := true, dumpFail := false, dumpTeam := tk, error := 0 }))
      else .next (s.dbgError 2)
    | none => .next (s.dbgError 2)

/-- Whether everything of the team being dumped that was in flight when the capture began has landed (25 R323). -/
def State.dumpLanded (s : State) : Bool :=
  s.cmds.all (fun c => teamOf c.2.group != s.dbg.dumpTeam || c.2.op == 0x14F || s.startedDone c.2)

/-- The dump taken: its stamp is the cycle after everything has landed, and it shows what stands at that stamp (25 R323). -/
def State.takeDump (s : State) : State :=
  if s.dbg.dumpBusy && s.dbg.dumpAt.isNone && s.dumpLanded then
    s.setDbg (fun d => { d with dumpAt := some s.cycle, dumpStamp := s.now, dumpImage := s.dumpBytes d.dumpTeam s.now })
  else s

/-- DUMP_COMPLETE: the dump is written to host memory, or fails (25 R323). -/
def execDumpComplete (ok : Bool) (s : State) : Result := s.happens <|
  if !s.dbg.dumpBusy || s.dbg.dumpAt.isNone then none
  else
    let s := if ok then s.setMem (s.mem.writeBytes (hostAddr s.dbg.dump.toNat) s.dbg.dumpImage) else s
    some (s.setDbg (fun d => { d with dumpBusy := false, dumpFail := !ok, dumpAt := none, dumpImage := [] }))

/-! ## The barker (22 R307) -/

/-- What the barker answers while the Fiaris complex is halted goes out on its network; it touches nothing else (22 Table 22.4). -/
def State.bark (s : State) (path x : Nat) : Result := s.happens <|
  if s.fwHalted then some { s with netOut := s.netOut ++ [[path, x]] } else none

/-- ROCE_REQUEST_WHILE_HALTED: answered RNR NAK with the largest timer (22 Table 22.4). -/
def execRoceRequestWhileHalted (req : Nat) (s : State) : Result := s.bark 1 req
/-- NVMEOF_KEEP_ALIVE: a Keep Alive at half the timeout (22 Table 22.4). -/
def execNvmeofKeepAlive (conn : Nat) (s : State) : Result := s.bark 2 conn
/-- MAILBOX_WHILE_HALTED: answered busy (22 Table 22.4). -/
def execMailboxWhileHalted (req : Nat) (s : State) : Result := s.bark 3 req

end Sys2Proof.Machine
end

