-- ==== Sys2Proof/Machine/Links.lean ====
section
/-! DEFINITION. The events of owners, the pager and the links (14 R199 to R210). -/

namespace Sys2Proof.Machine

/-! ## Requests at their owner (14 R199, R201, R204) -/

/-- The address that a request names, by this part's own device number. -/
def ownerVa (r : OwnerReq) : Nat := 0x7FF * 2 ^ 53 + r.owner * 2 ^ 50 + r.off

/-- A request translated without being served, as PROBE and SWAIT are. -/
def State.look (s : State) (r : OwnerReq) : Except Nat Nat × State := s.translate r.src r.owner r.part r.off false false

/-- An atomic change of `n` bytes at their owner, answered with what stood there (15 R223). -/
def State.changeAt (s : State) (r : OwnerReq) (n : Nat) (fn : Nat → Nat) : Except Nat (List Byte) × State :=
  let t := s.translate r.src r.owner r.part r.off true true
  match t.1 with
  | .error f => (.error f, t.2)
  | .ok a =>
    let old := t.2.mem.readBytes a n
    if t.2.sealedAt a n then (.error 10, t.2.updHealth r.owner (fun h => { h with sealRefused := satInc h.sealRefused }))
    else (.ok old, t.2.setMem (t.2.mem.writeBytes a (leBytes n (fn (leNat old)))))

/-- What a signal's update is answered: the value that stood there, or the fault. -/
def State.signalFor (s : State) (r : OwnerReq) (fn : Nat → Nat) : Except Nat (List Byte) × State :=
  let old := match (s.look r).1 with | .ok a => s.mem.readBytes a 8 | .error _ => []
  let t := s.signalAt r.src r.part (ownerVa r) fn
  match t.1 with
  | some f => (.error f, t.2)
  | none => (.ok old, t.2)

/-- What a request comes to at its owner: the fault or the bytes of its answer. None while it has to wait; a SWAIT that is not satisfied is answered later
(15 R225). -/
def State.serveReq (s : State) (r : OwnerReq) : Option (Option (Except Nat (List Byte)) × State) :=
  let now (x : Except Nat (List Byte) × State) : Option (Option (Except Nat (List Byte)) × State) := some (some x.1, x.2)
  match r.act with
  | .read n =>
    let t := s.serve r.src r.owner r.part r.off n none
    now (match t.1 with
      | .ok _ => if r.poisoned && r.owner == 4 then (.error 9, t.2) else t
      | .error _ => t)
  | .write b => now (s.serve r.src r.owner r.part r.off b.length (some b))
  | .fadd x => now (s.changeAt r 4 (fun y => (f32.add 1 y x).1))
  | .add x => now (s.signalFor r (fun y => (y + x) % 2 ^ 64))
  | .set x => now (s.signalFor r (fun _ => x % 2 ^ 64))
  | .wait v =>
    let t := s.look r
    (match t.1 with
     | .error f => now (.error f, t.2)
     | .ok a =>
       if v ≤ leNat (t.2.mem.readBytes a 8) then now (.ok [], t.2)
       else some (none, { t.2 with farWaits := t.2.farWaits ++ [⟨r.src, r.link, r.part, r.owner, r.off, v⟩] }))
  | .coll n b => (s.farColl r.src r.part (ownerVa r) n b).bind now
  | .ccan => now (.ok [], s.farEnd r.part (ownerVa r) 3 none)
  | .cabandon n => now (.ok [], s.farEnd r.part (ownerVa r) 2 (some n))
  | .cstat => now (.ok (s.farCstat r.part (ownerVa r)), s)
  | .probe => let t := s.look r; now (match t.1 with | .error f => (.error f, t.2) | .ok _ => (.ok [], t.2))
  | .register n => now (.ok [], { s with farSeals := s.farSeals ++ [⟨r.src, r.part, r.owner, r.off, n⟩] })
  | .unregister n => now (.ok [], { s with farSeals := s.farSeals.erase ⟨r.src, r.part, r.owner, r.off, n⟩ })

/-- OWNER_TRANSLATE: a request that arrives at an owner die, one of another part on a link that runs, is translated and served, or raises a fabric fault; the answer goes back (14 R199, R201,
R204). A part held in reset answers none (00 R9). -/
def execOwnerTranslate (r : OwnerReq) (s : State) : Result := s.happens <|
  if s.held || 5 ≤ r.owner || (match r.src with | .part _ => !s.linked r.link | _ => false) then none
  else (s.serveReq r).map (fun t => match t.1 with
    | none => t.2
    | some (.error f) => t.2.answerTo r.src r.link [f]
    | some (.ok b) => t.2.answerTo r.src r.link (0 :: b.map (fun x => x.toNat)))

/-! ## Unmapping (14 R203) -/

/-- The receivers of a purge by the companion word of a leaf: dies of this part, and parts as 8 + n. An absent part counts as having answered. -/
def State.receivers (s : State) (companion : Nat) : List Nat :=
  (List.range 5).filter (fun d => companion.testBit d)
    ++ ((List.range 1024).filter (fun n => companion.testBit (5 + n % 59) && n != s.device && !s.absent.contains n)).map (fun n => 8 + n)

/-- Whether a page holds bytes of a code segment that a grid in flight has pinned (06 R105). -/
def State.pinnedPage (s : State) (part va len : Nat) : Bool :=
  s.grids.any (fun g => g.2.pinned && g.2.partition == part
    && overlaps va len (s.normVa g.2.kernel.image % 2 ^ 53 + g.2.kernel.codeAt) g.2.kernel.codeSize)

/-- Steps 2 and 3 of 14 R203 for a leaf: its translation is invalidated, and a purge begins to everyone who has used it. -/
def State.purgeLeaf (s : State) (owner part off page entry : Nat) : State :=
  let all := s.receivers (leNat (s.mem.readBytes (tableAddr (entry + 8)) 8))
  let p : PurgeWait :=
    { owner := owner, partition := part, page := s.pageOf (0x7FF * 2 ^ 53 + owner * 2 ^ 50 + off), span := 2 ^ page / 65536, leaf := entry,
      waiting := all, untold := all.filter (fun r => 8 ≤ r) }
  { s.bump with
    tcache := s.tcache.filter (fun c => !(c.2.1 == entry && c.1 / 2 ^ 34 == owner * 256 + part)), purges := s.purges.put s.serial p }

/-- PAGE_UNMAP: the pager, while the Fiaris complex runs (22 R307), writes a leaf's PTE word, invalidates its translation, and sends purges to those who
have used it (14 R203, steps 1 to 3). -/
def execPageUnmap (die part off : Nat) (pte : W64) (s : State) : Result := s.happens <|
  if s.fwHalted then none
  else
    match s.walk die part off with
    | .error _ => none
    | .ok l =>
      let n := 2 ^ l.page
      if s.pinnedPage part (die * 2 ^ 50 + off / n * n) n then none
      else
        some ((s.setMem (s.mem.writeBytes (tableAddr l.entry) (leBytes 8 pte.toNat))).purgeLeaf die part (off / n * n) l.page l.entry)

/-- The replicas of a partition's pages discarded on the dies that a test picks (14 R203, step 3). -/
def State.discardReplicas (s : State) (on : Nat → Bool) (part page span : Nat) : State :=
  { s with replicas := s.replicas.filter (fun r => !(on r.die && r.partition == part && page ≤ r.page && r.page < page + span)) }

/-- What a request on its way asks another part to read: the address, or none where it is no read. -/
def State.readAsked (s : State) (c : Command) (u : Nat) : Option Nat :=
  match (if c.op = 0x150 then (if u = 0 then none else some (.read c.ss c.ssN (idx32 c.d + (u - 1 : Nat)) 0)) else s.actOf c u) with
  | some a => (match s.farAct c u a with
    | some (va, .read _) => some va
    | _ => none)
  | none => none

/-- The reads on their way to another part for pages whose replicas are discarded are given up, and asked of the owner afresh (14 R203 step 3, Case
14.1). -/
def State.askAfresh (s : State) (part page span : Nat) : State :=
  s.cmds.foldl (fun s c =>
    if s.partitionOf (teamOf c.2.group) ≠ part then s
    else c.2.sent.foldl (fun s x =>
      if (s.readAsked c.2 x.1).any (fun va => page ≤ s.pageOf va && s.pageOf va < page + span) then
        (s.answered x.2.1 x.2.2.2).updCmd c.1 (fun c => { c with sent := c.sent.del x.1 })
      else s) s) s

/-- PURGE: a purge of this part's pager reaches a receiver, which discards its replicas of the page and answers: a die of the part at once; another part
once the purge has gone out to it, as soon as a link is up. A purge from another part's owner, whose receiver is this part, discards the replicas of every
die, has the reads waiting on the page asked afresh, and is answered on the link it came on (14 R203 step 3, R209; log 15). A part is receiver 8 + its
device number. -/
def execPurge (src : PurgeSource) (receiver : Nat) (s : State) : Result := s.happens <|
  match src with
  | .own id =>
    (match s.purges.get? id with
     | none => none
     | some p =>
       if !p.waiting.contains receiver then none
       else if p.untold.contains receiver then
         (s.linkFor (receiver - 8)).map (fun l =>
           { s with purges := s.purges.put id { p with untold := p.untold.erase receiver } }.sendPacket l [receiver - 8, p.partition, p.page % 2 ^ 37, p.span])
       else
         some (({ s with purges := s.purges.put id { p with waiting := p.waiting.erase receiver } }).discardReplicas (fun d => d == receiver) p.partition
           p.page p.span))
  | .far link from_ part page span =>
    if s.held || receiver ≠ 8 + s.device || !s.linked link then none
    else some (((s.discardReplicas (fun _ => true) part (from_ * 2 ^ 37 + page) span).askAfresh part (from_ * 2 ^ 37 + page) span).sendPacket link
      [from_, part, page, span])

/-- PURGE_COMPLETE: every answer is in, and the pager, while the Fiaris complex runs, clears the companion word (14 R203 step 4, 22 R307). -/
def execPurgeComplete (id : Nat) (s : State) : Result := s.happens <|
  match s.purges.get? id with
  | none => none
  | some p =>
    if !p.waiting.isEmpty || s.fwHalted then none
    else
      let s := s.setMem (s.mem.writeBytes (tableAddr (p.leaf + 8)) (List.replicate 8 0))
      some { s with purges := s.purges.del id }

/-! ## Flits and links (14 R207 to R209) -/

/-- The die whose health record counts what a link loses: the hub die for a Drexon link, and for one inside the package the die it is on (25 Table 25.6; log
15). -/
def linkDie (link : Nat) : Nat := if link < 16 then 4 else (link - 16) / 256

/-- A flit of the receiver's own: an acknowledgement, or the request for the flit that is missing (14 R208). -/
def State.control (s : State) (link type : Nat) (beats : List Nat) : State :=
  if (s.link link).running then
    s.onWire link [flitBytes (if beats.isEmpty then [] else leBytes 64 (Config.beats beats).toNat) type 0 (s.link link).ackNumber]
  else s

/-- The replay of the flit at a gap asked for (14 R208). -/
def State.askReplay (s : State) (link : Nat) : State :=
  let l := s.link link
  (s.setLink link { l with requests := [l.rxNext] }).control link 2 [l.rxNext]

/-- Whether the replay of the flit that a link expects has been asked for. -/
def Link.asked (l : Link) : Bool := l.requests.contains l.rxNext

/-- A data flit at its receiver: delivered in order with those held behind it, and acknowledged, or held behind a gap, whose first number is asked for
once; where a further gap is left, that is asked for next (14 R208). -/
def State.takeData (s : State) (link : Nat) (flit : List Byte) : State :=
  let l := s.link link
  let k := seqAhead l.rxNext (flitSeq flit)
  if k = 0 then
    let l := { l with delivered := l.delivered ++ [flit.take 64], rxNext := (l.rxNext + 1) % 4096 }.drain 1024
    let s := s.setLink link { l with requests := [] }
    if l.held.isEmpty then s.control link 3 [] else s.askReplay link
  else if k < 1024 then
    let s := s.setLink link { l with held := l.held.put (flitSeq flit) (flit.take 64) }
    if l.asked then s else s.askReplay link
  else s.control link 3 []

/-- FLIT_RECEIVE: a lost flit is counted, and while a replay is due the request is repeated, since the flit that came bad may be the one resent
(DEDUCED, log 15); any other flit acknowledges, which may let the link send more, and a data flit is taken (14 R208). -/
def execFlitReceive (link : Nat) (flit : List Byte) (s : State) : Result := s.happens <|
  if !(s.link link).enabled then none
  else if flitLost flit then
    let s := s.updHealth (linkDie link) (fun h => { h with flit := satInc h.flit })
    some (if (s.link link).asked then s.askReplay link else s)
  else
    let s := s.setLink link ((s.link link).acked (flitAck flit))
    some ((if flitType flit = 0 then s.takeData link flit else s).pump link)

/-- REPLAY_REQUEST: the named flit is sent again ahead of new ones; the request that says that its eighth replay in a row has failed makes the link
retrain (14 R208). -/
def execReplayRequest (link seq : Nat) (s : State) : Result := s.happens <|
  let l := s.link link
  if !l.enabled || !l.retry.any (fun r => r.1 == seq) then none
  else
    let n := l.failures.getD seq 0 + 1
    let l := { l with resend := l.resend ++ [seq] }
    if n = 9 then some (s.setLink link { l with failures := l.failures.del seq, retraining := true })
    else some ((s.setLink link { l with failures := l.failures.put seq n }).pump link)

/-- LINK_DOWN: a link that goes down takes no new requests; those outstanding wait in their buffers (14 R209). -/
def execLinkDown (link : Nat) (s : State) : Result := s.happens <|
  let l := s.link link
  if l.enabled && l.up then some (s.setLink link { l with up := false }) else none

/-- LINK_RETRAIN_COMPLETE: the link runs again and sends what waits, at reduced width where a lane is retired (14 R208, R209, 25 Table 25.7). -/
def execLinkRetrainComplete (link : Nat) (lane : Option Nat) (s : State) : Result := s.happens <|
  let l := s.link link
  if !l.enabled || (l.up && !l.retraining) then none
  else
    let l := { l with up := true, retraining := false }
    match lane with
    | none => some ((s.setLink link l).pump link)
    | some k =>
      some (({ s.setLink link { l with lanes := if l.lanes.contains k then l.lanes else l.lanes ++ [k] } with
        healthWord := s.healthWord ||| 3 }.updHealth (linkDie link) id).pump link)

/-- PART_REPORTED_ABSENT: requests to the part raise fault 7 from here on, and a purge no longer waits for it (14 R203, R209). -/
def execPartReportedAbsent (n : Nat) (s : State) : Result :=
  .next { s with
    absent := if s.absent.contains n then s.absent else s.absent ++ [n],
    purges := s.purges.mapVals (fun _ p =>
      { p with waiting := p.waiting.filter (fun r => r != 8 + n), untold := p.untold.filter (fun r => r != 8 + n) }) }

end Sys2Proof.Machine
end

