-- ==== Sys2Proof/Machine/Boot.lean ====
section
/-! DEFINITION. The events of boot, firmware, registers and health (04 R65 to R73, R76, 00 R9, R12, 25 R321, R325 to R331). -/

namespace Sys2Proof.Machine

/-! ## Boot and reset (04 R65 to R67, 05 R91, R93) -/

/-- The cavern range of a map entry on a die: first slice and count (05 Table 5.1). -/
def entryCavern (e : List Nat) (die : Nat) : Nat × Nat := (bits (e.getD 3 0) (16 * die + 7) (16 * die), bits (e.getD 3 0) (16 * die + 15) (16 * die + 8))
def mapEntryValid (e : List Nat) : Bool := bit (e.getD 0 0) 32

/-- Two slice ranges share a slice: an empty one holds none (05 R91). -/
def slicesMeet (a b : Nat × Nat) : Bool := a.2 != 0 && b.2 != 0 && overlaps a.1 a.2 b.1 b.2

/-- Two map entries share nothing (05 R91). -/
def entriesApart (a b : List Nat) : Bool :=
  !mapEntryValid a || !mapEntryValid b
    || ((a.getD 0 0 % 2 ^ 32) &&& (b.getD 0 0 % 2 ^ 32) == 0 && (a.getD 1 0) &&& (b.getD 1 0) == 0 && (a.getD 2 0) &&& (b.getD 2 0) == 0
      && (List.range 4).all (fun d => !slicesMeet (entryCavern a d) (entryCavern b d)))

/-- One map entry in itself (05 R91). A reserved bit counts in every entry; a cavern range past slice 63 only in a valid one, since another defines no
partition (DESIGN CHOICE, log 81). -/
def mapEntryOk (e : List Nat) : Bool :=
  bits (e.getD 0 0) 63 33 == 0
    && (!mapEntryValid e || (e.getD 0 0 % 2 ^ 32 != 0
      && (List.range 4).all (fun d => (entryCavern e d).2 == 0 || (entryCavern e d).1 + (entryCavern e d).2 ≤ 64)))

def mapOk : List (Nat × List Nat) → Bool
  | [] => true
  | e :: r => mapEntryOk e.2 && r.all (fun f => entriesApart e.2 f.2) && mapOk r

/-- The part after a reset: flash and the memory outside the part stay, launch ids are not given again, everything else is as at reset (log 18). -/
def State.afterReset (s : State) : State :=
  { State.reset with
    schedule := s.schedule, serial := s.serial, freeN := s.freeN, flash := s.flash, netOut := s.netOut,
    mem := s.mem.filter (fun c => 2 ^ 64 ≤ c.1 || (2 ^ 44 ≤ c.1 && c.1 < 2 ^ 45)),
    grids := s.grids.mapVals (fun _ g => { g with
      complete := true, accepted := false, pinned := false, ranges := [], children := g.children.map (fun c => { c with done := true }) }) }

/-- Every launch with a team or an image placed on groups that a test picks ends with status 6 (25 R330). -/
def State.endOn (s : State) (pick : Nat → Group → Bool) : State :=
  let ts := (s.groups.filter (fun g => pick g.1 g.2 && (match (s.team (teamOf g.1)).residency with
    | .resident => true
    | .saved .. => true
    | _ => false))).map (fun g => (s.team (teamOf g.1)).grid)
  ts.foldl (fun s g => s.beginEnd g 6 none) s

/-- The records of a retired core's deque go to the live core of lowest number in its partition; what finds no room there stays, where others may
steal it (25 R330, log 60). -/
def State.moveTasks (s : State) (core : Nat) : State :=
  let rs := s.dqRecords core
  match (List.range 256).find? (fun c => s.corePart c == s.corePart core && !(s.core c).retired && c != core) with
  | none => s
  | some c =>
    let room := (s.core c).dqCap - (s.core c).dqCount
    (rs.take room).foldl (fun s r => (s.dqPush c r.1 r.2).updGrid r.2.grid (fun g => { g with tasks := g.tasks - 1 })) (s.dqSet core (rs.drop room))

/-- A group of a resident team holds its slot until it retires; an image's place includes every core of it (25 R330). -/
def State.placedOn (s : State) (core gk : Nat) (g : Group) : Bool :=
  match (s.team (teamOf gk)).residency with
  | .resident => g.core == core && !g.retired
  | _ => (s.team (teamOf gk)).cores.contains core

/-- The die whose health record shows a unit's retirement (25 Table 25.6). -/
def unitDie : UnitId → Nat
  | .core c => c / 64
  | .port c _ => c / 64
  | .bank c _ => c / 64
  | .channel d _ => d
  | .lane .. => 4

/-- A unit retired, and the health word says so (25 R328 to R331). -/
def State.retireUnit (s : State) (u : UnitId) : State :=
  let s := { s with healthWord := s.healthWord ||| 3 }.updHealth (unitDie u) id
  match u with
  | .core c => ((s.updCore c (fun x => { x with retired := true })).endOn (s.placedOn c)).moveTasks c
  | .port c p =>
    let s := s.updCore c (fun x => { x with retiredPorts := if x.retiredPorts.contains p then x.retiredPorts else x.retiredPorts ++ [p] })
    s.endOn (fun gk g => (s.team (teamOf gk)).residency == .resident && g.core == c && g.port == p && !g.retired)
  | .bank c b => s.updCore c (fun x => { x with
      retiredBanks := if x.retiredBanks.contains b then x.retiredBanks else x.retiredBanks ++ [b], failedBanks := x.failedBanks.erase b })
  | .channel d n => s.updHealth d (fun h => { h with chans := if h.chans.contains n then h.chans else h.chans ++ [n], failing := h.failing.erase n })
  | .lane l k => s.setLink l { s.link l with lanes := if (s.link l).lanes.contains k then (s.link l).lanes else (s.link l).lanes ++ [k] }

/-- Whether a group of a core holds granules of a bank, or a trap frame keeps some for the group it displaced (25 Table 25.7; log 37). -/
def State.bankHeld (s : State) (core bank : Nat) : Bool := (s.heldGranules core).any (fun k => k / 8 == bank)

/-- Failed banks retired, those that no group holds granules of any more (25 Table 25.7). -/
def State.retireBanks (s : State) : State :=
  s.cores.foldl (fun s c => c.2.failedBanks.foldl (fun s b => if s.bankHeld c.1 b then s else s.retireUnit (.bank c.1 b)) s) s

/-- A unit that has failed its checks (25 R328): a bank gives out no granule more and is retired once no group holds one, a channel after its migration,
for which the replacement request is set (25 R329), any other unit at once. -/
def State.failUnit (s : State) (u : UnitId) : State :=
  match u with
  | .bank c b =>
    if (s.core c).retiredBanks.contains b || (s.core c).failedBanks.contains b then s
    else (s.updCore c (fun x => { x with failedBanks := x.failedBanks ++ [b] })).retireBanks
  | .channel d n =>
    if (s.dieHealth d).chans.contains n || (s.dieHealth d).failing.contains n then s
    else { s with healthWord := s.healthWord ||| 1 }.updHealth d (fun h => { h with failing := h.failing ++ [n] })
  | u => s.retireUnit u

/-- POWER_ON: the root of trust reads, verifies and measures the image and releases the firmware, which verifies the configuration record under the key of
that image, takes it, and brings the memories up; the first step that fails stands in the boot status word (04 R65 to R67, 05 R91, R93, 00 R5, R12,
25 R328). The part is ready for feeds a cycle later (04 R66; log 18). -/
def execPowerOn (b : BootIn) (s : State) : Result := s.happens <|
  if s.bootStage ≠ 0 || s.bootError ≠ 0 || s.held then none
  else if !b.flashReads then some { s with bootError := 1 }
  else if !Config.imageSigned s.flash.image then some { s with bootError := 2 }
  else
    let s := { s with
      bootStage := 1, fw := { s.fw with mfw := sha256 s.flash.image, ver := Config.imageVersion s.flash.image } }
    let r := Config.recordOf s.flash.recordBytes
    if !(Config.recordSigned s.flash.image s.flash.recordBytes && mapOk r.map && r.device ≤ 1023 && 1 ≤ r.feeds && r.feeds ≤ 64) then
      some { s with bootError := 3 }
    else
      let links := r.links.filter (fun l => l < 16)
      let s := { s with
        bootStage := 2, config := some r,
        links := links.foldl (fun m l => m.put l { Link.fresh with enabled := true, up := true }) [] }
      if !b.dramTrained then some { s with bootError := 4 }
      else if !b.cleared then some { s with bootError := 5 }
      else
        let s := b.failed.foldl (fun s u => s.retireUnit u) s
        let base := match b.domainClock with
          | some n => if links.isEmpty then s.clockBase else (n : Int) - (s.cycle * 10 / 11 : Nat)
          | none => s.clockBase
        some { s with
          bootStage := 3, clockBase := base,
          mem := s.mem.filter (fun c => !((2 ^ 28 ≤ c.1 && c.1 < 2 ^ 28 + 2 ^ 28) || (2 ^ 40 ≤ c.1 && c.1 < 2 ^ 40 + 2 ^ 38))) }

/-- Fiaris declares the part ready for feeds once its memories are cleared (04 Table 4.1; log 18). -/
def State.bootOn (s : State) : State := if s.bootStage = 3 && !s.fwHalted then { s with bootStage := 4 } else s

/-- COLD_RESET: the part is as after power-on, before boot (00 R9, R12, 25 R325, R326). -/
def execColdReset (s : State) : Result := .next s.afterReset

/-- A junction reading of a die: the highest one stands (25 Table 25.6). -/
def Health.read (h : Health) (temp : Nat) : Health := { h with tmax := max h.tmax (min temp 255) }

/-- A junction reading of 95 °C or more noted: the part raises its thermal alarm (00 R9, 25 Tables 25.5, 25.6). -/
def State.heated (s : State) (die temp : Nat) : State :=
  { s.updHealth die (fun h => { h.read temp with alarm := true }) with healthWord := s.healthWord ||| 4 }

/-- A junction reading of 105 °C or more: the part stops, drops its links and holds itself in reset until a cold reset; its counter runs on, and what its
health records say stands (00 R9, R12, 25 R326). -/
def State.shutDown (s : State) (die temp : Nat) : State :=
  { s.afterReset with
    held := true, health := (s.heated die temp).health, healthWord := s.healthWord ||| 4, cycle := s.cycle, clockBase := s.clockBase,
    cores := s.cores.mapVals (fun _ c => { Core.fresh with retired := c.retired, retiredPorts := c.retiredPorts, retiredBanks := c.retiredBanks }),
    links := s.links.mapVals (fun _ l => { Link.fresh with lanes := l.lanes }) }

/-- What a junction reading of a die comes to (00 R9). -/
def State.junction (s : State) (die temp : Nat) : State :=
  if 105 ≤ temp then s.shutDown die temp
  else if 95 ≤ temp then s.heated die temp
  else s.updHealth die (fun h => h.read temp)

/-- THERMAL_ALARM: a junction of 95 °C or more is noted, and the part runs on (00 R9, 25 Tables 25.5, 25.6). -/
def execThermalAlarm (die temp : Nat) (s : State) : Result := s.happens <|
  if temp < 95 || 105 ≤ temp || 5 ≤ die then none else some (s.heated die temp)

/-- THERMAL_SHUTDOWN: at 105 °C or more the part stops (00 R9). -/
def execThermalShutdown (die temp : Nat) (s : State) : Result := s.happens <|
  if temp < 105 || 5 ≤ die then none else some (s.shutDown die temp)

/-! ## Firmware (04 R68 to R70) -/

def State.setFw (s : State) (f : Firmware → Firmware) : State := { s with fw := f s.fw }

/-- FW_STAGE: accepted in states 0 and 2, ignored otherwise (04 R70); a part held in reset stages nothing (00 R9). While an image is staged over another,
M_STAGED and FW_SVER still show the older one, a quote reports none pending, and the error of the staging before is cleared (DESIGN CHOICE, log 77). -/
def execFwStage (s : State) : Result :=
  .next (if s.held then s else if s.fw.state = 0 || s.fw.state = 2 then s.setFw (fun f => { f with state := 1, error := 0 }) else s)

/-- FW_STAGE_COMPLETE: the image is copied, verified and measured, or discarded with its error (04 R68, R70). -/
def execFwStageComplete (readOk : Bool) (s : State) : Result := s.happens <|
  if s.held || s.fw.state ≠ 1 then none
  else
    let n := s.fw.len.toNat
    let fail (e : Nat) : Option State := some (s.setFw (fun f => { f with state := 0, error := e, mstaged := 0, sver := 0 }))
    if n = 0 || 2 ^ 24 < n then fail 3
    else if !readOk then fail 1
    else
      let b := s.mem.readBytes (hostAddr s.fw.src.toNat) n
      if !Config.imageSigned b then fail 2
      else
        let s := s.setMem (Memory.writeBytes (s.mem.clear (stagingAddr 0) (2 ^ 24)) (stagingAddr 0) b)
        some (s.setFw (fun f => { f with state := 2, error := 0, mstaged := sha256 b, sver := Config.imageVersion b }))

/-- FW_COMMIT: accepted in state 2 (04 R70). -/
def execFwCommit (s : State) : Result := .next (if s.fw.state = 2 then s.setFw (fun f => { f with state := 3 }) else s)

/-- FW_COMMIT_POINT: the running scheduler core, between two commands, hands over to the staged image; nothing else changes (04 R68). -/
def execFwCommitPoint (s : State) : Result := s.happens <|
  if s.fw.state ≠ 3 || s.fwHalted || s.held || s.bootStage = 0 then none
  else some (s.setFw (fun f => { f with state := 0, mfw := f.mstaged, ver := f.sver, mstaged := 0, sver := 0 }))

/-- FW_DISCARD: accepted in state 2 (04 R70). -/
def execFwDiscard (s : State) : Result :=
  .next (if s.fw.state = 2 then s.setFw (fun f => { f with state := 0, mstaged := 0, sver := 0 }) else s)

/-- ATTESTATION_QUOTE: a quote of the running image, signed under its measurement (04 R69, Table 4.2). -/
def execAttestationQuote (s : State) : Result := s.happens <|
  if s.bootStage = 0 || s.fwHalted then none
  else
    let pending := s.fw.state = 2 || s.fw.state = 3
    let fields := [s.fw.ver.toNat, s.fw.mfw.toNat, b2n pending, if pending then s.fw.mstaged.toNat else 0]
    some (s.setFw (fun f => { f with quotes := f.quotes ++ [(fields, Config.quoteSignature f.mfw fields)] }))

/-! ## Registers (04 R71 to R73, 22 Table 22.2, 25 Table 25.1) -/

/-- A value the host reads leaves over the host link. -/
def State.answer (s : State) (off x : Nat) : State := { s with netOut := s.netOut ++ [[off, x]] }

/-- GTS_READ: the counter as one value (half 0), its low half, which latches the high one (half 1), or the latched half (04 R71). -/
def execGtsRead (half : Nat) (s : State) : Result :=
  match half with
  | 0 => .next (s.answer 0x10 (s.now % 2 ^ 64))
  | 1 => .next ({ s with gtsHigh := BitVec.ofNat 32 (s.now / 2 ^ 32) }.answer 0x10 (s.now % 2 ^ 32))
  | _ => .next (s.answer 0x14 s.gtsHigh.toNat)

/-- A 64-bit register with one 32-bit half written. -/
def half64 (x : W64) (high : Bool) (v : Nat) : W64 :=
  if high then BitVec.ofNat 64 (x.toNat % 2 ^ 32 + v % 2 ^ 32 * 2 ^ 32) else BitVec.ofNat 64 (x.toNat / 2 ^ 32 * 2 ^ 32 + v % 2 ^ 32)

/-- Whether a feed of the configured count may have its registers written: disabled, and idle (04 R72). -/
def Feed.idle (f : Feed) : Bool := !f.enable && f.head == f.tail

/-- A feed of the configured count, on a part that has its memories (04 R66, R72). -/
def State.hasFeed (s : State) (f : Nat) : Bool := match s.config with | some r => f < r.feeds | none => false

/-- The 32-bit word at an offset of a feed window written (04 Table 4.3); the words with events of their own are not written here. A base that is not a
multiple of 64 is kept and used as it stands (DESIGN CHOICE, log 77). -/
def State.writeFeed (s : State) (f off v : Nat) : State :=
  if !s.hasFeed f || !(s.feed f).idle then s
  else
    s.updFeed f (fun x => match off with
      | 0 => { x with base := half64 x.base false v }
      | 4 => { x with base := half64 x.base true v }
      | 8 => { x with size := bits v 11 9, work := bit v 8, partition := bits v 7 0 }
      | 32 => { x with wlaunch := half64 x.wlaunch false v }
      | 36 => { x with wlaunch := half64 x.wlaunch true v }
      | 40 => { x with team := BitVec.ofNat 32 v }
      | 44 => { x with chute := v % 8 }
      | _ => x)

/-- The 32-bit word at an offset of a trace ring's words written (22 Table 22.2, R310). -/
def State.writeRing (s : State) (d off v : Nat) : State :=
  if s.dbg.trace then s
  else
    let r := s.dbg.rings.getD d Ring.fresh
    let r := match off with
      | 0 => { r with base := half64 r.base false v }
      | 4 => { r with base := half64 r.base true v }
      | 8 => if v % 16 ≤ 8 then { r with size := v % 16 } else r
      | 20 => { r with head := BitVec.ofNat 32 v }
      | 24 => { r with ovf := 0 }
      | _ => r
    s.setDbg (fun x => { x with rings := x.rings.put d r })

/-- The 32-bit word at a BAR0 offset written: registers that only hold what is written; every other one ignores the write or has its own event. An FW_SRC
that is not a multiple of 4096 is kept and used as it stands (DESIGN CHOICE, log 77). -/
def State.write32 (s : State) (off v : Nat) : State :=
  let open_ := s.fw.state != 1 && s.fw.state != 3
  if off = 0x100 then (if open_ then s.setFw (fun f => { f with src := half64 f.src false v }) else s)
  else if off = 0x104 then (if open_ then s.setFw (fun f => { f with src := half64 f.src true v }) else s)
  else if off = 0x108 then (if open_ then s.setFw (fun f => { f with len := BitVec.ofNat 32 v }) else s)
  else if 0x10000 ≤ off ∧ off < 0x11000 then s.writeFeed ((off - 0x10000) / 64) ((off - 0x10000) % 64) v
  else if off = 0x20018 then s.setDbg (fun d => { d with sel := half64 d.sel false v })
  else if off = 0x2001C then s.setDbg (fun d => { d with sel := half64 d.sel true v })
  else if off = 0x20020 then s.setDbg (fun d => { d with team := BitVec.ofNat 32 v })
  else if off = 0x20024 then s.setDbg (fun d => { d with group := v % 128 })
  else if 0x20120 ≤ off ∧ off < 0x201C0 then s.writeRing ((off - 0x20120) / 32) ((off - 0x20120) % 32) v
  else s

/-- Whether the write of a 32-bit word is a row of its own in the table of events: a command of FW_CMD, an FD_CTL that enables or disables its feed,
FD_TAIL, a feed's word at +24, and the words of the debug and report-ring windows that act. -/
def State.ownEvent (s : State) (off v : Nat) : Bool :=
  (off == 0x110 && 1 ≤ v % 256 && v % 256 ≤ 3)
    || (0x10000 ≤ off && off < 0x11000
      && ((off % 64 == 8 && (bit v 31 || (s.feed ((off - 0x10000) / 64)).enable)) || off % 64 == 16 || (off % 64) / 8 == 3))
    || (0x20000 ≤ off && off < 0x20018) || off == 0x20028 || (0x20040 ≤ off && off < 0x200C0) || (0x200D0 ≤ off && off < 0x20108) || (0x30000 ≤ off && off < 0x30020)

/-- REGISTER_WRITE: the host writes 4 or 8 bytes of the register window (04 R70 to R72, 22 Table 22.2). -/
def execRegisterWrite (off bytes val : Nat) (s : State) : Result := s.happens <|
  if s.ownEvent off (val % 2 ^ 32) || off % 4 ≠ 0 || (bytes ≠ 4 && bytes ≠ 8) then none
  else
    let t := s.write32 off (val % 2 ^ 32)
    some (if bytes = 8 && !s.ownEvent (off + 4) (val / 2 ^ 32) then t.write32 (off + 4) (val / 2 ^ 32) else t)

/-- REPORT_RING_CONTROL: the report-ring window (25 Table 25.1, R321). -/
def execReportRingControl (off bytes val : Nat) (s : State) : Result := s.happens <|
  if off < 0x30000 || 0x30020 ≤ off || off % 4 ≠ 0 || (bytes ≠ 4 && bytes ≠ 8) then none
  else
    let put (r : Report) (o v : Nat) : Report := match o with
      | 0x30000 => { r with base := half64 r.base false v }
      | 0x30004 => { r with base := half64 r.base true v }
      | 0x30008 => if v % 16 ≤ 8 then { r with enable := bit v 31, size := v % 16 } else r
      | 0x30014 => { r with head := BitVec.ofNat 32 v }
      | 0x30018 => { r with lost := 0 }
      | _ => r
    let r := put s.report off (val % 2 ^ 32)
    some { s with report := if bytes = 8 then put r (off + 4) (val / 2 ^ 32) else r }

/-- FEED_ENABLE: a write of FD_CTL with enable set takes effect on an idle feed of a part that is ready for feeds; with a reserved size it is ignored
(04 R66, R72). -/
def execFeedEnable (f ctl : Nat) (s : State) : Result := s.happens <|
  if !bit ctl 31 then none
  else if !s.hasFeed f || s.bootStage ≠ 4 || !(s.feed f).idle || 4 < bits ctl 11 9 then some s
  else
    some (s.updFeed f (fun x => { x with
      enable := true, size := bits ctl 11 9, work := bit ctl 8, partition := bits ctl 7 0, tail := 0, head := 0, entries := [] }))

/-- FEED_DISABLE: no new entries; those copied drain, but a stopped feed discards them (04 R72). -/
def execFeedDisable (f : Nat) (s : State) : Result :=
  if !s.hasFeed f || !(s.feed f).enable then .next s
  else
    .next (s.updFeed f (fun x =>
      if x.stopped then { x with enable := false, entries := [], head := x.tail } else { x with enable := false }))

/-- FEED_TAIL_WRITE: new entries are copied from the ring at this moment; an overrun or an unreadable ring stops the feed. `readable` is how many of the
entries can be read (04 R73); FD_TAIL then counts just those. A write to a disabled feed is ignored, whether or not it is idle (DESIGN CHOICE, log 77). -/
def execFeedTailWrite (f t readable : Nat) (s : State) : Result :=
  let x := s.feed f
  if !s.hasFeed f || s.bootStage ≠ 4 || !x.enable || x.stopped then .next s
  else
    let n := 16 * 2 ^ x.size
    let k := (BitVec.ofNat 32 t - x.tail).toNat
    if k = 0 then .next s
    else if n < k || n < (BitVec.ofNat 32 t - x.head).toNat then .next (s.updFeed f (fun x => { x with stopped := true, stop := 1 }))
    else
      let got := min k readable
      let es := (List.range got).map (fun j => s.mem.readBytes (hostAddr (x.base.toNat + 64 * ((x.tail.toNat + j) % n))) 64)
      .next (s.updFeed f (fun x =>
        let x := { x with entries := x.entries ++ es, tail := x.tail + BitVec.ofNat 32 got }
        if got < k then { x with stopped := true, stop := 3 } else x))

/-- FEED_TAIL_READ: FD_TAIL, after every tail write that reached the part before (04 R73). -/
def execFeedTailRead (f : Nat) (s : State) : Result :=
  .next (s.answer (0x10010 + 64 * f) (if s.hasFeed f then (s.feed f).tail.toNat else 0))

/-- FEED_RESTART: a write of +24 clears the word and restarts a stopped feed (04 R72). -/
def execFeedRestart (f : Nat) (s : State) : Result :=
  .next (if s.hasFeed f then s.updFeed f (fun x => { x with stopped := false, stop := 0, reject := 0 }) else s)

/-- COMMAND_LINK_COMMAND: one direction of a leaf's link: a command sent spends a permit, one taken from the inbox returns it (04 R76). -/
def execCommandLinkCommand (leaf : Nat) (down take : Bool) (cmd : List Byte) (s : State) : Result := s.happens <|
  let key := leaf * 2 + b2n down
  let l := s.cmdLinks.getD key CmdLink.fresh
  if 32 ≤ leaf || s.fwHalted || s.bootStage = 0 then none
  else if take then
    match l.inbox with
    | [] => none
    | _ :: r => some { s with cmdLinks := s.cmdLinks.put key { permits := l.permits + 1, inbox := r } }
  else if l.permits = 0 || cmd.length ≠ 32 then none
  else some { s with cmdLinks := s.cmdLinks.put key { permits := l.permits - 1, inbox := l.inbox ++ [cmd] } }

/-! ## Health (25 R325 to R331) -/

/-- HEALTH_RECORD_UPDATE: Fiaris, while it runs, rewrites a die's record with a new reading of its junction, which may raise the thermal alarm or stop
the part (25 R326, 22 R307, 00 R9). -/
def execHealthRecordUpdate (r : JunctionReading) (s : State) : Result := s.happens <|
  if 5 ≤ r.die || s.fwHalted || s.held then none else some (s.junction r.die r.temp)

/-- SCRUB: every word of DRAM and cavern is read and, where a bit was wrong, written back corrected; no value changes (25 R327). -/
def execScrub (s : State) : Result := .next s

/-- The register bank that holds a row of a group (05 R98, 25 Table 25.6). -/
def State.bankOf (s : State) (gk reg : Nat) : Nat := (s.group gk).granules.getD (reg / 32) 0 / 8

/-- The unit a failing place belongs to; the cavern has none (25 Table 25.7). -/
def State.unitOf (s : State) (u : EccAt) : Option UnitId :=
  match u with
  | .row c gk reg _ => some (.bank c (s.bankOf gk reg))
  | .scratch c _ _ => some (.core c)
  | .cavern .. => none
  | .dram d n _ => some (.channel d n)

/-- Whose read meets an ECC error. -/
def eccReader : EccAt → EccReader
  | .row _ _ _ r => r
  | .scratch _ _ r => r
  | .cavern _ _ r => r
  | .dram _ _ r => r

/-- The die of a place (25 Table 25.6). -/
def eccDie : EccAt → Nat
  | .row c .. => c / 64
  | .scratch c .. => c / 64
  | .cavern d .. => d
  | .dram d .. => d

/-- A corrected error of a unit: its 64th within one second fails it (25 R328). -/
def State.countEcc (s : State) (u : UnitId) : State :=
  let log := s.eccLog.filter (fun e => s.now < e.2 + 10 ^ 9) ++ [(u, s.now)]
  let s := { s with eccLog := log }
  if 64 ≤ (log.filter (fun e => e.1 == u)).length then s.failUnit u else s

/-- ECC_CORRECTED: the value is corrected and the error counted, for the die's record and for its unit (25 R327, R328). -/
def execEccCorrected (u : EccAt) (s : State) : Result :=
  let count := s.updHealth (eccDie u) (fun h => match u with
    | .row .. => { h with crf := satInc h.crf }
    | .scratch .. => { h with csp := satInc h.csp }
    | .cavern .. => { h with ccv := satInc h.ccv }
    | .dram .. => { h with cdr := satInc h.cdr })
  .next (match s.unitOf u with | some x => count.countEcc x | none => count)

/-- A lane's read that meets an uncorrectable error traps, precise at its instruction (21 Table 21.2, cause 33). -/
def State.dataTrap (s : State) (lk detail : Nat) : State :=
  takeTrap s (lk / 32) ⟨196, 33, detail % 2 ^ 20⟩ (1#32 <<< (lk % 32)) (BitVec.ofNat 32 (s.lane lk).nextAt) false

/-- What the detail of trap 33 names: the register, or the offset. -/
def eccDetail : EccAt → Nat
  | .row _ _ reg _ => reg
  | .scratch _ off _ => off
  | .cavern _ off _ => off
  | .dram .. => 0

/-- An element of a command whose read meets an uncorrectable error: fault 9 (25 R327); nothing where the element reads nothing now. -/
def State.eccFault (s : State) (cmd ord : Nat) : State :=
  let r := match s.cmds.get? cmd with
    | some c =>
      if isSignal c.op then s.signalGo cmd (.fault 9) false true
      else if 0x150 ≤ c.op && c.op ≤ 0x152 then s.collGo cmd (.fault 9) false true
      else s.engineGo cmd ord (.fault 9) false true
    | none => none
  r.getD s

/-- A request served here whose walk or read meets an uncorrectable error is answered with fault 9 (25 R327); nothing where no request arrives, or where its
walk already ends in a fault. -/
def State.eccRequest (s : State) (r : OwnerReq) (walk : Bool) : State :=
  if s.held || 5 ≤ r.owner || (match r.src with | .part _ => !s.linked r.link | _ => false) then s
  else if walk then s.answerTo r.src r.link [9]
  else match s.look r with
    | (.ok _, t) => t.answerTo r.src r.link [9]
    | (.error _, _) => s

/-- ECC_UNCORRECTABLE: counted; the reading lane traps, the reading command meets fault 9 or the request of another part is answered with it, and the unit
fails (25 R327, R328). -/
def execEccUncorrectable (u : EccAt) (s : State) : Result :=
  let count := s.updHealth (eccDie u) (fun h => { h with unc := satInc h.unc })
  let t := match eccReader u with
    | .nobody => count
    | .lane lk => count.dataTrap lk (eccDetail u)
    | .engine cmd ord => count.eccFault cmd ord
    | .request r walk => count.eccRequest r walk
  .next (match s.unitOf u with | some x => t.failUnit x | none => t)

/-! ## Migration of a channel (25 R329) -/

/-- A frame of a partition: where the entry is that names it (none for a root), its address, how many offset bits it covers, and for a leaf the offset
where it begins. -/
structure Frame64 where
  owner : Nat
  entry : Option Nat
  frame : Nat
  page : Nat
  leaf : Bool
  off : Nat
  deriving DecidableEq, Repr

/-- The frames that the tables of a partition on an owner die name: the root, the tables below it, and the leaves (14 R197, R198). -/
def State.framesOf (s : State) (owner part : Nat) : List Frame64 :=
  match s.roots.get? (owner * 256 + part) with
  | none => []
  | some root =>
    ⟨owner, none, root, 16, false, 0⟩ :: (List.range 4096).flatMap (fun i =>
      let e1 := s.pte root i
      if !pteValid e1 then []
      else ⟨owner, some (root + 16 * i), pteFrame e1, 16, false, 0⟩ :: (List.range 2048).flatMap (fun j =>
        let e2 := s.pte (pteFrame e1) j
        let at2 := pteFrame e1 + 16 * j
        let off2 := i * 2 ^ 38 + j * 2 ^ 27
        if !pteValid e2 then []
        else if pteLeaf e2 then [⟨owner, some at2, pteFrame e2, 27, true, off2⟩]
        else ⟨owner, some at2, pteFrame e2, 16, false, 0⟩ :: (List.range 2048).filterMap (fun k =>
          let e3 := s.pte (pteFrame e2) k
          if pteValid e3 then some ⟨owner, some (pteFrame e2 + 16 * k), pteFrame e3, 16, true, off2 + k * 2 ^ 16⟩ else none)))

/-- The die of a frame: that of a table in its address (log 11), that of a leaf its owner. -/
def Frame64.die (f : Frame64) : Nat := if f.leaf then f.owner else f.frame / 2 ^ 36 % 4

/-- Whether a frame lies in a channel of a die; leaves of the hub die are no DRAM. -/
def Frame64.lies (f : Frame64) (die chan : Nat) : Bool := f.die == die && f.frame % 2 ^ 36 / 2 ^ 31 == chan && !(f.leaf && f.owner == 4)

/-- Every frame of a partition. -/
def State.partFrames (s : State) (part : Nat) : List Frame64 := (List.range 5).flatMap (fun owner => s.framesOf owner part)

/-- A free frame on a die for a frame of a partition, the lowest in the partition's other channels (log 56). -/
def State.freeFrame (s : State) (part die chan : Nat) (f : Frame64) : Option Nat :=
  let used := (s.partFrames part).filter (fun x => x.die == die && !(x.leaf && x.owner == 4))
  let ok (n : Nat) : Bool := n != chan && s.partChannel part die n && !(s.dieHealth die).chans.contains n && !(s.dieHealth die).failing.contains n
  ((List.range 32).filter ok).findSome? (fun n =>
    ((List.range (2 ^ (31 - f.page))).map (fun k => n * 2 ^ 31 + k * 2 ^ f.page)).find? (fun a =>
      !used.any (fun x => overlaps a (2 ^ f.page) (x.frame % 2 ^ 36) (2 ^ x.page))))

/-- The bytes of a frame on a die copied to another frame of it. -/
def State.copyFrame (s : State) (die src dst page : Nat) : State :=
  s.setMem (s.mem.copyRange (dramAddr die (src % 2 ^ 36)) (dramAddr die dst) (2 ^ page))

/-- The PTE word of an entry with another frame in it, the entry valid or not. -/
def State.writeFrame (s : State) (entry frame : Nat) (valid : Bool) : State :=
  let old := leNat (s.mem.readBytes (tableAddr entry) 8)
  s.setMem (s.mem.writeBytes (tableAddr entry) (leBytes 8 (old - pteFrame old + frame - b2n (pteValid old) + b2n valid)))

/-- A leaf made invalid for its move, as the pager unmaps a page, so that requests that arrive park with fault 1 (25 R329, 14 R203). -/
def State.beginMove (s : State) (part : Nat) (f : Frame64) (entry dst : Nat) : State :=
  let die := f.die
  let m : Move :=
    { die := die, chan := f.frame % 2 ^ 36 / 2 ^ 31, part := part, owner := f.owner, off := f.off, bits := f.page, entry := entry, dst := dst,
      purge := s.serial }
  { (s.writeFrame entry f.frame false).purgeLeaf f.owner part f.off f.page entry with move := some m }

/-- A move ended once its purge has: the frame copied, the new PTE word written, and what waits for the page sent again (25 R329, 14 R203). -/
def State.endMove (s : State) (m : Move) : State :=
  let old := pteFrame (leNat (s.mem.readBytes (tableAddr m.entry) 8))
  let first := s.pageOf (0x7FF * 2 ^ 53 + m.owner * 2 ^ 50 + m.off)
  let s := { (s.copyFrame m.die old m.dst m.bits).writeFrame m.entry m.dst true with move := none }
  (List.range (2 ^ m.bits / 65536)).foldl (fun s k => s.future (first + k) true) s

/-- A frame that is never unmapped moved at one stroke: a root, a table, or a leaf with code that a grid in flight has pinned (06 R105). Its bytes are
copied, and its entry is written anew, or its root replaced (25 R329). -/
def State.moveFrame (s : State) (part : Nat) (f : Frame64) (dst : Nat) : State :=
  let s := s.copyFrame f.die f.frame dst f.page
  let frame := if f.leaf then dst else f.die * 2 ^ 36 + dst
  match f.entry with
  | none => { s with roots := s.roots.put (f.owner * 256 + part) frame, tcache := s.tcache.filter (fun c => c.1 / 2 ^ 34 != f.owner * 256 + part) }
  | some e =>
    let s := s.writeFrame e frame true
    if f.leaf then s.purgeLeaf f.owner part f.off f.page e else { s with tcache := s.tcache.filter (fun c => c.1 / 2 ^ 34 != f.owner * 256 + part) }

/-- The next frame of a failed channel on its way to a free frame: a leaf is unmapped first, unless it holds pinned code (25 R329, 06 R105). -/
def State.takeFrame (s : State) (part : Nat) (f : Frame64) (dst : Nat) : State :=
  match f.entry with
  | some e =>
    if f.leaf && !s.pinnedPage part (f.owner * 2 ^ 50 + f.off) (2 ^ f.page) then s.beginMove part f e dst else s.moveFrame part f dst
  | none => s.moveFrame part f dst

/-- CHANNEL_MIGRATE: a failed channel's next frame is moved to a free frame of its partition's other channels; where there is none the channel stays in
service, with the replacement request set; and once no frame is left in it, the channel and its sump are retired. A leaf is first unmapped, and mapped
again at a later CHANNEL_MIGRATE, when its purge has ended (25 R329, log 56). -/
def execChannelMigrate (die chan : Nat) (s : State) : Result := s.happens <|
  if s.fwHalted || !(s.dieHealth die).failing.contains chan then none
  else
    match s.move with
    | some m => if m.die = die && m.chan = chan && !(s.purges.get? m.purge).isSome then some (s.endMove m) else none
    | none =>
      match (List.range 256).findSome? (fun p => if s.partValid p then ((s.partFrames p).find? (fun f => f.lies die chan)).map (fun f => (p, f)) else none) with
      | none => some (s.retireUnit (.channel die chan))
      | some (p, f) => (s.freeFrame p die chan f).map (fun a => s.takeFrame p f a)

/-! ## What the host reads (04 R66, R70 to R73, 22 R301, 24 R315, 25 R321, R325, R326) -/

/-- The 256 bytes of a die's health record (25 Table 25.6). -/
def State.healthBytes (s : State) (d : Nat) : List Byte :=
  let h := s.dieHealth d
  let cores := if d < 4 then (List.range 64).map (fun n => s.core (64 * d + n)) else []
  let live := cores.filter (fun c => !c.retired)
  let mask (ps : List Nat) : Nat := ps.foldl (fun m k => m ||| 2 ^ k) 0
  let ports := cores.zipIdx.flatMap (fun c => c.1.retiredPorts.map (fun p => 4 * c.2 + p))
  let banks := cores.zipIdx.flatMap (fun c => c.1.retiredBanks.map (fun k => 16 * c.2 + k))
  let lanes := if d = 4 then s.links.flatMap (fun l => if l.1 < 16 then l.2.lanes.map (fun j => 8 * l.1 + j) else []) else []
  let uport := live.foldl (fun n c => n + (4 - c.retiredPorts.length)) 0
  let uchan := if d < 4 then 32 - h.chans.length else 0
  leBytes 8 h.stamp ++ leBytes 4 h.crf.toNat ++ leBytes 4 h.csp.toNat ++ leBytes 4 h.ccv.toNat ++ leBytes 4 h.cdr.toNat ++ leBytes 4 h.flit.toNat
    ++ leBytes 4 h.unc.toNat ++ leBytes 4 h.msg.toNat ++ leBytes 4 h.sealRefused.toNat ++ leBytes 8 (h.tmax + 2 ^ 8 * b2n h.alarm)
    ++ leBytes 8 (mask (cores.zipIdx.filterMap (fun c => if c.1.retired then some c.2 else none)))
    ++ leBytes 4 (mask h.chans) ++ leBytes 4 banks.length ++ leBytes 32 (mask ports) ++ leBytes 16 (mask lanes)
    ++ leBytes 2 live.length ++ leBytes 2 uport ++ leBytes 2 uchan ++ leBytes 2 0 ++ leBytes 128 (mask banks) ++ leBytes 8 0

/-- The 64-bit word at an offset of a feed's window (04 Table 4.3). -/
def State.feedWord (s : State) (f off : Nat) : Nat :=
  let x := s.feed f
  if !s.hasFeed f then 0
  else match off with
    | 0 => x.base.toNat
    | 8 => 2 ^ 31 * b2n x.enable + 2 ^ 9 * x.size + 2 ^ 8 * b2n x.work + x.partition
    | 16 => x.tail.toNat + 2 ^ 32 * x.head.toNat
    | 24 => 2 ^ 16 * b2n x.stopped + 2 ^ 8 * x.stop + x.reject
    | 32 => x.wlaunch.toNat
    | 40 => x.team.toNat + 2 ^ 32 * x.chute
    | _ => 0

/-- Whether a team holds the watchpoint that a WPk word names: its bit [35] (22 Table 22.2). -/
def State.wpHeld (s : State) (k : Nat) : Bool :=
  match (s.core (bits (s.dbg.wp.getD k 0).toNat 27 20)).watches.get? k with | some w => w.team.isSome | none => false

/-- The 64-bit word at an offset of the debug window (22 Table 22.2, 24 Table 24.1, 25 Table 25.3). -/
def State.debugWord (s : State) (off : Nat) : Nat :=
  let d := s.dbg
  let t := ((s.findTeam d.sel d.team.toNat).map s.team).filter (fun t => t.residency == .resident)
  if off = 0x00 then d.part + 2 ^ 8 * b2n d.att + 2 ^ 9 * b2n s.authority + 2 ^ 10 * b2n d.brk
  else if off = 0x18 then d.sel.toNat
  else if off = 0x20 then d.team.toNat + 2 ^ 32 * d.group
  else if off = 0x30 then d.error + 2 ^ 8 * d.left + 2 ^ 16 * d.why
  else if 0x40 ≤ off && off < 0x80 then
    match d.bp.get? ((off - 0x40) / 16) with
    | some b => if off % 16 = 0 then b.image.toNat else b.pc.toNat + 2 ^ 32 * b2n b.enable + 2 ^ 33 * b.scope
    | none => 0
  else if 0x80 ≤ off && off < 0xC0 then
    if off % 16 = 0 then (d.wp.getD ((off - 0x80) / 16) 0).toNat % 2 ^ 35 + 2 ^ 35 * b2n (s.wpHeld ((off - 0x80) / 16)) else 0
  else if off = 0xC0 then t.elim 0 (fun t => 2 ^ 63 + t.cores.zipIdx.foldl (fun n c => n + c.1 * 2 ^ (8 * c.2)) 0)
  else if off = 0xC8 then t.elim 0 (fun t => t.chamberAt.zipIdx.foldl (fun n a => n + a.1 / 4096 * 2 ^ (8 * a.2)) 0)
  else if off = 0xD0 then d.dump.toNat
  else if off = 0xD8 then b2n d.dumpBusy + 2 * b2n d.dumpFail
  else if off = 0x100 then b2n d.trace + 2 ^ 8 * d.k
  else if 0x120 ≤ off && off < 0x1C0 then
    let r := d.rings.getD ((off - 0x120) / 32) Ring.fresh
    match (off - 0x120) % 32 with
    | 0 => r.base.toNat
    | 8 => r.size
    | 16 => r.tail.toNat + 2 ^ 32 * r.head.toNat
    | _ => r.ovf.toNat
  else 0

/-- The 64-bit word at a BAR0 offset, a multiple of 8, as the host reads it; reserved bits and every other word read zero (00 R11). -/
def State.readReg (s : State) (off : Nat) : Nat :=
  if off = 0x0 then s.bootStage + 2 ^ 8 * s.bootError
  else if off = 0x8 then s.healthWord.toNat
  else if off = 0x10 then s.now % 2 ^ 64
  else if off = 0x100 then s.fw.src.toNat
  else if off = 0x108 then s.fw.len.toNat
  else if off = 0x118 then s.fw.state + 2 ^ 8 * s.fw.error
  else if off = 0x120 then s.fw.ver.toNat + 2 ^ 32 * s.fw.sver.toNat
  else if 0x140 ≤ off && off < 0x160 then s.fw.mfw.toNat / 2 ^ (8 * (off - 0x140)) % 2 ^ 64
  else if 0x160 ≤ off && off < 0x180 then s.fw.mstaged.toNat / 2 ^ (8 * (off - 0x160)) % 2 ^ 64
  else if 0x10000 ≤ off && off < 0x11000 then s.feedWord ((off - 0x10000) / 64) ((off - 0x10000) % 64)
  else if 0x20000 ≤ off && off < 0x20200 then s.debugWord (off - 0x20000)
  else if off = 0x30000 then s.report.base.toNat
  else if off = 0x30008 then s.report.size + 2 ^ 31 * b2n s.report.enable
  else if off = 0x30010 then s.report.tail.toNat + 2 ^ 32 * s.report.head.toNat
  else if off = 0x30018 then s.report.lost.toNat
  else if 0x40000 ≤ off && off < 0x40500 then leNat (((s.healthBytes ((off - 0x40000) / 256)).drop ((off - 0x40000) % 256)).take 8)
  else 0

end Sys2Proof.Machine
end

