-- ==== Sys2Proof/Machine/Transducer.lean ====
section
/-! DEFINITION. Class XDUC and the calliope (12). -/

namespace Sys2Proof.Machine

/-! ## The table image (12 R182 to R184) -/

def imgEntry (img : List Byte) (i : Nat) : Nat := leNat ((img.drop (32 + 2 * i)).take 2)
def imgFinal (img : List Byte) (k : Nat) : Nat := leNat ((img.drop (32 + 2 * hdrEntries (imgHdr img) + 4 * k)).take 4)

/-- A transition entry that meets 12 Table 12.3; one not defined is zero. -/
def entryValid (h e : Nat) : Bool :=
  if bit e 10 then bits e 15 11 == 0 && bits e 9 6 < 2 ^ hdrWidth h && bits e 5 0 < hdrStates h else e == 0

/-- A final entry that meets 12 Table 12.4. -/
def finalValid (h e : Nat) : Bool :=
  if bit e 12 then
    bits e 31 13 == 0 && bits e 9 8 ≤ 2 && bits e 7 4 < 2 ^ hdrWidth h && bits e 3 0 < 2 ^ hdrWidth h
      && (bits e 9 8 == 2 || bits e 7 4 == 0) && (1 ≤ bits e 9 8 || bits e 3 0 == 0)
  else e == 0

/-- The whole image valid (12 R184), apart from where it lies. R184 ends with 'Nothing else is required', so
the reserved bytes +16 to +31 of the header may hold anything, although R11 rejects nonzero reserved fields in general (DEDUCED, log 20). -/
def imgValid (img : List Byte) : Bool :=
  let h := imgHdr img
  hdrValid h && (List.range (hdrEntries h)).all (fun i => entryValid h (imgEntry img i))
    && (List.range (hdrStates h)).all (fun k => finalValid h (imgFinal img k))

/-! ## The transducer trap (12 R192) -/

/-- The detail word of 12 Table 12.7. -/
def xdetail (reason ctx state dga dgb pos lane : Nat) : Nat :=
  reason * 2 ^ 28 + ctx * 2 ^ 25 + state * 2 ^ 19 + dga * 2 ^ 15 + dgb * 2 ^ 11 + pos * 2 ^ 5 + lane

def xtrap (detail : Nat) : Trap := ⟨90, 22, detail⟩

/-- The copy of a context on the lane's own core (12 R179). -/
def Ctx.context (c : Ctx) (s : State) (xc : Nat) : Context := (s.team c.tk).contexts.getD (c.ci s * 8 + xc) Context.empty

/-- Reason 5: a context the team does not hold. -/
def notHeld (c : Ctx) (s : State) (xc : Nat) : Option Trap :=
  if (s.team c.tk).kernel.xctx ≤ xc then some (xtrap (xdetail 5 xc 0 0 0 0 c.pos)) else none

/-- The checks of a context before a stepping word: reasons 5, 3, 4 and 6 (12 R190). -/
def contextTrap (c : Ctx) (s : State) (xc : Nat) (ops : Option Nat) : Option Trap :=
  match notHeld c s xc with
  | some t => some t
  | none =>
    let x := c.context s xc
    if x.cond = 0 then some (xtrap (xdetail 3 xc 0 0 0 0 c.pos))
    else if x.cond = 3 then some (xtrap (x.detail.toNat + c.pos))
    else
      match ops with
      | some k => if hdrOps (imgHdr x.image) ≠ k then some (xtrap (xdetail 6 xc 0 0 0 0 c.pos)) else none
      | none => none

/-! ## Stepping (12 R190) -/

/-- Digit positions of a register. -/
def digitsOf (w : Nat) : Nat := if w = 0 then 0 else 32 / w

/-- The digit at position `p` of an operand of one or two registers. -/
def digitAt (w x p : Nat) : Nat := let n := digitsOf w; x / 2 ^ (32 * (p / n) + w * (p % n)) % 2 ^ w

/-- One digit position: the next state and the output digit, or the reason it fails. -/
def stepAt (img : List Byte) (st x y : Nat) : Except Nat (Nat × Nat) :=
  let h := imgHdr img
  let w := hdrWidth h
  if !(hdrAlpha h).testBit x || (hdrOps h == 2 && !(hdrAlpha h).testBit y) then .error 2
  else
    let e := imgEntry img (if hdrOps h = 2 then st * 2 ^ (2 * w) + x * 2 ^ w + y else st * 2 ^ w + x)
    if hdrStates h ≤ st || !bit e 10 then .error 0 else .ok (bits e 5 0, bits e 9 6)

/-- The walk over digit positions: the state reached and the output word, or the detail of the first failure. -/
def walkDigits (img : List Byte) (xc lane a b : Nat) : List Nat → Nat × Nat → Except Nat (Nat × Nat)
  | [], acc => .ok acc
  | p :: ps, (st, out) =>
    let w := hdrWidth (imgHdr img)
    let n := digitsOf w
    let x := digitAt w a p
    let y := if hdrOps (imgHdr img) = 2 then digitAt w b p else 0
    match stepAt img st x y with
    | .ok r => walkDigits img xc lane a b ps (r.1, out + r.2 * 2 ^ (32 * (p / n) + w * (p % n)))
    | .error reason => .error (xdetail reason xc st x y p lane)

/-- The positions in stepping order over `regs` registers. -/
def stepOrder (h regs : Nat) : List Nat :=
  let ps := List.range (regs * digitsOf (hdrWidth h))
  if hdrDown h then ps.reverse else ps

/-- The state and status parts of xs (12 Table 12.1). -/
def xsOf (status state : Nat) : BitVec 8 := BitVec.ofNat 8 (status * 64 + state)
def Lane.xstate (l : Lane) : Nat := l.xs.toNat % 64

/-- The operands of a stepping word, and its walk. -/
def stepWord (f : XF) (row : XRow) (regs : Nat) (c : Ctx) (s : State) : Except Nat (Nat × Nat) × State :=
  let a := readSlot row.a c.lk f.a s
  let b := readSlot row.b c.lk f.b a.2
  let img := (c.context s f.xc.val).image
  (walkDigits img f.xc.val c.pos a.1 b.1 (stepOrder (imgHdr img) regs) ((s.lane c.lk).xstate, 0), b.2)

def stepTrap (f : XF) (row : XRow) (regs ops : Nat) (c : Ctx) (s : State) : Option Trap :=
  match contextTrap c s f.xc.val (some ops) with
  | some t => some t
  | none => (match (stepWord f row regs c s).1 with | .error d => some (xtrap d) | .ok _ => none)

/-- XDG, XDG2 and XDU: the state carries on, and d receives the output digits unless the table compares (12 R190). -/
def stepEff (f : XF) (row : XRow) (regs : Nat) (c : Ctx) (s : State) : State :=
  let r := stepWord f row regs c s
  match r.1 with
  | .error _ => r.2
  | .ok (st, out) =>
    let s1 := r.2.updLane c.lk (fun l => { l with xs := xsOf 1 st })
    if hdrCmp (imgHdr (c.context s f.xc.val).image) then s1 else s1.writeOp c.lk f.d regs out

def stepPoint (f : XF) (row : XRow) (regs ops : Nat) : Point := trapping (stepTrap f row regs ops) (stepEff f row regs)

def xrstEff (f : XF) (c : Ctx) (s : State) : State :=
  s.updLane c.lk (fun l => { l with xs := xsOf 0 (hdrStart (imgHdr (c.context s f.xc.val).image)) })

/-! ## Finishing (12 R191) -/

/-- Reason 1: no final entry of the lane's state. -/
def finishTrap (f : XF) (c : Ctx) (s : State) : Option Trap :=
  match contextTrap c s f.xc.val none with
  | some t => some t
  | none =>
    let img := (c.context s f.xc.val).image
    let st := (s.lane c.lk).xstate
    if hdrStates (imgHdr img) ≤ st || !bit (imgFinal img st) 12 then some (xtrap (xdetail 1 f.xc.val st 0 0 0 c.pos)) else none

def xfinEff (f : XF) (c : Ctx) (s : State) : State :=
  let img := (c.context s f.xc.val).image
  let w := hdrWidth (imgHdr img)
  let e := imgFinal img (s.lane c.lk).xstate
  let n := bits e 9 8
  let d := (if 1 ≤ n then bits e 3 0 else 0) + (if n = 2 then bits e 7 4 * 2 ^ w else 0) + n * 2 ^ 28
  (s.updLane c.lk (fun l => { l with xs := xsOf 2 l.xstate })).writeOp c.lk f.d 1 d

def xcmpEff (f : XF) (c : Ctx) (s : State) : State :=
  let k := bits (imgFinal (c.context s f.xc.val).image (s.lane c.lk).xstate) 11 10
  s.updLane c.lk (fun l => (l.setPred f.pd.val (k == 1 || k == 0)).setPred (f.pd.val + 1) (k == 2 || k == 0))

def xstrEff (f : XF) (c : Ctx) (s : State) : State := s.writeOp c.lk f.d 1 (s.lane c.lk).xs.toNat
def xstwEff (f : XF) (c : Ctx) (s : State) : State :=
  let a := s.readOp c.lk f.a 1
  a.2.updLane c.lk (fun l => { l with xs := BitVec.ofNat 8 a.1 })
def xlenEff (f : XF) (c : Ctx) (s : State) : State :=
  let a := s.readOp c.lk f.a 1
  let w := hdrWidth (imgHdr (c.context s f.xc.val).image)
  let top := (List.range (digitsOf w)).reverse.find? (fun i => digitAt w a.1 i != 0)
  a.2.writeOp c.lk f.d 1 (match top with | some i => i + 1 | none => 0)
/-- The query word of 12 Table 12.6. -/
def queryWord (x : Context) : Nat :=
  let h := imgHdr x.image
  x.cond * 2 ^ 30
    + (if x.cond = 2 then hdrStart h * 2 ^ 13 + hdrStates h * 2 ^ 6 + b2n (hdrCmp h) * 2 ^ 5 + (hdrOps h - 1) * 2 ^ 4 + hdrWidth h else 0)
def xqryEff (f : XF) (c : Ctx) (s : State) : State := s.writeOp c.lk f.d 1 (queryWord (c.context s f.xc.val))

/-! ## Loading and releasing (12 R188, R189) -/

/-- The traps of XTLD in order: reason 5, buffer-record, space, alignment, bounds of the header, out-of-allocation. -/
def xtldTrap (f : XF) (c : Ctx) (s : State) : Option Trap :=
  let t := s.team c.tk
  let r := t.record_ f.slot.val
  let off := 8 * f.toff.val
  match notHeld c s f.xc.val with
  | some x => some x
  | none =>
    if !recordOk r then some ⟨100, 10, f.slot.val⟩
    else if recSpace r ≠ 0 then some ⟨110, 11, 0⟩
    else if (recBase r + off) % 8 ≠ 0 then some trapAlign
    else if recExtent r < off + 32 then some trapBounds
    else if t.chamberSize < recBase r + off + 32 then some trapOut
    else none

/-- XTLD raises its lane's counters and asks for the load at the end of the step (12 R187, R188). -/
def xtldEff (f : XF) (c : Ctx) (s : State) : State :=
  let r := (s.team c.tk).record_ f.slot.val
  let sel := selCtrs c.clause f.fsel.val
  let s := s.updLane c.lk (fun l => l.raise sel)
  let s := sel.foldl (fun s k => s.leave ⟨0x40, f.xc.val, (c.pos * 16 + k.1) * 16 + k.2⟩) s
  s.leave ⟨0xE0, f.xc.val + 8 * c.pos, (recBase r + 8 * f.toff.val) * 2 ^ 64 + (recBase r + recExtent r)⟩
def xtrlEff (f : XF) (c : Ctx) (s : State) : State := s.leave ⟨0xE1, f.xc.val + 8 * c.pos, 0⟩

/-- One core's copy of a context. -/
def State.setContext (s : State) (tk ci xc : Nat) (x : Context) : State :=
  s.updTeam tk (fun t => { t with contexts := t.contexts.put (ci * 8 + xc) x })

/-- Every core's copy of a context emptied (12 R189). -/
def State.emptyContexts (s : State) (tk xc : Nat) : State :=
  (List.range (s.team tk).cores.length).foldl (fun s ci => s.setContext tk ci xc Context.empty) s

/-- The loads and releases of a step at its end: for each context the highest lane that names it decides (12 R188). The copy on the step's own core is
loading from here on; another core's changes condition on its own, at its XTLD_COMPLETE (12 R189). -/
def State.endContexts (s : State) (st : IssueStep) : State :=
  let tk := teamOf st.group
  (List.range 8).foldl (fun s xc =>
    match (st.pend.filter (fun p => p.x % 8 == xc && (p.op == 0xE0 || p.op == 0xE1))).getLast? with
    | none => s
    | some p =>
      let ctrs := (st.pend.filter (fun q => q.op == 0x40 && q.x == xc)).map (fun q => (q.y / 16, q.y % 16))
      if p.op = 0xE0 then
        let img := p.y / 2 ^ 64
        let op : LaneOp :=
          { id := s.serial, lane := laneKey st.group (p.x / 8), pc := (s.stepPc (laneKey st.group (p.x / 8))).toNat, step := st.serial, space := 0,
            off := img,
            kind := .xtld ((s.team tk).chamberPhys img) xc img (p.y % 2 ^ 64) (List.range (s.team tk).cores.length) none, ctrs := ctrs }
        let own := (s.team tk).coreIndex (s.group st.group).core
        ((s.setContext tk own xc { Context.empty with cond := 1 }).updGroup st.group (fun g => { g with ops := g.ops ++ [op] })).bump
      else
        ctrs.foldl (fun s k => s.updLane (laneKey st.group (k.1 / 16)) (fun l => l.lower (k.1 % 16) k.2)) (s.emptyContexts tk xc)) s

/-- The image an XTLD reads, as loads of its group find it: the condition every copy ends in (12 R188, R189). -/
def State.readImage (s : State) (gk : Nat) (o : LaneOp) (xc img stop : Nat) : Context :=
  let t := s.team (teamOf gk)
  let rd (off n : Nat) : List Byte := (List.range n).flatMap (fun k => s.readFor gk o (t.chamberPhys (off + k)) 1)
  let n := s.imageSpan gk o img stop
  let bytes := rd img n
  if n = imgSize (imgHdr bytes) && imgValid bytes then { cond := 2, image := bytes, detail := 0 }
  else { cond := 3, image := [], detail := BitVec.ofNat 32 (4 * 2 ^ 28 + xc * 2 ^ 25 + img / 8 * 2 ^ 5) }

/-! ## The meanings -/


/-- XTLD (12 R186 to R192). -/
def execXtld (f : XF) (s : State) : Result := laneWord (.x 0x0E0 Rows.xtld f) (trapping (xtldTrap f) (xtldEff f)) s

/-- XTRL (12 R186 to R192). -/
def execXtrl (f : XF) (s : State) : Result := laneWord (.x 0x0E1 Rows.xtrl f) (trapping (fun c s => notHeld c s f.xc.val) (xtrlEff f)) s

/-- XRST (12 R186 to R192). -/
def execXrst (f : XF) (s : State) : Result := laneWord (.x 0x0E2 Rows.xrst f) (trapping (fun c s => contextTrap c s f.xc.val none) (xrstEff f)) s

/-- XDG (12 R186 to R192). -/
def execXdg (f : XF) (s : State) : Result := laneWord (.x 0x0E3 Rows.xdg f) (stepPoint f Rows.xdg 1 2) s

/-- XDG2 (12 R186 to R192). -/
def execXdg2 (f : XF) (s : State) : Result := laneWord (.x 0x0E4 Rows.xdg2 f) (stepPoint f Rows.xdg2 2 2) s

/-- XDU (12 R186 to R192). -/
def execXdu (f : XF) (s : State) : Result := laneWord (.x 0x0E5 Rows.xdu f) (stepPoint f Rows.xdu 1 1) s

/-- XFIN (12 R186 to R192). -/
def execXfin (f : XF) (s : State) : Result := laneWord (.x 0x0E6 Rows.xfin f) (trapping (finishTrap f) (xfinEff f)) s

/-- XCMP (12 R186 to R192). -/
def execXcmp (f : XF) (s : State) : Result := laneWord (.x 0x0E7 Rows.xcmp f) (trapping (finishTrap f) (xcmpEff f)) s

/-- XSTR (12 R186 to R192). -/
def execXstr (f : XF) (s : State) : Result := laneWord (.x 0x0E8 Rows.xstr f) (plain (xstrEff f)) s

/-- XSTW (12 R186 to R192). -/
def execXstw (f : XF) (s : State) : Result := laneWord (.x 0x0E9 Rows.xstw f) (plain (xstwEff f)) s

/-- XLEN (12 R186 to R192). -/
def execXlen (f : XF) (s : State) : Result := laneWord (.x 0x0EA Rows.xlen f) (trapping (fun c s => contextTrap c s f.xc.val none) (xlenEff f)) s

/-- XQRY (12 R186 to R192). -/
def execXqry (f : XF) (s : State) : Result := laneWord (.x 0x0EB Rows.xqry f) (trapping (fun c s => notHeld c s f.xc.val) (xqryEff f)) s

/-- The reads of an XTLD meet the watchpoints of their hosts, whether the image is valid or not (22 R304). -/
def State.watchImage (s : State) (gk : Nat) (o : LaneOp) (img n : Nat) : State :=
  (List.range ((n + 7) / 8)).foldl (fun s k => s.watchLane gk o ((s.team (teamOf gk)).chamberPhys (img + 8 * k)) 8 true false) s

/-- XTLD_COMPLETE: the copy of one team core takes a step of the load, from the one reading of the image: a copy still in its old condition is loading,
and one that is loading ends; with the last copy the counters of every naming lane fall (12 R188, R189). -/
def execXtldComplete (gk op core : Nat) (s : State) : Result := s.happens <|
  match (s.group gk).op? op with
  | some o =>
    (match o.kind with
     | .xtld a xc img stop left found =>
       if !left.contains core || !s.mayPerform gk o then none
       else if ((s.team (teamOf gk)).contexts.getD (core * 8 + xc) Context.empty).cond ≠ 1 then
         some (s.setContext (teamOf gk) core xc { Context.empty with cond := 1 })
       else
         let x : Context := match found with
           | some b => { cond := if b.2 then 2 else 3, image := b.1, detail := BitVec.ofNat 32 (4 * 2 ^ 28 + xc * 2 ^ 25 + img / 8 * 2 ^ 5) }
           | none => s.readImage gk o xc img stop
         let x := if x.cond = 2 then { x with detail := 0 } else x
         let s := if found.isSome then s else s.watchImage gk o img (s.imageSpan gk o img stop)
         let s := s.setContext (teamOf gk) core xc x
         let left := left.filter (· != core)
         if left.isEmpty then some (s.dropOp gk o)
         else
           let o' : LaneOp := { o with kind := .xtld a xc img stop left (some (x.image, x.cond == 2)) }
           some (s.updGroup gk (fun g => { g with ops := g.ops.map (fun e => if e.id == op then o' else e) }))
     | _ => none)
  | none => none

end Sys2Proof.Machine
end

