-- ==== Sys2Proof/Machine/Checks.lean ====
section
/-! DEFINITION. The checks of a whole issue step before it executes (02 R52, R53): the own traps of every lane point by opcode, the first trap of
each lane, and the one that the step takes. -/

namespace Sys2Proof.Machine

/-! ## The own traps of a point, by opcode: those its meaning gives it -/

def ownNone : Ctx → State → Option Trap := fun _ _ => none

def ownB (op : Nat) : Ctx → State → Option Trap :=
  match op with
  | 0x008 => callTrap
  | 0x009 => callTrap
  | 0x00A => retTrap
  | 0x00D => exitTrap
  | _ => ownNone

def ownR (op : Nat) (f : RRR) : Ctx → State → Option Trap :=
  match op with
  | 0x084 => packedTrap Rows.unpk3 f (fun a => 243 ≤ a / 2 ^ (8 * (f.mod.val % 4)) % 256)
  | 0x085 => packedTrap Rows.pack3 f tritBad
  | _ => ownNone

def ownM (op : Nat) (f : MF) : Ctx → State → Option Trap :=
  match op with
  | 0x120 => (loadPoint f 1 1 true).own
  | 0x121 => (loadPoint f 1 1 false).own
  | 0x122 => (loadPoint f 2 1 true).own
  | 0x123 => (loadPoint f 2 1 false).own
  | 0x124 => (loadPoint f 4 1 false).own
  | 0x125 => (loadPoint f 8 2 false).own
  | 0x126 => (loadPoint f 16 4 false).own
  | 0x127 => (storePoint f 1 1).own
  | 0x128 => (storePoint f 2 1).own
  | 0x129 => (storePoint f 4 1).own
  | 0x12A => (storePoint f 8 2).own
  | 0x12B => (storePoint f 16 4).own
  | 0x132 => (ldspPoint f).own
  | 0x133 => (stspPoint f).own
  | 0x134 => (brldPoint f).own
  | 0x135 => chcfgTrap f
  | 0x136 => chrdTrap f
  | 0x137 => chwrTrap f
  | 0x138 => chcntTrap f
  | 0x139 => chclsTrap f
  | 0x189 => (waitsPoint f).own
  | _ => ownNone

def ownA (op : Nat) (f : AF) : Ctx → State → Option Trap :=
  match op with
  | 0x12C => (atomPoint f 4 true).own
  | 0x12D => (atomPoint f 8 true).own
  | 0x12E => (casPoint f 4).own
  | 0x12F => (casPoint f 8).own
  | 0x130 => (atomPoint f 4 false).own
  | _ => (atomPoint f 8 false).own

def ownE (op : Nat) (r : ERow) (f : EF) : Ctx → State → Option Trap :=
  match op with
  | 0x153 => waitcTrap f
  | 0x154 => ownNone
  | 0x156 => ownNone
  | 0x157 => ownNone
  | _ => commandTrap op r f

def ownX (op : Nat) (f : XF) : Ctx → State → Option Trap :=
  match op with
  | 0x0E0 => xtldTrap f
  | 0x0E1 => fun c s => notHeld c s f.xc.val
  | 0x0E2 => fun c s => contextTrap c s f.xc.val none
  | 0x0E3 => (stepPoint f Rows.xdg 1 2).own
  | 0x0E4 => (stepPoint f Rows.xdg2 2 2).own
  | 0x0E5 => (stepPoint f Rows.xdu 1 1).own
  | 0x0E6 => finishTrap f
  | 0x0E7 => finishTrap f
  | 0x0EA => fun c s => contextTrap c s f.xc.val none
  | 0x0EB => fun c s => notHeld c s f.xc.val
  | _ => ownNone

def ownS (op : Nat) (f : SF) : Ctx → State → Option Trap :=
  match op with
  | 0x160 => ttsetTrap f
  | 0x161 => ttgetTrap f
  | 0x162 => mstartTrap
  | 0x187 => sealTrapOf f
  | 0x1A0 => srdTrap f
  | 0x1A1 => swrTrap f
  | 0x1A2 => fun _ _ => some ⟨190, 30, f.imm.toNat⟩
  | 0x1A3 => brkTrap f
  | 0x1A5 => launchTrap f
  | 0x1A7 => taskTrap f
  | 0x1A8 => taskpTrap f
  | 0x1A9 => tasksTrap f
  | 0x1AA => amsgTrap f
  | 0x1AB => amsgrTrap f
  | 0x1B2 => pswrTrap f
  | 0x1B3 => pctxTrap f
  | _ => ownNone

/-- A point as the checks of a step see it; a stream word in a lane's clause is none (17 R246). -/
def checkPoint (v : View) : Point :=
  match v with
  | .rrr op _ f => trapping (ownR op f) (fun _ s => s)
  | .ri _ _ _ => plain (fun _ s => s)
  | .m op _ f => trapping (ownM op f) (fun _ s => s)
  | .a op _ f => trapping (ownA op f) (fun _ s => s)
  | .g op row f => grupPoint op row f
  | .e op r f => trapping (ownE op r f) (fun _ s => s)
  | .x op _ f => trapping (ownX op f) (fun _ s => s)
  | .b op _ _ => trapping (ownB op) (fun _ s => s)
  | .s op _ f => trapping (ownS op f) (fun _ s => s)
  | .ms _ _ _ => trapping (fun _ _ => some trap2) (fun _ s => s)
  | .event => trapping (fun _ _ => some trap2) (fun _ s => s)

/-! ## The trap of a step (02 R53) -/

/-- A lane of a step with the first trap it meets. -/
structure Failing where
  pos : Nat
  pc : Nat
  trap : Trap
  deriving DecidableEq, Repr

/-- The check of one lane, on the state the lanes below it leave in the chutes: each has the elements that 07 R117 allots it, a failing one too.
A chute closed by a lower lane of the step counts as open, as it was before the step (DESIGN CHOICE, log 83). -/
def checkLane (st : IssueStep) (acc : List Failing × State) (x : StepLane) : List Failing × State :=
  let c := ctxOf st x
  let s := acc.2
  match decodeView x.word with
  | .error e => (acc.1 ++ [⟨x.pos, x.pc, undecoded c x.word e s⟩], s)
  | .ok v =>
    let next := if guardOn (s.lane c.lk) v then s.popUses c.lk v.uses else s
    match viewTrap c v (checkPoint v) s with
    | some tr => (acc.1 ++ [⟨x.pos, x.pc, tr⟩], next)
    | none => (acc.1, next)

/-- The lanes of a step that fail, in ascending order. -/
def State.failing (s : State) (st : IssueStep) : List Failing := (st.all.foldl (checkLane st) ([], s)).1

/-- The first in rank of the failing lanes; on ties the lowest lane. -/
def leading : List Failing → Option Failing
  | [] => none
  | x :: r => match leading r with
    | some y => if y.trap.rank < x.trap.rank then some y else some x
    | none => some x

/-- The trap a step takes, with its mask and program counter: the first in order among the failing lanes, the lanes that fail with its cause, and
the lowest lane's word; a fault reported by WAITC names its lowest lane alone (15 R229). -/
def trapOfStep (xs : List Failing) : Option (Trap × BitVec 32 × W32) :=
  match leading xs with
  | none => none
  | some f =>
    let same := xs.filter (fun x => x.trap.cause == f.trap.cause)
    match same with
    | [] => none
    | y :: _ =>
      let mask := if f.trap.rank = 194 then maskOf [y.pos] else maskOf (same.map (fun x => x.pos))
      some ({ y.trap with rank := f.trap.rank }, mask, BitVec.ofNat 32 y.pc)

end Sys2Proof.Machine
end

