-- ==== Sys2Proof/Machine/Issue.lean ====
section
/-! DEFINITION. Clause fetch (06 R104), issue opportunities and the census (07 R115 to R120), the end of an issue step, and cycles going by
(21 R283, 22 R313). -/

namespace Sys2Proof.Machine

/-! ## Clause fetch and entry (02 R37, 06 R104) -/

/-- The clause at a code offset, as memory holds it now; none where its page cannot be read. A header that does not lie in the code, or whose words do
not, comes back without words and fails its checks. -/
def State.fetchClause (s : State) (gk off : Nat) : Option Clause × State :=
  let k := (s.team (teamOf gk)).kernel
  let part := s.partitionOf (teamOf gk)
  let die := (s.group gk).core / 64
  if off % 8 ≠ 0 || k.codeSize < off + 8 then (some ⟨off, 0, []⟩, s)
  else
    match s.readVaFrom die part (k.image + k.codeAt + off) 8 with
    | (none, s) => (none, s)
    | (some h, s) =>
      let hdr := leNat h
      let n := bits hdr 3 0 + 1
      if k.codeSize < off + 8 + 8 * n then (some ⟨off, hdr, []⟩, s)
      else
        match s.readVaFrom die part (k.image + k.codeAt + off + 8) (8 * n) with
        | (none, s) => (none, s)
        | (some b, s) => (some ⟨off, hdr, (List.range n).map (fun j => leNat ((b.drop (8 * j)).take 8))⟩, s)

/-- A lane enters a clause, or has an illegal-clause trap pending (02 R37). -/
def State.enterClause (s : State) (lk : Nat) (c : Clause) : State :=
  if c.valid (s.team (teamOf (lk / 32))).kernel.codeSize then
    s.updLane lk (fun l => { l with clause := some c, entered := s.serial })
  else s.updLane lk (fun l => { l with badClause := true })

/-- Whether a lane stands at a header whose clause is still to be fetched. -/
def Lane.fetching (l : Lane) : Bool := l.live && l.clause.isNone && !l.badClause

/-- The bytes of a clause: its header and its words. -/
def Clause.bytes (c : Clause) : Nat := 8 * (c.words.length + 1)

/-- The entries of a cache that fit its 256 KiB, from the most recently used on (06 R104). -/
def cacheFit : Nat → List (Nat × Clause) → List (Nat × Clause)
  | _, [] => []
  | room, e :: r => if e.2.bytes ≤ room then e :: cacheFit (room - e.2.bytes) r else []

/-- An entry of a cache used: it is the most recently used one, and the least recently used ones are replaced (06 R104). -/
def cacheUse (m : List (Nat × Clause)) (image : Nat) (c : Clause) : List (Nat × Clause) :=
  cacheFit 262144 ((image, c) :: m.filter (fun e => !(e.1 == image && e.2.at_ == c.at_)))

/-- The clause at an offset of an image, where a core's cache holds it. -/
def State.cached (s : State) (gk off : Nat) : Option Clause :=
  ((s.core (s.group gk).core).icache.find? (fun e => e.1 == (s.team (teamOf gk)).kernel.image && e.2.at_ == off)).map (fun e => e.2)

/-- A clause used by a group in the cache of its core. -/
def State.useCache (s : State) (gk : Nat) (c : Clause) : State :=
  s.updCore (s.group gk).core (fun x => { x with icache := cacheUse x.icache (s.team (teamOf gk)).kernel.image c })

/-- Clauses that the cache holds are entered in the cycle the program counter reaches the header (06 R104). -/
def State.enterCached (s : State) (gk : Nat) : State :=
  (s.liveLanes gk).foldl (fun s p =>
    let lk := laneKey gk p
    let l := s.lane lk
    if l.fetching then (match s.cached gk l.pc.toNat with | some c => (s.useCache gk c).enterClause lk c | none => s) else s) s

/-- CLAUSE_FETCH_COMPLETE: a clause that missed has arrived whole; the lane enters it (06 R104, 02 R37). A clause that the cache holds meanwhile is entered
from it. -/
def execClauseFetchComplete (gk lane : Nat) (s : State) : Result := s.happens <|
  let lk := laneKey gk lane
  let tk := teamOf gk
  if !(s.groups.get? gk).isSome || (s.group gk).retired || (s.team tk).residency ≠ .resident || 32 ≤ lane || !(s.lane lk).fetching then
    none
  else
    match s.cached gk (s.lane lk).pc.toNat, s.fetchClause gk (s.lane lk).pc.toNat with
    | some c, _ => some ((s.useCache gk c).enterClause lk c)
    | none, (none, _) => none
    | none, (some c, s) =>
      let s := s.updGroup gk (fun g => { g with perf := g.perf.put 6 (g.perf.getD 6 0 + 1) })
      let s := if c.valid (s.team tk).kernel.codeSize then s.useCache gk c else s
      some (s.enterClause lk c)

/-! ## What stands on a port (07 R115) -/

def State.inSlot (s : State) (core port slot : Nat) : Option Nat :=
  (s.coreGroups core).find? (fun gk => (s.group gk).port == port && (s.group gk).slot == slot)

/-- The lanes of a group with an illegal-clause trap pending; a halted group takes none. -/
def State.badLanes (s : State) (gk : Nat) : List Nat :=
  if s.groupHalted gk then [] else (s.liveLanes gk).filter (fun p => (s.lane (laneKey gk p)).badClause)

/-- The ready lanes of a group with their classes (07 R116, R117). -/
def State.readyLanes (s : State) (gk : Nat) : List (Nat × Nat) :=
  (s.survey gk).filterMap (fun x => if x.2.2.isEmpty then some (x.1, x.2.1) else none)

/-- Whether a group may be served: a ready lane, or an illegal-clause trap pending (07 R115). -/
def State.servable (s : State) (gk : Nat) : Bool := !(s.badLanes gk).isEmpty || !(s.readyLanes gk).isEmpty

/-- The first slot after the pointer whose group may be served (07 R115). -/
def State.nextSlot (s : State) (core port : Nat) : Option (Nat × Nat) :=
  let ptr := (s.core core).ptr.getD port 7
  (List.range 8).findSome? (fun k =>
    let slot := (ptr + 1 + k) % 8
    match s.inSlot core port slot with
    | some gk => if s.servable gk then some (slot, gk) else none
    | none => none)

/-- A group brought up to date before its port looks for a slot: cached clauses entered, and waits looked at again after a halt. -/
def State.refreshGroup (s : State) (gk : Nat) : State :=
  ((s.enterCached gk).updateBarriers (teamOf gk) false).checkWaits gk

def State.refresh (s : State) (core port : Nat) : State :=
  (((s.coreGroups core).filter (fun gk => (s.group gk).port == port)).foldl (fun s gk => s.refreshGroup gk) s).wakeLaunchers

/-! ## The census (07 R118) -/

def classLanes (ready : List (Nat × Nat)) (k : Nat) : List Nat := ready.filterMap (fun x => if x.2 = k then some x.1 else none)

/-- The class with the greatest weight, the lowest on ties. -/
def heaviest (w : Nat → Nat) : List Nat → Option Nat
  | [] => none
  | k :: r => match heaviest w r with
    | some j => if w k < w j then some j else some k
    | none => some k

/-- The class the census chooses: patience, dwell, majority (07 R118). -/
def State.census (s : State) (gk : Nat) (ready : List (Nat × Nat)) : Option Nat :=
  let g := s.group gk
  let ks := (List.range 14).filter (fun k => !(classLanes ready k).isEmpty)
  let pat := ks.filter (fun k => g.patience ≤ g.s.getD k 0)
  if !pat.isEmpty then heaviest (fun k => g.s.getD k 0) pat
  else
    let dwelling := match g.last with
      | some k => if (classLanes ready k).any (fun p =>
          let l := s.lane (laneKey gk p)
          l.midClause && l.clause.any (fun c => c.dwell)) then some k else none
      | none => none
    match dwelling with
    | some k => some k
    | none => heaviest (fun k => (classLanes ready k).length) ks

/-- The patience counters after an opportunity: the class chosen and classes without a ready lane fall to 0, the others rise to at most 15. -/
def Group.censused (g : Group) (ready : List (Nat × Nat)) (c : Nat) : Group :=
  { g with
    s := (List.range 14).foldl (fun m k =>
      m.put k (if k = c || (classLanes ready k).isEmpty then 0 else min (g.s.getD k 0 + 1) 15)) g.s,
    last := some c }

/-! ## Breakpoints (22 R303) -/

/-- The lowest enabled breakpoint at an offset, of the launch and team that a team is. -/
def State.breakAt (s : State) (tk pc : Nat) : Option (Nat × Breakpoint) :=
  s.dbg.bp.find? (fun b =>
    b.2.enable && b.2.image.toNat == (s.team tk).kernel.image && b.2.pc.toNat == pc && s.namedBy b.2.launch b.2.team.toNat (s.team tk))

/-- The breakpoint a step meets: the lowest lane's, with the lanes that stand at it. None is looked for in a step that DBG_STEP runs or in a
group's first step after a resume (22 R303, R308). -/
def State.breakHit (s : State) (gk : Nat) (xs : List StepLane) : Option (Nat × Breakpoint × List Nat) :=
  let tk := teamOf gk
  if !s.watched tk || (s.group gk).skipBreak || s.dbg.stepping == some gk then none
  else
    match xs.findSome? (fun x => s.breakAt tk x.pc) with
    | none => none
    | some (k, b) => some (k, b, (xs.filter (fun x => x.pc == b.pc.toNat)).map (fun x => x.pos))

/-- A breakpoint hit: the step executes in no lane, the team records cause 31, and takes the stop (22 R303). -/
def State.takeBreak (s : State) (gk k : Nat) (b : Breakpoint) (ps : List Nat) : State :=
  let tk := teamOf gk
  let core := (s.group gk).core
  let first := s.recordsTrap gk
  let s := takeTrap s gk ⟨0, 31, 2 ^ 12 + k⟩ (maskOf ps) b.pc false
  let s := s.takeStop gk core b.scope false 2
  if first then s.updTeam tk (fun t => { t with stopRecord := true }) else s

/-! ## An issue opportunity -/

/-- What a port shows of its last opportunity (22 Table 22.6). -/
def State.sample (s : State) (gk : Nat) (mask : BitVec 32) (cls tag : Nat) (idle : Bool) : State :=
  let g := s.group gk
  s.updCore g.core (fun c => { c with samples := c.samples.put g.port ⟨gk, mask, cls, tag, idle⟩ })

/-- One of the steps that DBG_STEP asked for is taken: the first clears the team's skids (22 R308). After the last the group stands again, and stays the
one that was stepped: a trap of the step's accesses is recorded. -/
def State.stepTaken (s : State) (gk : Nat) : State :=
  if s.dbg.stepping = some gk ∧ s.dbg.left ≠ 0 then
    let s := if s.dbg.stepFirst then
        (s.teamGroups (teamOf gk)).foldl (fun s k => s.updLanes k (fun _ l => { l with skid := 0 })) (s.setDbg (fun d => { d with stepFirst := false }))
      else s
    if s.dbg.left = 1 then (s.stepsOver).setDbg (fun d => { d with stepping := some gk }) else s.setDbg (fun d => { d with left := d.left - 1, why := 0 })
  else s

/-- One of a group's counters raised (22 Table 22.7). -/
def State.countPerf (s : State) (gk k n : Nat) : State := s.updGroup gk (fun g => { g with perf := g.perf.put k (g.perf.getD k 0 + n) })

/-- A pending illegal-clause trap taken: the mask names the lanes it stands in, which fetch their clause again when they go on (02 R37). DESIGN CHOICE
(log 79): where several lanes have one pending, at headers of their own, all of them are in the mask and the program counter is the lowest one's. -/
def State.takeBadClause (s : State) (gk : Nat) (ps : List Nat) : State :=
  let pc := match ps with | p :: _ => (s.lane (laneKey gk p)).pc | [] => 0
  let s := ps.foldl (fun s p => s.updLane (laneKey gk p) (fun l => { l with badClause := false })) s
  (takeTrap s gk ⟨1, 1, 0⟩ (maskOf ps) pc false).sample gk 0 0 0 true

/-- The lane words of a step. -/
def State.stepLanes (s : State) (gk : Nat) (ps : List Nat) : List StepLane :=
  ps.filterMap (fun p =>
    let l := s.lane (laneKey gk p)
    l.nextWord.map (fun w => ⟨p, w, l.nextAt⟩))

/-- The step of a class: stopped by a breakpoint or a trap, it executes in no lane; else its lanes execute one after another (07 R118, 02 R53). -/
def State.issueClass (s : State) (gk cls : Nat) (ready : List (Nat × Nat)) : State :=
  let g := s.group gk
  let xs := s.stepLanes gk (classLanes ready cls)
  let st : IssueStep :=
    { group := gk, cls := cls, todo := xs, all := xs, checked := true, ready := ready, serial := s.serial, oc0 := g.oc, skips0 := g.skips,
      tt0 := (s.team (teamOf gk)).tt, reads := s.sysReads gk xs, pend := [] }
  let passed := ready.length - (classLanes ready cls).length
  match s.breakHit gk xs with
  | some (k, b, ps) => ((s.countPerf gk 3 passed).takeBreak gk k b ps).sample gk 0 cls 0 true
  | none =>
    match trapOfStep (s.failing st) with
    | some (tr, mask, pc) =>
      let armed := tr.rank == 191 && s.brkArmed gk
      ((takeTrap (s.countPerf gk 3 passed) gk tr mask pc false).brkStop gk armed).sample gk 0 cls 0 true
    | none =>
      let tag := match xs with
        | x :: _ => (match (s.lane (laneKey gk x.pos)).clause with | some c => c.tag | none => 0)
        | [] => 0
      (s.sample gk (maskOf (xs.map (fun x => x.pos))) cls tag false).bump.setTurn (.issue st)

/-- A group is served at its port: the pointer moves to its slot, and its census issues, or its illegal-clause trap is taken (07 R115, R118). -/
def State.serveGroup (s : State) (core port slot gk : Nat) : State :=
  let bad := s.badLanes gk
  let ready := s.readyLanes gk
  let s := s.updCore core (fun c => { c with ptr := c.ptr.put port slot, served := c.served.put port s.cycle })
  let s := s.updGroup gk (fun g => { g with opps := g.opps + 1 })
  if !bad.isEmpty then ((s.countPerf gk 3 ready.length).takeBadClause gk bad).stepTaken gk
  else
    match s.census gk ready with
    | some cls => (s.issueClass gk cls ready).stepTaken gk
    | none => s

/-- Why a group that DBG_STEP steps has nothing ready: the stall reason of its lowest live lane (22 R308; log 74). -/
def State.noteWhy (s : State) : State :=
  match s.dbg.stepping with
  | some gk =>
    if s.dbg.left ≠ 0 && (s.readyLanes gk).isEmpty then s.setDbg (fun d => { d with why := match s.survey gk with | x :: _ => s.stallOf gk x.1 | [] => 0 })
    else s
  | none => s

/-- ISSUE_OPPORTUNITY: once in a cycle a port serves the first slot after its pointer whose group has a ready lane or an illegal-clause trap pending
(07 R115). Where there is none, the port only looks again at the waits of its groups. -/
def execIssueOpportunity (core port : Nat) (s : State) : Result := s.happens <|
  if s.turn ≠ .idle || 256 ≤ core || 4 ≤ port || (s.core core).served.get? port = some s.cycle then none
  else
    let s1 := (s.refresh core port).noteWhy
    match s1.nextSlot core port with
    | some (slot, gk) => some (s1.serveGroup core port slot gk)
    | none => if s1 = s then none else some s1

/-! ## The end of an issue step -/

/-- How many cycles a unit is busy from a step of these words on (08 R131, 10 R145, 12 R180). -/
def busyCycles (op : Nat) : Nat :=
  if 0x046 ≤ op && op ≤ 0x049 then 2
  else if 0x060 ≤ op && op ≤ 0x067 then 4
  else if 0x0C0 ≤ op && op ≤ 0x0C3 then 4
  else if 0x0C4 ≤ op && op ≤ 0x0DF then 2
  else if op = 0x0E3 || op = 0x0E5 then 4
  else if op = 0x0E4 then 8
  else 1

/-- The effects the lanes of a step left for its end, but contexts, WPSET, PSWR, PCTX, STAMP, HINT, LAUNCHW and RETH: those in which a later lane
stands over an earlier one. -/
def State.applyPend (s : State) (gk : Nat) (p : Pend) : State :=
  let tk := teamOf gk
  match p.op with
  | 0x135 => s.configure tk p.x (BitVec.ofNat 64 p.y)
  | 0x184 => s.setBarrier tk p.x { (s.team tk).barrier p.x with expected := p.y }
  | 0x160 => s.updTeam tk (fun t => { t with tt := t.tt.put p.x (BitVec.ofNat 128 p.y) })
  | _ => s

/-- The trace record of STAMP or HINT: that of the lowest lane of the step (22 R311). -/
def State.traceMark (s : State) (st : IssueStep) (op kind : Nat) : State :=
  match st.pend.find? (fun p => p.op == op) with
  | some p =>
    let g := s.group st.group
    s.trace st.group kind (coreSource g.core (1 + g.port)) p.y p.x
  | none => s

/-- Every effect left for the end of a step, but that of RETH. -/
def State.applyPends (s : State) (st : IssueStep) : State :=
  let gk := st.group
  let of (op : Nat) : List Pend := st.pend.filter (fun p => p.op == op)
  let s := st.pend.foldl (fun s p => s.applyPend gk p) s
  let s := ((((s.endContexts st).endWpset gk (of 0x1AF)).endPswr (of 0x1B2)).endPctx (of 0x1B3))
  let s := ((of 0x1A6).foldl (fun s p => s.closeWindowsOf p.x) s).wakeLaunchers
  (s.traceMark st 0x1AE 2).traceMark st 0x1B1 3

/-- The counters of an issue step (22 Table 22.7) and the busy unit: the longest of the step's words keeps it, a mixed step of FDIV or FSQRT and other FSPC
words four cycles (10 R148; DESIGN CHOICE, log 82). -/
def State.countStep (s : State) (st : IssueStep) : State :=
  let gk := st.group
  let s := ((s.countPerf gk 1 1).countPerf gk 2 st.all.length).countPerf gk 3 (st.ready.length - (classLanes st.ready st.cls).length)
  let s := s.updGroup gk (fun g => { g with skipBreak := false, passBrk := false })
  let g := s.group gk
  let busy := st.all.foldl (fun n x => max n (busyCycles (bits x.word 8 0))) 1
  s.updCore g.core (fun c => { c with
    steps := c.steps + 1,
    busy := if busy = 1 then c.busy else c.busy.put (g.port * 16 + st.cls) (s.cycle + busy) })

/-- The handler group of a team returns (21 R289): the team ends, or the trapping group's state comes back. -/
def State.endHandler (s : State) (gk mode : Nat) : State :=
  let tk := teamOf gk
  let s := if mode = 2 then s.beginEnd (s.team tk).grid 3 (s.team tk).record else s.leaveHandler tk (mode == 1)
  s.setTurn .idle

/-- THE END OF AN ISSUE STEP: what its lanes left for it comes about, a rendezvous that is complete runs, barriers and waits are looked at, the census
state is updated, and the machine is free for what comes next (07 R118, R123). -/
def endIssueStep (st : IssueStep) (s : State) : State :=
  let gk := st.group
  let tk := teamOf gk
  let s := s.countStep st
  let s := s.updGroup gk (fun g => g.censused st.ready st.cls)
  let s := (s.applyPends st).setTurn .idle
  match (st.pend.filter (fun p => p.op == 0x1A4)).getLast? with
  | some p => s.endHandler gk p.x
  | none =>
    (((((s.endRendezvous gk).endSeals gk st.serial).updateBarriers tk true).pruneFences gk).checkWaits gk).enterCached gk

/-! ## Cycles going by -/

/-- Whether the time by which a group has received its team's halt has come (21 R283). -/
def State.haltDue (s : State) (gk : Nat) : Bool :=
  match (s.team (teamOf gk)).trigger with
  | some (at_, core) => if (s.group gk).core = core then at_ + 4 ≤ s.cycle else at_ + 40 ≤ s.cycle
  | none => false

/-- Halts received at their deadline, so that parks stop counting (06 R114). -/
def State.haltOverdue (s : State) : State :=
  (s.teams.filter (fun t => t.2.trigger.isSome && t.2.residency == .resident)).foldl (fun s t =>
    (s.teamGroups t.1).foldl (fun s gk => if !(s.group gk).halted && s.haltDue gk then s.receiveHalt gk else s) s) s

/-- Windows that have stood open for 256 cycles close (04 R83). -/
def State.windowsOverdue (s : State) : State :=
  (s.windows.filter (fun w => !w.2.closed && w.2.opened + 256 ≤ s.cycle)).foldl (fun s w => s.closeWindow w.1) s

/-- The groups of a launch's resident teams. -/
def State.launchGroups (s : State) (g : Nat) : List Nat :=
  (s.teams.filter (fun t => t.2.grid == g && t.2.residency == .resident)).flatMap (fun t => s.teamGroups t.1)

/-- Whether a lane of a group waits on a chute that a work feed fills, or on an unsatisfied SWAIT (22 R313). -/
def State.waitsOutside (s : State) (gk : Nat) : Bool :=
  let t := s.team (teamOf gk)
  (s.survey gk).any (fun x =>
    let l := s.lane (laneKey gk x.1)
    (stallReason x.2.2 == 6 && (match l.nextWord with
      | some w => (match decodeView w with
          | .ok v => (wordNeed v).pops.any (fun n => match (t.chute n.1).desc with
              | some d => descPend d == 2 && s.poppableCount t n.1 (t.coreIndex (s.group gk).core) < n.2
              | none => false)
          | .error _ => false)
      | none => false))
    || (stallReason x.2.2 == 8 && (match l.block with
        | .waitc cls n _ => (s.needed gk cls n (fun c => c.op == 0x14F && c.st != .done)).isSome
        | _ => false)))

/-- The field of the time record that a cycle of a launch counts in: 0 fault, 1 io, 2 engine, 3 run (22 R313); an ended launch's count as run
(25 R322). -/
def State.timeField (s : State) (g : Nat) : Nat :=
  let cmds := s.cmds.filter (fun c => (s.team (teamOf c.2.group)).grid == g && c.2.st != .done)
  let gks := s.launchGroups g
  let waiter := s.teams.any (fun t => t.2.grid == g && (match t.2.residency with | .saved 3 _ q _ => !q | _ => false))
  if (s.grid g).status ≠ 0 then 3
  else if waiter || cmds.any (fun c => c.2.st == .parked) then 0
  else if gks.any (fun gk => !(s.readyLanes gk).isEmpty) then 3
  else if gks.any (fun gk => s.waitsOutside gk) then 1
  else if !cmds.isEmpty then 2
  else 3

/-- Whether a launch, or a child merged in it, has a time record (22 R312). -/
def Grid.timed (g : Grid) : Bool := dTrec g.desc || g.children.any (fun c => dTrec c.desc)

/-- One cycle of every launch that has a time record is counted (22 R313). -/
def State.countTime (s : State) : State :=
  (s.grids.filter (fun g => g.2.accepted && !g.2.complete && g.2.timed)).foldl (fun s g =>
    s.updGrid g.1 (fun x => match s.timeField g.1 with
      | 0 => { x with fault := x.fault + 1 }
      | 1 => { x with io := x.io + 1 }
      | 2 => { x with engine := x.engine + 1 }
      | _ => x)) s

/-- What the part does in a cycle without being asked: halts arrive at their deadline, windows close, the part is ready for feeds, a dump whose team's work
has landed is taken, banks that no group uses are retired, and health records are kept fresh (21 R283, 04 R83, R66, 25 R323, R326, R328). -/
def State.selfActs (s : State) : State := s.haltOverdue.windowsOverdue.bootOn.takeDump.retireBanks.freshenHealth

/-- The clauses of every resident group that its core's cache holds are entered, in whatever way their lanes came to stand at them (06 R104). -/
def State.enterAll (s : State) : State :=
  (s.groups.filter (fun g => !g.2.retired && (s.team (teamOf g.1)).residency == .resident)).foldl (fun s g => s.enterCached g.1) s

/-- One arithmetic cycle goes by: cached clauses are entered, its samples are written and its time counted. -/
def State.tick1 (s : State) : State :=
  let s := s.enterAll.writeSamples.countTime
  { s with cycle := s.cycle + 1 }.selfActs

/-- Cycles go by. -/
def State.tick : Nat → State → State
  | 0, s => s
  | n + 1, s => State.tick n s.tick1

end Sys2Proof.Machine
end

