-- ==== Sys2Proof/Machine/Agent.lean ====
section
/-! DEFINITION. What runs when no issue step is in progress: the entries of the schedule, the sequencers' turns, and the agent that goes on when the
schedule is empty (log 1). -/

namespace Sys2Proof.Machine

/-! ## The sequencer's turn (17 R246, R247) -/

/-- Whether a store that the starting group issued before MSTART to the next word of a stream is still to be performed (17 R247). -/
def State.wordPending (s : State) (tk : Nat) : Bool :=
  let t := s.team tk
  match s.cmds.get? t.seqr.starter with
  | some c => s.owns c.group c && t.seqr.spc + 8 ≤ t.chamberSize && s.storesTo c.group t.seqr.starter (t.chamberPhys t.seqr.spc) 8
  | none => false

/-- Whether the sequencer of a team can complete a word now: its stream runs, its team is resident and not halted, what it waits on is over, and its word
holds what was stored to it before the stream (17 R246, R247, R249). -/
def State.streamReady (s : State) (tk : Nat) : Bool :=
  let t := s.team tk
  t.residency == .resident && t.seqr.run && !t.seqr.halted && t.trigger.isNone
    && (match t.seqr.wait with
        | .free => true
        | .copies n => s.copiesOut tk ≤ n
        | .barArrive nb => !(t.barrier nb).seq
        | .barWait nb p => p != (t.barrier nb).phase.toNat)
    && !s.wordPending tk

/-- The word that a team's sequencer completes next: none where it does not lie in the chamber (17 R247). -/
def State.streamAt (s : State) (tk : Nat) : Option Nat :=
  let t := s.team tk
  if t.chamberSize < t.seqr.spc + 8 then none else some (leNat (s.chamberRead t t.seqr.spc 8))

/-- A word that cannot be fetched ends the stream with reason 7 (17 R247, Table 17.5). -/
def State.streamLost (s : State) (tk : Nat) : State :=
  (s.setTurn .idle).streamTrap tk 28 (mdetail 7 0 0 0 0 0 (s.team tk).seqr.spc)

/-- A word that is no stream point, or breaks one's fields, ends the stream with an illegal-instruction trap (02 R48). -/
def State.streamIllegal (s : State) (tk : Nat) : State := (s.setTurn .idle).streamTrap tk 2 0

/-! ## The entries of the schedule -/

/-- A service launch that Fiaris posts to the device distributor: checked as a launch, its partition and priority as the descriptor gives them
(21 R298); a halted Fiaris complex posts none (22 R307). -/
def State.postService (s : State) (d : BitVec 512) : State :=
  if s.fwHalted then s else
  let id := s.newId
  let g := s.serial
  let cause := s.launchCause d (dPart d)
  let kn := (s.kernelAt (dPart d) (dImage d)).1
  let s := (s.lookedUp (dPart d) (dImage d)).bump.setGrid g { Grid.fresh with
    id := id, desc := d, partition := dPart d, prio := dPrio d, service := true, dispatchAt := s.now }
  match cause, kn with
  | 0, some k => s.dispatch g k (dTeams d)
  | _, _ => s.reject g 0xFF cause

/-- The die whose cavern or DRAM holds a byte of the model's memory; CXL memory and the host window are the hub die's. -/
def dieOf (a : Nat) : Nat := if a < 2 ^ 40 then (a - 2 ^ 28) / 2 ^ 26 else if a < 2 ^ 44 then (a - 2 ^ 40) / 2 ^ 36 else 4

/-- A write of memory by the host or another source outside the part: the owner refuses one that reaches a sealed byte, counts it, and answers with an
error completion (14 R204, 18 R268; log 15). -/
def State.outsideWrite (s : State) (a : Nat) (bs : List Byte) : State :=
  if s.sealedAt a bs.length then
    (s.updHealth (dieOf a) (fun h => { h with sealRefused := satInc h.sealRefused })).answerTo .host 0 [10]
  else s.setMem (s.mem.writeBytes a bs)

/-- A table root that Fiaris, while it runs, writes: translations made under the one before it are not kept (14 R199, 22 R307). -/
def State.setRoot (s : State) (owner part : Nat) (t : Option Nat) : State :=
  let key := owner * 256 + part
  if s.fwHalted then s
  else { s with
    roots := match t with | some r => s.roots.put key r | none => s.roots.del key
    tcache := s.tcache.filter (fun c => c.1 / 2 ^ 34 != key) }

/-- An entry of the schedule that is no event of the table. -/
def State.runEntry (s : State) (x : Sched) : State :=
  match x with
  | .ev _ => s
  | .seq tk => if s.streamReady tk then s.setTurn (.stream tk) else s
  | .tick n => s.tick n
  | .memWrite a bs => s.outsideWrite a bs
  | .root owner part t => s.setRoot owner part t
  | .service d => s.postService d

/-! ## The agent of an empty schedule -/

noncomputable section

/-- The completion of an operation in flight. -/
def completion (gk : Nat) (o : LaneOp) : Instr :=
  match o.kind with
  | .value _ _ true => .divideComplete gk o.id
  | .value _ _ false => .fspcComplete gk o.id
  | .waits .. => .waitsWake gk o.id
  | .xtld _ _ _ _ left _ => .xtldComplete gk o.id (left.headD 0)
  | .fencei => .fenceiComplete gk o.id
  | .sealing .. => .sealComplete gk o.id
  | _ => .memsComplete gk o.id

/-- What another part or the host answers, which the spec leaves to them: free values (log 8). -/
def State.outside (s : State) : Answer :=
  .data ((List.range 4096).map (fun k => BitVec.ofNat 8 (Config.freeValue (2 ^ 72 + s.serial * 4096 + k)).toNat))

/-- The steps an engine command may take next. -/
def State.progress (s : State) (k : Nat) (c : Command) : List Instr :=
  if isSignal c.op then [.signalUpdate k s.outside]
  else if 0x150 ≤ c.op && c.op ≤ 0x152 then
    .collContribution k s.outside :: (match c.descriptor with
      | some d => (s.wantedFar c (collCount d)).map (fun e => .engineRequestResponse k (e + 1) s.outside)
      | none => [])
  else [.engineRequestResponse k (((List.range c.units).find? (fun u => !c.performed.contains u)).getD 0) s.outside]

/-- The chute events of a team: a deque's withdrawal before a forwarding. -/
def State.chuteEvents (s : State) (tk : Nat) : List Instr :=
  (s.team tk).chutes.flatMap (fun q =>
    let wanted := match q.2.desc with
      | some d => (match producerAt (s.team tk) d with | some ci => s.tailWanted tk q.1 ((s.team tk).cores.getD ci 0) != 0 | none => false)
      | none => false
    [.chuteRemotePushArrive tk q.1, .chuteFreeNotice tk q.1, .chutePopNotice tk q.1, .chuteCloseNotice tk q.1]
      ++ (if wanted then [.chuteWithdraw tk q.1, .chuteForward tk q.1] else [.chuteForward tk q.1]))

/-- The events the agent tries, in this order: clause fetches; ports not yet served in this cycle; what is in flight; engine commands; chutes; halts,
handlers, retirement, messages and tasks, launches and placement, and what Fiaris sees to. -/
def State.candidates (s : State) : List Instr :=
  let here := s.groups.filter (fun g => !g.2.retired && (s.team (teamOf g.1)).residency == .resident)
  let ports := here.map (fun g => Instr.issueOpportunity g.2.core g.2.port)
  let ops := here.flatMap (fun g => g.2.ops.map (completion g.1))
  let fetches := here.flatMap (fun g => (s.liveLanes g.1).filterMap (fun p =>
    if (s.lane (laneKey g.1 p)).fetching then some (Instr.clauseFetchComplete g.1 p) else none))
  let cmds := (s.cmds.filter (fun c => c.2.st != .done && c.2.op != 0x162)).flatMap (fun c => s.progress c.1 c.2)
  let teams := s.teams.map (fun t => t.1)
  let chutes := teams.flatMap (fun tk => s.chuteEvents tk)
  let halts := here.map (fun g => Instr.haltReceive g.1)
  let ends := here.map (fun g => Instr.groupRetire g.1)
  let perTeam := teams.flatMap (fun tk => [Instr.handlerStart tk, .teamSave tk, .teamRestore tk])
  let perCore := s.cores.flatMap (fun c =>
    [Instr.grantServe c.1, .messageArrive (.core c.1), .messageRetry c.1, .handlerRun c.1, .taskRun c.1])
  let thieves := if s.cores.any (fun c => c.2.dqCount != 0) then (List.range 256).map Instr.taskSteal else []
  let perGrid := s.grids.flatMap (fun g =>
    [Instr.launchEnd g.1, .launchComplete g.1, .timeSliceExpire g.1] ++ (g.2.ranges.map (fun r => Instr.teamPlace r.1 g.1))
      ++ (if g.2.ranges.all (fun r => r.2.isEmpty) then []
          else (s.clusters g.2.partition).map (fun cl => Instr.clusterSteal cl g.1) ++ (List.range 4).map (fun d => Instr.dieSteal d g.1)))
  let feeds := s.feeds.flatMap (fun f => [Instr.feedEntryDispatch f.1, .workRecordAppend f.1])
  let windows := s.windows.map (fun w => Instr.windowTimeout w.1)
  let upkeep := [Instr.spatialWindowExpire, .fwStageComplete true, .fwCommitPoint, .dumpComplete true]
    ++ (s.purges.flatMap (fun p => p.2.waiting.map (fun r => Instr.purge (.own p.1) r) ++ [.purgeComplete p.1])
    ++ s.health.flatMap (fun h => h.2.failing.map (fun n => Instr.channelMigrate h.1 n)))
  fetches ++ ports ++ ops ++ cmds ++ chutes ++ halts ++ perTeam ++ ends ++ perCore ++ thieves ++ perGrid ++ feeds ++ windows ++ upkeep

end

/-- What the agent schedules when none of its events can happen: one word of every sequencer that can go on, and a cycle. -/
def State.idleEntries (s : State) : List Sched :=
  ((s.teams.filter (fun t => s.streamReady t.1)).map (fun t => Sched.seq t.1)) ++ [.tick 1]

/-! ## Issue steps in progress -/

/-- A word of an unchecked step that does not decode: its lane's trap (02 R53). -/
def State.undecodedTrap (s : State) (st : IssueStep) (x : StepLane) (e : DecodeError) : State :=
  takeTrap s st.group (undecoded (ctxOf st x) x.word e s) (1#32 <<< x.pos) (BitVec.ofNat 32 x.pc) false

/-! ## A word by itself: what `step` runs when a word is placed where it fetches -/

/-- Whether a word is a stream point of the sequencer. -/
def isStreamWord (w : Nat) : Bool := bits w 8 5 == 11 && 16 ≤ bits w 4 0

/-- The kernel under which a word by itself runs: one core, a chamber, a spill stack, chutes, contexts and a matrix engine (log 19). -/
def loneKernel : Kernel :=
  { image := 0, hdr := 4 * 2 ^ 42 + 1 * 2 ^ 32 + 8 * 2 ^ 28 + 8 * 2 ^ 24 + 4 * 2 ^ 16 + 2 ^ 7, idw := 1 * 2 ^ 52 + 4096 }

/-- The state with one team of one group of one live lane on core 0, its only word `w` the next of a clause of its class (log 19). -/
def State.placeWord (s : State) (w : Nat) : State :=
  let s := s.setGrid 0 { Grid.fresh with kernel := loneKernel, teams := 1, accepted := true }
  let s := s.setTeam 0 { Team.fresh with
    grid := 0, kernel := loneKernel, lanes := 1, cores := [0], chamberAt := [0], groups := 1, slots := firstSlots loneKernel 1, kind := if isStreamWord w then .ordinary else .service }
  let s := s.setGroup 0 { Group.fresh with granules := [0, 1, 2, 3, 4, 5, 6, 7], budget := 15, spillAt := 16384, handler := bits w 8 0 == 0x1A4 }
  if isStreamWord w then
    let s := (s.setTeam 0 { s.team 0 with seqr := { Sequencer.fresh with run := true } }).chamberWrite (s.team 0) 0 (leBytes 8 w)
    s.setTurn (.stream 0)
  else
    let c : Clause := { at_ := 0, hdr := 0b1010 * 2 ^ 60 + 15 * 2 ^ 24 + 15 * 2 ^ 20 + 16 * bits w 8 5, words := [w] }
    let s := s.setLane 0 { Lane.fresh with live := true, clause := some c }
    let x : StepLane := ⟨0, w, 8⟩
    s.setTurn (.issue
      { group := 0, cls := bits w 8 5, todo := [x], all := [x], checked := false, ready := [(0, bits w 8 5)], serial := 0, oc0 := [],
        skips0 := [], tt0 := [], reads := s.sysReads 0 [x], pend := [] })

end Sys2Proof.Machine
end

