-- ==== Sys2Proof/Machine/Divide.lean ====
section
/-! DEFINITION. Class IDIV (08 R135 to R137): the points as functions of their operands, their flight and their completion. -/

namespace Sys2Proof.Machine

/-- A long-latency RRR point (02 R40, 08 R136): operands are read at issue, the result and its flags land together at completion. -/
def lateRRR (row : RRRRow) (f : RRR) (divider : Bool) (fn : Fn) (c : Ctx) (s : State) : State :=
  let r := readRRR row f c.lk s
  let y := fn (s.lane c.lk) r.1.1 r.1.2.1 r.1.2.2
  r.2.addOp c f.fsel.val 0 0 (.value (regWrites f.d (slotWidth row.d) y.1) y.2 divider)

/-- The rounding mode of a word: rm, or the lane's fprm where rm is 0 (08 R136, 10 R145). -/
def modeOf (rm : Nat) (l : Lane) : Nat := if rm = 0 then l.fprm.toNat else rm

/-- The quotient rounded to an integer (08 R136). -/
def roundQuot (mode : Nat) (x y : Int) : Int :=
  let neg : Bool := (x < 0) != (y < 0)
  let q : Int := roundDiv mode neg x.natAbs y.natAbs
  if neg then -q else q

/-- The two special cases of a division of width `w`: by zero, and of the least value by −1 (08 R136): quotient, remainder, flag. -/
def divSpecial (w : Nat) (signed : Bool) (x y : Int) : Option (Int × Int × Flags) :=
  if y = 0 then some (-1, x, flagIDZ)
  else if signed ∧ x = minS w ∧ y = -1 then some (x, 0, flagIOV)
  else none

def fnDiv (w : Nat) (signed : Bool) : Fn := fun _ a b _ =>
  let x : Int := if signed then toSigned w a else a
  let y : Int := if signed then toSigned w b else b
  match divSpecial w signed x y with
  | some r => (ofSigned w r.1, r.2.2)
  | none => (ofSigned w (Int.tdiv x y), 0)

def fnRem (w : Nat) (signed : Bool) : Fn := fun _ a b _ =>
  let x : Int := if signed then toSigned w a else a
  let y : Int := if signed then toSigned w b else b
  match divSpecial w signed x y with
  | some r => (ofSigned w r.2.1, r.2.2)
  | none => (ofSigned w (Int.tmod x y), 0)

def fnDivr (rm : Nat) (signed : Bool) : Fn := fun l a b _ =>
  let x : Int := if signed then toSigned 32 a else a
  let y : Int := if signed then toSigned 32 b else b
  match divSpecial 32 signed x y with
  | some r => (ofSigned 32 r.1, r.2.2)
  | none => (ofSigned 32 (roundQuot (modeOf rm l) x y), 0)

/-- The registers and flags of a computed value land at its completion. -/
def State.landValue (s : State) (gk : Nat) (o : LaneOp) (writes : List (Nat × W32)) (flags : BitVec 9) : State :=
  (s.landRegs o.lane writes flags).dropOp gk o

/-! ## The meanings -/


/-- DIV_S (08 R136). -/
def execDivS (f : RRR) (s : State) : Result := laneWord (.rrr 0x060 Rows.divS f) (plain (lateRRR Rows.divS f true (fnDiv 32 true))) s

/-- DIV_N (08 R136). -/
def execDivN (f : RRR) (s : State) : Result := laneWord (.rrr 0x061 Rows.divN f) (plain (lateRRR Rows.divN f true (fnDiv 32 false))) s

/-- REM_S (08 R136). -/
def execRemS (f : RRR) (s : State) : Result := laneWord (.rrr 0x062 Rows.remS f) (plain (lateRRR Rows.remS f true (fnRem 32 true))) s

/-- REM_N (08 R136). -/
def execRemN (f : RRR) (s : State) : Result := laneWord (.rrr 0x063 Rows.remN f) (plain (lateRRR Rows.remN f true (fnRem 32 false))) s

/-- DIVR_S (08 R136). -/
def execDivrS (f : RRR) (s : State) : Result := laneWord (.rrr 0x064 Rows.divrS f) (plain (lateRRR Rows.divrS f true (fnDivr f.rm.val true))) s

/-- DIVR_N (08 R136). -/
def execDivrN (f : RRR) (s : State) : Result := laneWord (.rrr 0x065 Rows.divrN f) (plain (lateRRR Rows.divrN f true (fnDivr f.rm.val false))) s

/-- DIV64_S (08 R136). -/
def execDiv64S (f : RRR) (s : State) : Result := laneWord (.rrr 0x066 Rows.div64S f) (plain (lateRRR Rows.div64S f true (fnDiv 64 true))) s

/-- DIV64_N (08 R136). -/
def execDiv64N (f : RRR) (s : State) : Result := laneWord (.rrr 0x067 Rows.div64N f) (plain (lateRRR Rows.div64N f true (fnDiv 64 false))) s

/-- DIVIDE_COMPLETE: a divide in flight completes; the quotient and its flags land, and its counters fall (08 R136, R137). -/
def execDivideComplete (gk op : Nat) (s : State) : Result := s.happens <|
  match (s.group gk).op? op with
  | some o =>
    (match o.kind with
     | .value ws fl true => some (s.landValue gk o ws fl)
     | _ => none)
  | none => none

end Sys2Proof.Machine
end

