-- ==== Sys2Proof/Machine/Floating.lean ====
section
/-! DEFINITION. Classes FALU and FSPC (10 R144 to R158). Packed forms act on two elements, element 0 in the low half. -/

namespace Sys2Proof.Machine

/-- A function of the elements of an operand word applied to a packed pair, flags ORed (10 R147). -/
def packed2 (fn : Nat → Nat → Nat → Nat × Flags) (a b c : Nat) : Nat × Flags :=
  let lo := fn (a % 65536) (b % 65536) (c % 65536)
  let hi := fn (a / 65536) (b / 65536) (c / 65536)
  (lo.1 + hi.1 * 65536, lo.2 ||| hi.2)

/-- An element function in a word: on the whole word, or on both halves. -/
def overElems (pk : Bool) (fn : Nat → Nat → Nat → Nat × Flags) (a b c : Nat) : Nat × Flags :=
  if pk then packed2 fn a b c else fn a b c

def fnFadd (F : Fmt) (pk : Bool) (rm : Nat) : Fn := fun l a b c => overElems pk (fun x y _ => F.add (modeOf rm l) x y) a b c
def fnFsub (F : Fmt) (pk : Bool) (rm : Nat) : Fn := fun l a b c => overElems pk (fun x y _ => F.sub (modeOf rm l) x y) a b c
def fnFmul (F : Fmt) (pk : Bool) (rm : Nat) : Fn := fun l a b c => overElems pk (fun x y _ => F.mul (modeOf rm l) x y) a b c
def fnFma (F : Fmt) (pk : Bool) (rm : Nat) : Fn := fun l a b c => overElems pk (fun x y z => F.fma (modeOf rm l) x y z) a b c
def fnFminmax (F : Fmt) (pk max : Bool) : Fn := fun _ a b c => overElems pk (fun x y _ => F.minMax max x y) a b c
def fnFset (F : Fmt) (pk : Bool) (mod : Nat) : Fn := fun _ a b c =>
  overElems pk (fun x y _ => let r := F.cond (mod % 8) x y; (if r.1 then F.one else 0, r.2)) a b c
def fnFcls (F : Fmt) (pk : Bool) : Fn := fun _ a b c => overElems pk (fun x _ _ => (F.classMask x, 0)) a b c
def fnFdot2 (F : Fmt) (rm : Nat) : Fn := fun l a b c => dot2 F (modeOf rm l) a b c
def fnFscl (rm : Nat) : Fn := fun l a b _ => fscl (modeOf rm l) a (toSigned 32 b)
def fnFfrc (rm : Nat) : Fn := fun l a _ _ => ffrc (modeOf rm l) a
def fnFcmp (mod : Nat) (_l : Lane) (a b _c : Nat) : Bool × Flags := f32.cond (mod % 8) a b

/-- The packed FCMP: element 0 to pd, element 1 to pd + 1; pd 7 discards both (10 R149). -/
def fcmp2Eff (F : Fmt) (row : RRRRow) (f : RRR) (c : Ctx) (s : State) : State :=
  let r := readRRR row f c.lk s
  let lo := F.cond (f.mod.val % 8) (r.1.1 % 65536) (r.1.2.1 % 65536)
  let hi := F.cond (f.mod.val % 8) (r.1.1 / 65536) (r.1.2.1 / 65536)
  r.2.updLane c.lk (fun l => ((l.orFlags (lo.2 ||| hi.2)).setPred f.pd.val lo.1).setPred (f.pd.val + 1) hi.1)

def fnFdiv (F : Fmt) (rm : Nat) : Fn := fun l a b _ => F.div (modeOf rm l) (a % 2 ^ F.width) (b % 2 ^ F.width)
def fnFsqrt (F : Fmt) (rm : Nat) : Fn := fun l a _ _ => F.sqrt (modeOf rm l) (a % 2 ^ F.width)
def fnOne (fn : Nat → Nat × Flags) : Fn := fun _ a _ _ => fn a
def fnFrnd (F : Fmt) (pk : Bool) (rm : Nat) : Fn := fun l a b c => overElems pk (fun x _ _ => F.integral (modeOf rm l) x) a b c
/-- Integer to format (10 R158). -/
def fnFromInt (F : Fmt) (rd : Nat → Int) (rm : Nat) : Fn := fun l a _ _ => F.ofInt (modeOf rm l) (rd a)
/-- binary32 to an integer of `w` bits (10 R158). -/
def fnToInt (w : Nat) (lo hi : Int) (rm : Nat) : Fn := fun l a _ _ =>
  let r := toInt (modeOf rm l) a lo hi
  (ofSigned w r.1, r.2)
/-- Between formats (10 R158). -/
def fnConvert (dst src : Fmt) (rm : Nat) : Fn := fun l a _ _ => dst.convert src (modeOf rm l) (a % 2 ^ src.width)
/-- Exact widening, whatever the mode (10 R158). -/
def fnWiden (src : Fmt) : Fn := fun _ a _ _ => f32.convert src 1 (a % 2 ^ src.width)
/-- Two binary32 values to a packed pair (10 R158). -/
def fnPair (dst : Fmt) (rm : Nat) : Fn := fun l a b _ =>
  let lo := dst.convert f32 (modeOf rm l) a
  let hi := dst.convert f32 (modeOf rm l) b
  (lo.1 + hi.1 * 65536, lo.2 ||| hi.2)

/-! ## The meanings -/


/-- FADD_F32 (10 R150 to R153). -/
def execFaddF32 (f : RRR) (s : State) : Result := laneWord (.rrr 0x0A0 Rows.faddF32 f) (rrrPoint Rows.faddF32 f (fnFadd f32 false f.rm.val)) s

/-- FADD_F16X2 (10 R150 to R153). -/
def execFaddF16x2 (f : RRR) (s : State) : Result := laneWord (.rrr 0x0A1 Rows.faddF16x2 f) (rrrPoint Rows.faddF16x2 f (fnFadd f16 true f.rm.val)) s

/-- FADD_BF16X2 (10 R150 to R153). -/
def execFaddBf16x2 (f : RRR) (s : State) : Result := laneWord (.rrr 0x0A2 Rows.faddBf16x2 f) (rrrPoint Rows.faddBf16x2 f (fnFadd bf16 true f.rm.val)) s

/-- FSUB_F32 (10 R150 to R153). -/
def execFsubF32 (f : RRR) (s : State) : Result := laneWord (.rrr 0x0A3 Rows.fsubF32 f) (rrrPoint Rows.fsubF32 f (fnFsub f32 false f.rm.val)) s

/-- FSUB_F16X2 (10 R150 to R153). -/
def execFsubF16x2 (f : RRR) (s : State) : Result := laneWord (.rrr 0x0A4 Rows.fsubF16x2 f) (rrrPoint Rows.fsubF16x2 f (fnFsub f16 true f.rm.val)) s

/-- FSUB_BF16X2 (10 R150 to R153). -/
def execFsubBf16x2 (f : RRR) (s : State) : Result := laneWord (.rrr 0x0A5 Rows.fsubBf16x2 f) (rrrPoint Rows.fsubBf16x2 f (fnFsub bf16 true f.rm.val)) s

/-- FMUL_F32 (10 R150 to R153). -/
def execFmulF32 (f : RRR) (s : State) : Result := laneWord (.rrr 0x0A6 Rows.fmulF32 f) (rrrPoint Rows.fmulF32 f (fnFmul f32 false f.rm.val)) s

/-- FMUL_F16X2 (10 R150 to R153). -/
def execFmulF16x2 (f : RRR) (s : State) : Result := laneWord (.rrr 0x0A7 Rows.fmulF16x2 f) (rrrPoint Rows.fmulF16x2 f (fnFmul f16 true f.rm.val)) s

/-- FMUL_BF16X2 (10 R150 to R153). -/
def execFmulBf16x2 (f : RRR) (s : State) : Result := laneWord (.rrr 0x0A8 Rows.fmulBf16x2 f) (rrrPoint Rows.fmulBf16x2 f (fnFmul bf16 true f.rm.val)) s

/-- FMA_F32 (10 R150 to R153). -/
def execFmaF32 (f : RRR) (s : State) : Result := laneWord (.rrr 0x0A9 Rows.fmaF32 f) (rrrPoint Rows.fmaF32 f (fnFma f32 false f.rm.val)) s

/-- FMA_F16X2 (10 R150 to R153). -/
def execFmaF16x2 (f : RRR) (s : State) : Result := laneWord (.rrr 0x0AA Rows.fmaF16x2 f) (rrrPoint Rows.fmaF16x2 f (fnFma f16 true f.rm.val)) s

/-- FMA_BF16X2 (10 R150 to R153). -/
def execFmaBf16x2 (f : RRR) (s : State) : Result := laneWord (.rrr 0x0AB Rows.fmaBf16x2 f) (rrrPoint Rows.fmaBf16x2 f (fnFma bf16 true f.rm.val)) s

/-- FMIN_F32 (10 R150 to R153). -/
def execFminF32 (f : RRR) (s : State) : Result := laneWord (.rrr 0x0AC Rows.fminF32 f) (rrrPoint Rows.fminF32 f (fnFminmax f32 false false)) s

/-- FMIN_F16X2 (10 R150 to R153). -/
def execFminF16x2 (f : RRR) (s : State) : Result := laneWord (.rrr 0x0AD Rows.fminF16x2 f) (rrrPoint Rows.fminF16x2 f (fnFminmax f16 true false)) s

/-- FMIN_BF16X2 (10 R150 to R153). -/
def execFminBf16x2 (f : RRR) (s : State) : Result := laneWord (.rrr 0x0AE Rows.fminBf16x2 f) (rrrPoint Rows.fminBf16x2 f (fnFminmax bf16 true false)) s

/-- FMAX_F32 (10 R150 to R153). -/
def execFmaxF32 (f : RRR) (s : State) : Result := laneWord (.rrr 0x0AF Rows.fmaxF32 f) (rrrPoint Rows.fmaxF32 f (fnFminmax f32 false true)) s

/-- FMAX_F16X2 (10 R150 to R153). -/
def execFmaxF16x2 (f : RRR) (s : State) : Result := laneWord (.rrr 0x0B0 Rows.fmaxF16x2 f) (rrrPoint Rows.fmaxF16x2 f (fnFminmax f16 true true)) s

/-- FMAX_BF16X2 (10 R150 to R153). -/
def execFmaxBf16x2 (f : RRR) (s : State) : Result := laneWord (.rrr 0x0B1 Rows.fmaxBf16x2 f) (rrrPoint Rows.fmaxBf16x2 f (fnFminmax bf16 true true)) s

/-- FCMP_F32 (10 R150 to R153). -/
def execFcmpF32 (f : RRR) (s : State) : Result := laneWord (.rrr 0x0B2 Rows.fcmpF32 f) (plain (computePred Rows.fcmpF32 f (fnFcmp f.mod.val))) s

/-- FCMP_F16X2 (10 R150 to R153). -/
def execFcmpF16x2 (f : RRR) (s : State) : Result := laneWord (.rrr 0x0B3 Rows.fcmpF16x2 f) (plain (fcmp2Eff f16 Rows.fcmpF16x2 f)) s

/-- FCMP_BF16X2 (10 R150 to R153). -/
def execFcmpBf16x2 (f : RRR) (s : State) : Result := laneWord (.rrr 0x0B4 Rows.fcmpBf16x2 f) (plain (fcmp2Eff bf16 Rows.fcmpBf16x2 f)) s

/-- FSET_F32 (10 R150 to R153). -/
def execFsetF32 (f : RRR) (s : State) : Result := laneWord (.rrr 0x0B5 Rows.fsetF32 f) (rrrPoint Rows.fsetF32 f (fnFset f32 false f.mod.val)) s

/-- FSET_F16X2 (10 R150 to R153). -/
def execFsetF16x2 (f : RRR) (s : State) : Result := laneWord (.rrr 0x0B6 Rows.fsetF16x2 f) (rrrPoint Rows.fsetF16x2 f (fnFset f16 true f.mod.val)) s

/-- FSET_BF16X2 (10 R150 to R153). -/
def execFsetBf16x2 (f : RRR) (s : State) : Result := laneWord (.rrr 0x0B7 Rows.fsetBf16x2 f) (rrrPoint Rows.fsetBf16x2 f (fnFset bf16 true f.mod.val)) s

/-- FCLS_F32 (10 R150 to R153). -/
def execFclsF32 (f : RRR) (s : State) : Result := laneWord (.rrr 0x0B8 Rows.fclsF32 f) (rrrPoint Rows.fclsF32 f (fnFcls f32 false)) s

/-- FCLS_F16X2 (10 R150 to R153). -/
def execFclsF16x2 (f : RRR) (s : State) : Result := laneWord (.rrr 0x0B9 Rows.fclsF16x2 f) (rrrPoint Rows.fclsF16x2 f (fnFcls f16 true)) s

/-- FCLS_BF16X2 (10 R150 to R153). -/
def execFclsBf16x2 (f : RRR) (s : State) : Result := laneWord (.rrr 0x0BA Rows.fclsBf16x2 f) (rrrPoint Rows.fclsBf16x2 f (fnFcls bf16 true)) s

/-- FSEL (10 R150 to R153). -/
def execFsel (f : RRR) (s : State) : Result := laneWord (.rrr 0x0BB Rows.fsel f) (rrrPoint Rows.fsel f (fnSel f.mod.val)) s

/-- FDOT2_F16 (10 R150 to R153). -/
def execFdot2F16 (f : RRR) (s : State) : Result := laneWord (.rrr 0x0BC Rows.fdot2F16 f) (rrrPoint Rows.fdot2F16 f (fnFdot2 f16 f.rm.val)) s

/-- FDOT2_BF16 (10 R150 to R153). -/
def execFdot2Bf16 (f : RRR) (s : State) : Result := laneWord (.rrr 0x0BD Rows.fdot2Bf16 f) (rrrPoint Rows.fdot2Bf16 f (fnFdot2 bf16 f.rm.val)) s

/-- FSCL (10 R150 to R153). -/
def execFscl (f : RRR) (s : State) : Result := laneWord (.rrr 0x0BE Rows.fscl f) (rrrPoint Rows.fscl f (fnFscl f.rm.val)) s

/-- FFRC (10 R150 to R153). -/
def execFfrc (f : RRR) (s : State) : Result := laneWord (.rrr 0x0BF Rows.ffrc f) (rrrPoint Rows.ffrc f (fnFfrc f.rm.val)) s

/-- FDIV_F32 (10 R154 to R158). -/
def execFdivF32 (f : RRR) (s : State) : Result := laneWord (.rrr 0x0C0 Rows.fdivF32 f) (plain (lateRRR Rows.fdivF32 f false (fnFdiv f32 f.rm.val))) s

/-- FDIV_F16 (10 R154 to R158). -/
def execFdivF16 (f : RRR) (s : State) : Result := laneWord (.rrr 0x0C1 Rows.fdivF16 f) (plain (lateRRR Rows.fdivF16 f false (fnFdiv f16 f.rm.val))) s

/-- FSQRT_F32 (10 R154 to R158). -/
def execFsqrtF32 (f : RRR) (s : State) : Result := laneWord (.rrr 0x0C2 Rows.fsqrtF32 f) (plain (lateRRR Rows.fsqrtF32 f false (fnFsqrt f32 f.rm.val))) s

/-- FSQRT_F16 (10 R154 to R158). -/
def execFsqrtF16 (f : RRR) (s : State) : Result := laneWord (.rrr 0x0C3 Rows.fsqrtF16 f) (plain (lateRRR Rows.fsqrtF16 f false (fnFsqrt f16 f.rm.val))) s

/-- FRCP (10 R154 to R158). -/
def execFrcp (f : RRR) (s : State) : Result := laneWord (.rrr 0x0C4 Rows.frcp f) (plain (lateRRR Rows.frcp f false (fnOne frcp))) s

/-- FRSQ (10 R154 to R158). -/
def execFrsq (f : RRR) (s : State) : Result := laneWord (.rrr 0x0C5 Rows.frsq f) (plain (lateRRR Rows.frsq f false (fnOne frsq))) s

/-- FEXP2 (10 R154 to R158). -/
def execFexp2 (f : RRR) (s : State) : Result := laneWord (.rrr 0x0C6 Rows.fexp2 f) (plain (lateRRR Rows.fexp2 f false (fnOne fexp2))) s

/-- FLOG2 (10 R154 to R158). -/
def execFlog2 (f : RRR) (s : State) : Result := laneWord (.rrr 0x0C7 Rows.flog2 f) (plain (lateRRR Rows.flog2 f false (fnOne flog2))) s

/-- FSIN (10 R154 to R158). -/
def execFsin (f : RRR) (s : State) : Result := laneWord (.rrr 0x0C8 Rows.fsin f) (plain (lateRRR Rows.fsin f false (fnOne (fsinCos false)))) s

/-- FCOS (10 R154 to R158). -/
def execFcos (f : RRR) (s : State) : Result := laneWord (.rrr 0x0C9 Rows.fcos f) (plain (lateRRR Rows.fcos f false (fnOne (fsinCos true)))) s

/-- FRND_F32 (10 R154 to R158). -/
def execFrndF32 (f : RRR) (s : State) : Result := laneWord (.rrr 0x0CA Rows.frndF32 f) (plain (lateRRR Rows.frndF32 f false (fnFrnd f32 false f.rm.val))) s

/-- FRND_F16X2 (10 R154 to R158). -/
def execFrndF16x2 (f : RRR) (s : State) : Result := laneWord (.rrr 0x0CB Rows.frndF16x2 f) (plain (lateRRR Rows.frndF16x2 f false (fnFrnd f16 true f.rm.val))) s

/-- FRND_BF16X2 (10 R154 to R158). -/
def execFrndBf16x2 (f : RRR) (s : State) : Result := laneWord (.rrr 0x0CC Rows.frndBf16x2 f) (plain (lateRRR Rows.frndBf16x2 f false (fnFrnd bf16 true f.rm.val))) s

/-- CVT_F32_S32 (10 R154 to R158). -/
def execCvtF32S32 (f : RRR) (s : State) : Result := laneWord (.rrr 0x0CD Rows.cvtF32S32 f) (plain (lateRRR Rows.cvtF32S32 f false (fnFromInt f32 S f.rm.val))) s

/-- CVT_F32_N32 (10 R154 to R158). -/
def execCvtF32N32 (f : RRR) (s : State) : Result := laneWord (.rrr 0x0CE Rows.cvtF32N32 f) (plain (lateRRR Rows.cvtF32N32 f false (fnFromInt f32 U f.rm.val))) s

/-- CVT_S32_F32 (10 R154 to R158). -/
def execCvtS32F32 (f : RRR) (s : State) : Result := laneWord (.rrr 0x0CF Rows.cvtS32F32 f) (plain (lateRRR Rows.cvtS32F32 f false (fnToInt 32 (minS 32) (maxS 32) f.rm.val))) s

/-- CVT_N32_F32 (10 R154 to R158). -/
def execCvtN32F32 (f : RRR) (s : State) : Result := laneWord (.rrr 0x0D0 Rows.cvtN32F32 f) (plain (lateRRR Rows.cvtN32F32 f false (fnToInt 32 0 (2 ^ 32 - 1) f.rm.val))) s

/-- CVT_F16_F32 (10 R154 to R158). -/
def execCvtF16F32 (f : RRR) (s : State) : Result := laneWord (.rrr 0x0D1 Rows.cvtF16F32 f) (plain (lateRRR Rows.cvtF16F32 f false (fnConvert f16 f32 f.rm.val))) s

/-- CVT_F32_F16 (10 R154 to R158). -/
def execCvtF32F16 (f : RRR) (s : State) : Result := laneWord (.rrr 0x0D2 Rows.cvtF32F16 f) (plain (lateRRR Rows.cvtF32F16 f false (fnWiden f16))) s

/-- CVT_BF16_F32 (10 R154 to R158). -/
def execCvtBf16F32 (f : RRR) (s : State) : Result := laneWord (.rrr 0x0D3 Rows.cvtBf16F32 f) (plain (lateRRR Rows.cvtBf16F32 f false (fnConvert bf16 f32 f.rm.val))) s

/-- CVT_F32_BF16 (10 R154 to R158). -/
def execCvtF32Bf16 (f : RRR) (s : State) : Result := laneWord (.rrr 0x0D4 Rows.cvtF32Bf16 f) (plain (lateRRR Rows.cvtF32Bf16 f false (fnWiden bf16))) s

/-- CVT_F16X2_F32 (10 R154 to R158). -/
def execCvtF16x2F32 (f : RRR) (s : State) : Result := laneWord (.rrr 0x0D5 Rows.cvtF16x2F32 f) (plain (lateRRR Rows.cvtF16x2F32 f false (fnPair f16 f.rm.val))) s

/-- CVT_BF16X2_F32 (10 R154 to R158). -/
def execCvtBf16x2F32 (f : RRR) (s : State) : Result := laneWord (.rrr 0x0D6 Rows.cvtBf16x2F32 f) (plain (lateRRR Rows.cvtBf16x2F32 f false (fnPair bf16 f.rm.val))) s

/-- CVT_F32_S64 (10 R154 to R158). -/
def execCvtF32S64 (f : RRR) (s : State) : Result := laneWord (.rrr 0x0D7 Rows.cvtF32S64 f) (plain (lateRRR Rows.cvtF32S64 f false (fnFromInt f32 (toSigned 64) f.rm.val))) s

/-- CVT_S64_F32 (10 R154 to R158). -/
def execCvtS64F32 (f : RRR) (s : State) : Result := laneWord (.rrr 0x0D8 Rows.cvtS64F32 f) (plain (lateRRR Rows.cvtS64F32 f false (fnToInt 64 (minS 64) (maxS 64) f.rm.val))) s

/-- CVT_F16_BF16 (10 R154 to R158). -/
def execCvtF16Bf16 (f : RRR) (s : State) : Result := laneWord (.rrr 0x0D9 Rows.cvtF16Bf16 f) (plain (lateRRR Rows.cvtF16Bf16 f false (fnConvert f16 bf16 f.rm.val))) s

/-- CVT_BF16_F16 (10 R154 to R158). -/
def execCvtBf16F16 (f : RRR) (s : State) : Result := laneWord (.rrr 0x0DA Rows.cvtBf16F16 f) (plain (lateRRR Rows.cvtBf16F16 f false (fnConvert bf16 f16 f.rm.val))) s

/-- CVT_F16_S32 (10 R154 to R158). -/
def execCvtF16S32 (f : RRR) (s : State) : Result := laneWord (.rrr 0x0DB Rows.cvtF16S32 f) (plain (lateRRR Rows.cvtF16S32 f false (fnFromInt f16 S f.rm.val))) s

/-- FSPC_COMPLETE: an FSPC word in flight completes; its result and flags land, and its counters fall (10 R148). -/
def execFspcComplete (gk op : Nat) (s : State) : Result := s.happens <|
  match (s.group gk).op? op with
  | some o =>
    (match o.kind with
     | .value ws fl false => some (s.landValue gk o ws fl)
     | _ => none)
  | none => none

end Sys2Proof.Machine
end

