-- ==== Sys2Proof/Machine/Dispatch.lean ====
section
/-! DEFINITION. One arm for every constructor of Instr, each one direct call of its meaning. -/

namespace Sys2Proof.Machine

def exec (i : Instr) (s : State) : Host.Outcome State Fault Refusal :=
  match i with
  | .powerOn b => Sys2Proof.Machine.execPowerOn b s
  | .coldReset => Sys2Proof.Machine.execColdReset s
  | .thermalAlarm die temp => Sys2Proof.Machine.execThermalAlarm die temp s
  | .thermalShutdown die temp => Sys2Proof.Machine.execThermalShutdown die temp s
  | .fwStage => Sys2Proof.Machine.execFwStage s
  | .fwStageComplete readOk => Sys2Proof.Machine.execFwStageComplete readOk s
  | .fwCommit => Sys2Proof.Machine.execFwCommit s
  | .fwCommitPoint => Sys2Proof.Machine.execFwCommitPoint s
  | .fwDiscard => Sys2Proof.Machine.execFwDiscard s
  | .attestationQuote => Sys2Proof.Machine.execAttestationQuote s
  | .gtsRead half => Sys2Proof.Machine.execGtsRead half s
  | .registerWrite off bytes val => Sys2Proof.Machine.execRegisterWrite off bytes val s
  | .feedEnable f ctl => Sys2Proof.Machine.execFeedEnable f ctl s
  | .feedDisable f => Sys2Proof.Machine.execFeedDisable f s
  | .feedTailWrite f t readable => Sys2Proof.Machine.execFeedTailWrite f t readable s
  | .feedTailRead f => Sys2Proof.Machine.execFeedTailRead f s
  | .feedRestart f => Sys2Proof.Machine.execFeedRestart f s
  | .feedEntryDispatch f => Sys2Proof.Machine.execFeedEntryDispatch f s
  | .workRecordAppend f => Sys2Proof.Machine.execWorkRecordAppend f s
  | .commandLinkCommand leaf down take cmd => Sys2Proof.Machine.execCommandLinkCommand leaf down take cmd s
  | .teamPlace cluster grid => Sys2Proof.Machine.execTeamPlace cluster grid s
  | .clusterSteal cluster grid => Sys2Proof.Machine.execClusterSteal cluster grid s
  | .dieSteal die grid => Sys2Proof.Machine.execDieSteal die grid s
  | .grantServe core => Sys2Proof.Machine.execGrantServe core s
  | .windowTimeout w => Sys2Proof.Machine.execWindowTimeout w s
  | .taskRun core => Sys2Proof.Machine.execTaskRun core s
  | .taskSteal core => Sys2Proof.Machine.execTaskSteal core s
  | .messageArrive src => Sys2Proof.Machine.execMessageArrive src s
  | .handlerRun core => Sys2Proof.Machine.execHandlerRun core s
  | .messageRetry core => Sys2Proof.Machine.execMessageRetry core s
  | .chuteRemotePushArrive t q => Sys2Proof.Machine.execChuteRemotePushArrive t q s
  | .chuteFreeNotice t q => Sys2Proof.Machine.execChuteFreeNotice t q s
  | .chuteForward t q => Sys2Proof.Machine.execChuteForward t q s
  | .chutePopNotice t q => Sys2Proof.Machine.execChutePopNotice t q s
  | .chuteWithdraw t q => Sys2Proof.Machine.execChuteWithdraw t q s
  | .chuteCloseNotice t q => Sys2Proof.Machine.execChuteCloseNotice t q s
  | .clauseFetchComplete gk lane => Sys2Proof.Machine.execClauseFetchComplete gk lane s
  | .issueOpportunity core port => Sys2Proof.Machine.execIssueOpportunity core port s
  | .parkExpire gk lane => Sys2Proof.Machine.execParkExpire gk lane s
  | .yieldExpire gk lane => Sys2Proof.Machine.execYieldExpire gk lane s
  | .divideComplete gk op => Sys2Proof.Machine.execDivideComplete gk op s
  | .fspcComplete gk op => Sys2Proof.Machine.execFspcComplete gk op s
  | .memsComplete gk op => Sys2Proof.Machine.execMemsComplete gk op s
  | .waitsWake gk op => Sys2Proof.Machine.execWaitsWake gk op s
  | .xtldComplete gk op core => Sys2Proof.Machine.execXtldComplete gk op core s
  | .fenceiComplete gk op => Sys2Proof.Machine.execFenceiComplete gk op s
  | .sealComplete gk op => Sys2Proof.Machine.execSealComplete gk op s
  | .engineRequestResponse cmd ord a => Sys2Proof.Machine.execEngineRequestResponse cmd ord a s
  | .signalUpdate cmd a => Sys2Proof.Machine.execSignalUpdate cmd a s
  | .collContribution cmd a => Sys2Proof.Machine.execCollContribution cmd a s
  | .ownerTranslate r => Sys2Proof.Machine.execOwnerTranslate r s
  | .requestTimeout cmd ord => Sys2Proof.Machine.execRequestTimeout cmd ord s
  | .pageUnmap die part off pte => Sys2Proof.Machine.execPageUnmap die part off pte s
  | .purge id receiver => Sys2Proof.Machine.execPurge id receiver s
  | .purgeComplete id => Sys2Proof.Machine.execPurgeComplete id s
  | .flitReceive link flit => Sys2Proof.Machine.execFlitReceive link flit s
  | .replayRequest link seq => Sys2Proof.Machine.execReplayRequest link seq s
  | .linkDown link => Sys2Proof.Machine.execLinkDown link s
  | .haltReceive gk => Sys2Proof.Machine.execHaltReceive gk s
  | .handlerStart t => Sys2Proof.Machine.execHandlerStart t s
  | .launchEnd grid => Sys2Proof.Machine.execLaunchEnd grid s
  | .teamSave t => Sys2Proof.Machine.execTeamSave t s
  | .pageMapped page served => Sys2Proof.Machine.execPageMapped page served s
  | .teamRestore t => Sys2Proof.Machine.execTeamRestore t s
  | .timeSliceExpire grid => Sys2Proof.Machine.execTimeSliceExpire grid s
  | .spatialPreempt cores => Sys2Proof.Machine.execSpatialPreempt cores s
  | .spatialWindowExpire => Sys2Proof.Machine.execSpatialWindowExpire s
  | .groupRetire gk => Sys2Proof.Machine.execGroupRetire gk s
  | .launchComplete grid => Sys2Proof.Machine.execLaunchComplete grid s
  | .reportRingControl off bytes val => Sys2Proof.Machine.execReportRingControl off bytes val s
  | .dbgAttachWrite val => Sys2Proof.Machine.execDbgAttachWrite val s
  | .dbgStopTeam word => Sys2Proof.Machine.execDbgStopTeam word s
  | .dbgStopCluster word => Sys2Proof.Machine.execDbgStopCluster word s
  | .dbgStopDie word => Sys2Proof.Machine.execDbgStopDie word s
  | .dbgStopDevice word => Sys2Proof.Machine.execDbgStopDevice word s
  | .dbgResumeTeam word => Sys2Proof.Machine.execDbgResumeTeam word s
  | .dbgResumeCluster word => Sys2Proof.Machine.execDbgResumeCluster word s
  | .dbgResumeDie word => Sys2Proof.Machine.execDbgResumeDie word s
  | .dbgResumeDevice word => Sys2Proof.Machine.execDbgResumeDevice word s
  | .dbgStep n => Sys2Proof.Machine.execDbgStep n s
  | .dbgStepCancel => Sys2Proof.Machine.execDbgStepCancel s
  | .dbgDump addr => Sys2Proof.Machine.execDbgDump addr s
  | .dumpComplete ok => Sys2Proof.Machine.execDumpComplete ok s
  | .breakpointSet k half val => Sys2Proof.Machine.execBreakpointSet k half val s
  | .watchpointSet k val => Sys2Proof.Machine.execWatchpointSet k val s
  | .dbgTrcWrite val => Sys2Proof.Machine.execDbgTrcWrite val s
  | .traceSample core port => Sys2Proof.Machine.execTraceSample core port s
  | .roceRequestWhileHalted req => Sys2Proof.Machine.execRoceRequestWhileHalted req s
  | .nvmeofKeepAlive conn => Sys2Proof.Machine.execNvmeofKeepAlive conn s
  | .mailboxWhileHalted req => Sys2Proof.Machine.execMailboxWhileHalted req s
  | .eccCorrected u => Sys2Proof.Machine.execEccCorrected u s
  | .eccUncorrectable u => Sys2Proof.Machine.execEccUncorrectable u s
  | .channelMigrate die chan => Sys2Proof.Machine.execChannelMigrate die chan s
  | .scrub => Sys2Proof.Machine.execScrub s
  | .healthRecordUpdate die => Sys2Proof.Machine.execHealthRecordUpdate die s
  | .nop f => Sys2Proof.Machine.execNop f s
  | .bra f => Sys2Proof.Machine.execBra f s
  | .brp f => Sys2Proof.Machine.execBrp f s
  | .brrZ f => Sys2Proof.Machine.execBrrZ f s
  | .brrNz f => Sys2Proof.Machine.execBrrNz f s
  | .brrLt f => Sys2Proof.Machine.execBrrLt f s
  | .brrGe f => Sys2Proof.Machine.execBrrGe f s
  | .loop f => Sys2Proof.Machine.execLoop f s
  | .call f => Sys2Proof.Machine.execCall f s
  | .calli f => Sys2Proof.Machine.execCalli f s
  | .ret f => Sys2Proof.Machine.execRet f s
  | .jmpi f => Sys2Proof.Machine.execJmpi f s
  | .brt f => Sys2Proof.Machine.execBrt f s
  | .exit f => Sys2Proof.Machine.execExit f s
  | .park f => Sys2Proof.Machine.execPark f s
  | .yield f => Sys2Proof.Machine.execYield f s
  | .add f => Sys2Proof.Machine.execAdd f s
  | .sub f => Sys2Proof.Machine.execSub f s
  | .addc f => Sys2Proof.Machine.execAddc f s
  | .subb f => Sys2Proof.Machine.execSubb f s
  | .neg f => Sys2Proof.Machine.execNeg f s
  | .abs f => Sys2Proof.Machine.execAbs f s
  | .minS f => Sys2Proof.Machine.execMinS f s
  | .minN f => Sys2Proof.Machine.execMinN f s
  | .maxS f => Sys2Proof.Machine.execMaxS f s
  | .maxN f => Sys2Proof.Machine.execMaxN f s
  | .and f => Sys2Proof.Machine.execAnd f s
  | .or f => Sys2Proof.Machine.execOr f s
  | .xor f => Sys2Proof.Machine.execXor f s
  | .andn f => Sys2Proof.Machine.execAndn f s
  | .not f => Sys2Proof.Machine.execNot f s
  | .shl f => Sys2Proof.Machine.execShl f s
  | .shr f => Sys2Proof.Machine.execShr f s
  | .sar f => Sys2Proof.Machine.execSar f s
  | .rol f => Sys2Proof.Machine.execRol f s
  | .clz f => Sys2Proof.Machine.execClz f s
  | .popc f => Sys2Proof.Machine.execPopc f s
  | .brev f => Sys2Proof.Machine.execBrev f s
  | .sel f => Sys2Proof.Machine.execSel f s
  | .mov f => Sys2Proof.Machine.execMov f s
  | .movi f => Sys2Proof.Machine.execMovi f s
  | .lea f => Sys2Proof.Machine.execLea f s
  | .cmpS f => Sys2Proof.Machine.execCmpS f s
  | .cmpN f => Sys2Proof.Machine.execCmpN f s
  | .iset f => Sys2Proof.Machine.execIset f s
  | .plog f => Sys2Proof.Machine.execPlog f s
  | .add64 f => Sys2Proof.Machine.execAdd64 f s
  | .sub64 f => Sys2Proof.Machine.execSub64 f s
  | .mul f => Sys2Proof.Machine.execMul f s
  | .mulhS f => Sys2Proof.Machine.execMulhS f s
  | .mulhN f => Sys2Proof.Machine.execMulhN f s
  | .mad f => Sys2Proof.Machine.execMad f s
  | .madhS f => Sys2Proof.Machine.execMadhS f s
  | .madhN f => Sys2Proof.Machine.execMadhN f s
  | .mul64S f => Sys2Proof.Machine.execMul64S f s
  | .mul64N f => Sys2Proof.Machine.execMul64N f s
  | .mad64S f => Sys2Proof.Machine.execMad64S f s
  | .mad64N f => Sys2Proof.Machine.execMad64N f s
  | .dot4Ss f => Sys2Proof.Machine.execDot4Ss f s
  | .dot4Nn f => Sys2Proof.Machine.execDot4Nn f s
  | .dot4Sn f => Sys2Proof.Machine.execDot4Sn f s
  | .dot2 f => Sys2Proof.Machine.execDot2 f s
  | .divS f => Sys2Proof.Machine.execDivS f s
  | .divN f => Sys2Proof.Machine.execDivN f s
  | .remS f => Sys2Proof.Machine.execRemS f s
  | .remN f => Sys2Proof.Machine.execRemN f s
  | .divrS f => Sys2Proof.Machine.execDivrS f s
  | .divrN f => Sys2Proof.Machine.execDivrN f s
  | .div64S f => Sys2Proof.Machine.execDiv64S f s
  | .div64N f => Sys2Proof.Machine.execDiv64N f s
  | .bfxS f => Sys2Proof.Machine.execBfxS f s
  | .bfxN f => Sys2Proof.Machine.execBfxN f s
  | .bfi f => Sys2Proof.Machine.execBfi f s
  | .prmb f => Sys2Proof.Machine.execPrmb f s
  | .unpk3 f => Sys2Proof.Machine.execUnpk3 f s
  | .pack3 f => Sys2Proof.Machine.execPack3 f s
  | .tacc f => Sys2Proof.Machine.execTacc f s
  | .satnS f => Sys2Proof.Machine.execSatnS f s
  | .satnN f => Sys2Proof.Machine.execSatnN f s
  | .pk16 f => Sys2Proof.Machine.execPk16 f s
  | .upk8S f => Sys2Proof.Machine.execUpk8S f s
  | .upk8N f => Sys2Proof.Machine.execUpk8N f s
  | .upk4S f => Sys2Proof.Machine.execUpk4S f s
  | .upk4N f => Sys2Proof.Machine.execUpk4N f s
  | .pkb f => Sys2Proof.Machine.execPkb f s
  | .msk f => Sys2Proof.Machine.execMsk f s
  | .faddF32 f => Sys2Proof.Machine.execFaddF32 f s
  | .faddF16x2 f => Sys2Proof.Machine.execFaddF16x2 f s
  | .faddBf16x2 f => Sys2Proof.Machine.execFaddBf16x2 f s
  | .fsubF32 f => Sys2Proof.Machine.execFsubF32 f s
  | .fsubF16x2 f => Sys2Proof.Machine.execFsubF16x2 f s
  | .fsubBf16x2 f => Sys2Proof.Machine.execFsubBf16x2 f s
  | .fmulF32 f => Sys2Proof.Machine.execFmulF32 f s
  | .fmulF16x2 f => Sys2Proof.Machine.execFmulF16x2 f s
  | .fmulBf16x2 f => Sys2Proof.Machine.execFmulBf16x2 f s
  | .fmaF32 f => Sys2Proof.Machine.execFmaF32 f s
  | .fmaF16x2 f => Sys2Proof.Machine.execFmaF16x2 f s
  | .fmaBf16x2 f => Sys2Proof.Machine.execFmaBf16x2 f s
  | .fminF32 f => Sys2Proof.Machine.execFminF32 f s
  | .fminF16x2 f => Sys2Proof.Machine.execFminF16x2 f s
  | .fminBf16x2 f => Sys2Proof.Machine.execFminBf16x2 f s
  | .fmaxF32 f => Sys2Proof.Machine.execFmaxF32 f s
  | .fmaxF16x2 f => Sys2Proof.Machine.execFmaxF16x2 f s
  | .fmaxBf16x2 f => Sys2Proof.Machine.execFmaxBf16x2 f s
  | .fcmpF32 f => Sys2Proof.Machine.execFcmpF32 f s
  | .fcmpF16x2 f => Sys2Proof.Machine.execFcmpF16x2 f s
  | .fcmpBf16x2 f => Sys2Proof.Machine.execFcmpBf16x2 f s
  | .fsetF32 f => Sys2Proof.Machine.execFsetF32 f s
  | .fsetF16x2 f => Sys2Proof.Machine.execFsetF16x2 f s
  | .fsetBf16x2 f => Sys2Proof.Machine.execFsetBf16x2 f s
  | .fclsF32 f => Sys2Proof.Machine.execFclsF32 f s
  | .fclsF16x2 f => Sys2Proof.Machine.execFclsF16x2 f s
  | .fclsBf16x2 f => Sys2Proof.Machine.execFclsBf16x2 f s
  | .fsel f => Sys2Proof.Machine.execFsel f s
  | .fdot2F16 f => Sys2Proof.Machine.execFdot2F16 f s
  | .fdot2Bf16 f => Sys2Proof.Machine.execFdot2Bf16 f s
  | .fscl f => Sys2Proof.Machine.execFscl f s
  | .ffrc f => Sys2Proof.Machine.execFfrc f s
  | .fdivF32 f => Sys2Proof.Machine.execFdivF32 f s
  | .fdivF16 f => Sys2Proof.Machine.execFdivF16 f s
  | .fsqrtF32 f => Sys2Proof.Machine.execFsqrtF32 f s
  | .fsqrtF16 f => Sys2Proof.Machine.execFsqrtF16 f s
  | .frcp f => Sys2Proof.Machine.execFrcp f s
  | .frsq f => Sys2Proof.Machine.execFrsq f s
  | .fexp2 f => Sys2Proof.Machine.execFexp2 f s
  | .flog2 f => Sys2Proof.Machine.execFlog2 f s
  | .fsin f => Sys2Proof.Machine.execFsin f s
  | .fcos f => Sys2Proof.Machine.execFcos f s
  | .frndF32 f => Sys2Proof.Machine.execFrndF32 f s
  | .frndF16x2 f => Sys2Proof.Machine.execFrndF16x2 f s
  | .frndBf16x2 f => Sys2Proof.Machine.execFrndBf16x2 f s
  | .cvtF32S32 f => Sys2Proof.Machine.execCvtF32S32 f s
  | .cvtF32N32 f => Sys2Proof.Machine.execCvtF32N32 f s
  | .cvtS32F32 f => Sys2Proof.Machine.execCvtS32F32 f s
  | .cvtN32F32 f => Sys2Proof.Machine.execCvtN32F32 f s
  | .cvtF16F32 f => Sys2Proof.Machine.execCvtF16F32 f s
  | .cvtF32F16 f => Sys2Proof.Machine.execCvtF32F16 f s
  | .cvtBf16F32 f => Sys2Proof.Machine.execCvtBf16F32 f s
  | .cvtF32Bf16 f => Sys2Proof.Machine.execCvtF32Bf16 f s
  | .cvtF16x2F32 f => Sys2Proof.Machine.execCvtF16x2F32 f s
  | .cvtBf16x2F32 f => Sys2Proof.Machine.execCvtBf16x2F32 f s
  | .cvtF32S64 f => Sys2Proof.Machine.execCvtF32S64 f s
  | .cvtS64F32 f => Sys2Proof.Machine.execCvtS64F32 f s
  | .cvtF16Bf16 f => Sys2Proof.Machine.execCvtF16Bf16 f s
  | .cvtBf16F16 f => Sys2Proof.Machine.execCvtBf16F16 f s
  | .cvtF16S32 f => Sys2Proof.Machine.execCvtF16S32 f s
  | .xtld f => Sys2Proof.Machine.execXtld f s
  | .xtrl f => Sys2Proof.Machine.execXtrl f s
  | .xrst f => Sys2Proof.Machine.execXrst f s
  | .xdg f => Sys2Proof.Machine.execXdg f s
  | .xdg2 f => Sys2Proof.Machine.execXdg2 f s
  | .xdu f => Sys2Proof.Machine.execXdu f s
  | .xfin f => Sys2Proof.Machine.execXfin f s
  | .xcmp f => Sys2Proof.Machine.execXcmp f s
  | .xstr f => Sys2Proof.Machine.execXstr f s
  | .xstw f => Sys2Proof.Machine.execXstw f s
  | .xlen f => Sys2Proof.Machine.execXlen f s
  | .xqry f => Sys2Proof.Machine.execXqry f s
  | .gsumI32 f => Sys2Proof.Machine.execGsumI32 f s
  | .gsumF32 f => Sys2Proof.Machine.execGsumF32 f s
  | .gsumS64 f => Sys2Proof.Machine.execGsumS64 f s
  | .gminS f => Sys2Proof.Machine.execGminS f s
  | .gminN f => Sys2Proof.Machine.execGminN f s
  | .gminF f => Sys2Proof.Machine.execGminF f s
  | .gmaxS f => Sys2Proof.Machine.execGmaxS f s
  | .gmaxN f => Sys2Proof.Machine.execGmaxN f s
  | .gmaxF f => Sys2Proof.Machine.execGmaxF f s
  | .gand f => Sys2Proof.Machine.execGand f s
  | .gor f => Sys2Proof.Machine.execGor f s
  | .gxor f => Sys2Proof.Machine.execGxor f s
  | .gscanI32Inc f => Sys2Proof.Machine.execGscanI32Inc f s
  | .gscanI32Exc f => Sys2Proof.Machine.execGscanI32Exc f s
  | .gscanF32Inc f => Sys2Proof.Machine.execGscanF32Inc f s
  | .gscanF32Exc f => Sys2Proof.Machine.execGscanF32Exc f s
  | .gsegI32 f => Sys2Proof.Machine.execGsegI32 f s
  | .gsegF32 f => Sys2Proof.Machine.execGsegF32 f s
  | .gbcast f => Sys2Proof.Machine.execGbcast f s
  | .gshuf f => Sys2Proof.Machine.execGshuf f s
  | .gshufx f => Sys2Proof.Machine.execGshufx f s
  | .gvote f => Sys2Proof.Machine.execGvote f s
  | .gcnt f => Sys2Proof.Machine.execGcnt f s
  | .gelect f => Sys2Proof.Machine.execGelect f s
  | .grank f => Sys2Proof.Machine.execGrank f s
  | .gsync f => Sys2Proof.Machine.execGsync f s
  | .grow f => Sys2Proof.Machine.execGrow f s
  | .shrink f => Sys2Proof.Machine.execShrink f s
  | .ld8s f => Sys2Proof.Machine.execLd8s f s
  | .ld8n f => Sys2Proof.Machine.execLd8n f s
  | .ld16s f => Sys2Proof.Machine.execLd16s f s
  | .ld16n f => Sys2Proof.Machine.execLd16n f s
  | .ld32 f => Sys2Proof.Machine.execLd32 f s
  | .ld64 f => Sys2Proof.Machine.execLd64 f s
  | .ld128 f => Sys2Proof.Machine.execLd128 f s
  | .st8 f => Sys2Proof.Machine.execSt8 f s
  | .st16 f => Sys2Proof.Machine.execSt16 f s
  | .st32 f => Sys2Proof.Machine.execSt32 f s
  | .st64 f => Sys2Proof.Machine.execSt64 f s
  | .st128 f => Sys2Proof.Machine.execSt128 f s
  | .atom f => Sys2Proof.Machine.execAtom f s
  | .atom64 f => Sys2Proof.Machine.execAtom64 f s
  | .cas f => Sys2Proof.Machine.execCas f s
  | .cas64 f => Sys2Proof.Machine.execCas64 f s
  | .red f => Sys2Proof.Machine.execRed f s
  | .red64 f => Sys2Proof.Machine.execRed64 f s
  | .ldsp f => Sys2Proof.Machine.execLdsp f s
  | .stsp f => Sys2Proof.Machine.execStsp f s
  | .brld f => Sys2Proof.Machine.execBrld f s
  | .chcfg f => Sys2Proof.Machine.execChcfg f s
  | .chrd f => Sys2Proof.Machine.execChrd f s
  | .chwr f => Sys2Proof.Machine.execChwr f s
  | .chcnt f => Sys2Proof.Machine.execChcnt f s
  | .chcls f => Sys2Proof.Machine.execChcls f s
  | .cpy f => Sys2Proof.Machine.execCpy f s
  | .cpy2 f => Sys2Proof.Machine.execCpy2 f s
  | .cpyx f => Sys2Proof.Machine.execCpyx f s
  | .cpyt f => Sys2Proof.Machine.execCpyt f s
  | .mcast f => Sys2Proof.Machine.execMcast f s
  | .fill f => Sys2Proof.Machine.execFill f s
  | .gath f => Sys2Proof.Machine.execGath f s
  | .gath64 f => Sys2Proof.Machine.execGath64 f s
  | .scat f => Sys2Proof.Machine.execScat f s
  | .scata f => Sys2Proof.Machine.execScata f s
  | .scata64 f => Sys2Proof.Machine.execScata64 f s
  | .sump f => Sys2Proof.Machine.execSump f s
  | .sumpw f => Sys2Proof.Machine.execSumpw f s
  | .sigAdd f => Sys2Proof.Machine.execSigAdd f s
  | .sigSet f => Sys2Proof.Machine.execSigSet f s
  | .swait f => Sys2Proof.Machine.execSwait f s
  | .coll f => Sys2Proof.Machine.execColl f s
  | .ccan f => Sys2Proof.Machine.execCcan f s
  | .cstat f => Sys2Proof.Machine.execCstat f s
  | .waitc f => Sys2Proof.Machine.execWaitc f s
  | .rdc f => Sys2Proof.Machine.execRdc f s
  | .probe f => Sys2Proof.Machine.execProbe f s
  | .ecan f => Sys2Proof.Machine.execEcan f s
  | .fencee f => Sys2Proof.Machine.execFencee f s
  | .ttset f => Sys2Proof.Machine.execTtset f s
  | .ttget f => Sys2Proof.Machine.execTtget f s
  | .mstart f => Sys2Proof.Machine.execMstart f s
  | .mstop f => Sys2Proof.Machine.execMstop f s
  | .mstat f => Sys2Proof.Machine.execMstat f s
  | .mmac f => Sys2Proof.Machine.execMmac f s
  | .mzero f => Sys2Proof.Machine.execMzero f s
  | .mdrain f => Sys2Proof.Machine.execMdrain f s
  | .mbara f => Sys2Proof.Machine.execMbara f s
  | .mbarw f => Sys2Proof.Machine.execMbarw f s
  | .mloop f => Sys2Proof.Machine.execMloop f s
  | .mloopEnd f => Sys2Proof.Machine.execMloopEnd f s
  | .mjmp f => Sys2Proof.Machine.execMjmp f s
  | .mend f => Sys2Proof.Machine.execMend f s
  | .mred f => Sys2Proof.Machine.execMred f s
  | .mldacc f => Sys2Proof.Machine.execMldacc f s
  | .mstacc f => Sys2Proof.Machine.execMstacc f s
  | .msel f => Sys2Proof.Machine.execMsel f s
  | .mscl f => Sys2Proof.Machine.execMscl f s
  | .mwaitc f => Sys2Proof.Machine.execMwaitc f s
  | .mnop f => Sys2Proof.Machine.execMnop f s
  | .fence f => Sys2Proof.Machine.execFence f s
  | .bar f => Sys2Proof.Machine.execBar f s
  | .bara f => Sys2Proof.Machine.execBara f s
  | .barw f => Sys2Proof.Machine.execBarw f s
  | .bari f => Sys2Proof.Machine.execBari f s
  | .gbara f => Sys2Proof.Machine.execGbara f s
  | .gbarw f => Sys2Proof.Machine.execGbarw f s
  | .sealRange f => Sys2Proof.Machine.execSealRange f s
  | .unsealEntry f => Sys2Proof.Machine.execUnsealEntry f s
  | .waits f => Sys2Proof.Machine.execWaits f s
  | .fencei f => Sys2Proof.Machine.execFencei f s
  | .srd f => Sys2Proof.Machine.execSrd f s
  | .swr f => Sys2Proof.Machine.execSwr f s
  | .trap f => Sys2Proof.Machine.execTrap f s
  | .brk f => Sys2Proof.Machine.execBrk f s
  | .reth f => Sys2Proof.Machine.execReth f s
  | .launch f => Sys2Proof.Machine.execLaunch f s
  | .launchw f => Sys2Proof.Machine.execLaunchw f s
  | .task f => Sys2Proof.Machine.execTask f s
  | .taskp f => Sys2Proof.Machine.execTaskp f s
  | .tasks f => Sys2Proof.Machine.execTasks f s
  | .amsg f => Sys2Proof.Machine.execAmsg f s
  | .amsgr f => Sys2Proof.Machine.execAmsgr f s
  | .region f => Sys2Proof.Machine.execRegion f s
  | .perf f => Sys2Proof.Machine.execPerf f s
  | .stamp f => Sys2Proof.Machine.execStamp f s
  | .wpset f => Sys2Proof.Machine.execWpset f s
  | .wpclr f => Sys2Proof.Machine.execWpclr f s
  | .hint f => Sys2Proof.Machine.execHint f s
  | .pswr f => Sys2Proof.Machine.execPswr f s
  | .pctx f => Sys2Proof.Machine.execPctx f s
  | .linkRetrainComplete link lane => Sys2Proof.Machine.execLinkRetrainComplete link lane s
  | .partReportedAbsent n => Sys2Proof.Machine.execPartReportedAbsent n s

end Sys2Proof.Machine
end

