-- ==== Sys2Proof/Machine/Step.lean ====
section
/-! DEFINITION. One step of the machine: the next lane word of the issue step in progress, its end, the next stream word, or the next entry of the
schedule; and a word placed where the next step fetches. -/

namespace Sys2Proof.Machine

noncomputable section

/-- The first of a list of events that can happen and changes the state. -/
def firstEvent : List Instr → State → Option State
  | [], _ => none
  | i :: r, s =>
    match exec i s with
    | .next t => if t = s then firstEvent r s else some t
    | _ => firstEvent r s

/-- The next word of an issue step in progress, or its end (07 R118). -/
def stepIssue (st : IssueStep) (s : State) : Host.Outcome State Fault Refusal :=
  match st.todo with
  | [] => .next (endIssueStep st s)
  | x :: _ =>
    match decodeWord x.word with
    | .ok i => exec i s
    | .error e => if st.checked then .fault .wordNotDecoded else .next (s.undecodedTrap st x e)

/-- The next word of a team's stream (17 R247). -/
def stepStream (tk : Nat) (s : State) : Host.Outcome State Fault Refusal :=
  match s.streamAt tk with
  | none => .next (s.streamLost tk)
  | some w =>
    match decodeWord w with
    | .ok i => if isStreamWord w then exec i s else .next (s.streamIllegal tk)
    | .error _ => .next (s.streamIllegal tk)

/-- The next entry of the schedule, or what the agent does without one (log 1). -/
def stepIdle (s : State) : Host.Outcome State Fault Refusal :=
  match s.schedule with
  | [] => (match firstEvent s.candidates s with | some t => .next t | none => .next { s with schedule := s.idleEntries })
  | .ev i :: r => exec i { s with schedule := r }
  | x :: r => .next (State.runEntry { s with schedule := r } x)

/-- One step of the machine. -/
def step (s : State) : Host.Outcome State Fault Refusal :=
  match s.turn with
  | .issue st => stepIssue st s
  | .stream tk => stepStream tk s
  | .idle => stepIdle s

end

/-- The state with the word whose low `nbits` bits are `w` placed where the next step fetches it (log 19). -/
def State.withFetchWord (s : State) (nbits w : Nat) : State := s.placeWord (w % 2 ^ nbits)

end Sys2Proof.Machine
end

