-- ==== Sys2Proof/Safety.lean ====
section
/-! DEFINITION. What counts as a safe run, and the words in which the statements speak about one step: where a word stands to be executed, and what
a step leaves unchanged. -/

namespace Sys2Proof.Machine

/-- What every step keeps: the byte memory of the part is in its canonical form. -/
def State.Inv (s : State) : Prop := s.mem.wf = true

/-- A run is safe as far as it is followed: every step answers a next state. -/
def State.Safe (s : State) : Prop := ∀ k : Nat, ∃ t : State, Host.Core.run Sys2Proof.core k s = .next t

/-! ## Where a word stands -/

/-- The word of lane `x` is the next of the issue step in progress `st`, whose checks have been made (07 R118, 02 R51 to R53). -/
def AtWord (s : State) (st : IssueStep) (x : StepLane) (rest : List StepLane) : Prop :=
  s.turn = .issue st ∧ st.todo = x :: rest ∧ st.checked = true

/-- The key of a lane of a step. -/
def stepLane (st : IssueStep) (x : StepLane) : Nat := laneKey st.group x.pos

/-- The guard of an instruction in a lane. -/
def GuardHolds (i : Instr) (s : State) (lk : Nat) : Prop := guardOn (s.lane lk) i.view = true

/-- No operand of an instruction is a chute. -/
def noChute (i : Instr) : Bool := (operandsOf i.view).all (fun o => match o with | .q _ => false | _ => true)

/-- The value of an operand that is no chute, read as `w` registers: z reads 0 (02 R44). -/
def operandVal (l : Lane) (o : Operand) (w : Nat) : Nat := match o with | .v n => l.regsVal n.val w | _ => 0

/-- The same for the operand of a slot; a field that the point does not use reads 0. -/
def slotVal (l : Lane) (sl : Slot) (o : Operand) : Nat := match sl with | .reg w _ _ _ => operandVal l o w | _ => 0

/-! ## What stays -/

/-- Nothing but one lane and the turn of the machine has changed. -/
def LaneOnly (lk : Nat) (s t : State) : Prop :=
  t = { s with turn := t.turn, lanes := t.lanes } ∧ ∀ k, k ≠ lk → t.lane k = s.lane k

/-- What of a lane no word that only computes or transfers touches: its liveness, counters, rounding mode, stepping flags, call depth, the mark of
its clause's entry and the time it may issue. -/
def LaneKept (l m : Lane) : Prop :=
  m.live = l.live ∧ m.c = l.c ∧ m.fprm = l.fprm ∧ m.xs = l.xs ∧ m.cd = l.cd ∧ m.entered = l.entered ∧ m.readyAt = l.readyAt
    ∧ m.badClause = l.badClause

/-- The registers, predicates and flags of a lane are as they were. -/
def ValuesKept (l m : Lane) : Prop := (∀ n, m.reg n = l.reg n) ∧ m.p = l.p ∧ m.fpflags = l.fpflags

/-- The step in progress has gone on to its next lane, and this lane has moved past its word (06 R107); beyond its values nothing else changed. -/
def Passed (st : IssueStep) (x : StepLane) (rest : List StepLane) (s t : State) : Prop :=
  t.turn = .issue { st with todo := rest } ∧ LaneOnly (stepLane st x) s t
    ∧ LaneKept (s.lane (stepLane st x)) (t.lane (stepLane st x)) ∧ (t.lane (stepLane st x)).block = .free
    ∧ (t.lane (stepLane st x)).pc = BitVec.ofNat 32 (x.pc + 8)

/-- The state in which the point of a word acts: the step has gone on to its next lane, and this lane has moved past the word (06 R107). -/
def movedOn (st : IssueStep) (x : StepLane) (rest : List StepLane) (s : State) : State :=
  ((s.setTurn (.issue { st with todo := rest })).updLane (stepLane st x) (fun l => { l with block := .free })).retire (stepLane st x) x.pc

/-- A transfer: as a word that is passed, but the lane stands at the target, outside any clause (02 R39, 06 R107). -/
def Transferred (target : Nat) (st : IssueStep) (x : StepLane) (rest : List StepLane) (s t : State) : Prop :=
  t.turn = .issue { st with todo := rest } ∧ LaneOnly (stepLane st x) s t
    ∧ LaneKept (s.lane (stepLane st x)) (t.lane (stepLane st x)) ∧ (t.lane (stepLane st x)).block = .free
    ∧ (t.lane (stepLane st x)).pc = BitVec.ofNat 32 target ∧ (t.lane (stepLane st x)).clause = none

/-- Every byte of the part, the flash and the attached memory, but host memory, reads as before. -/
def MemoryKept (s t : State) : Prop := ∀ a, a < 2 ^ 64 → t.mem.read a = s.mem.read a

/-- Every byte of memory outside the range of the part's own main memory, in which the translation tables lie, reads as before. -/
def OffTables (s t : State) : Prop := ∀ a, (a < 2 ^ 40 ∨ 2 ^ 44 ≤ a) → t.mem.read a = s.mem.read a

/-- Where a push of `n` bytes onto chute `q` by a lane is stored: the slot at the tail of a ring whose producer end is local, once the accesses that the push
releases are performed; before that, and for a remote producer, it stores nothing yet (11 R174). -/
def pushSlot (s : State) (lk q : Nat) : Option Nat :=
  let t := s.team (teamOf (lk / 32))
  match (t.chute q).desc with
  | some d =>
    if descPend d = 0 && s.released (lk / 32) s.serial then some (slotPhys t (t.chute q) d (t.chute q).elems.length) else none
  | none => none

/-- A record has landed in the slot that a chute keeps for it, to be popped from the next cycle, or in the outgoing element that waits for it; every other
byte below host memory reads as before (11 R174, R177). -/
def RecordLanded (tk q entry : Nat) (bytes : List Byte) (s t : State) : Prop :=
  let c := (s.team tk).chute q
  let mine (e : Element) : Bool := e.serial == entry && !e.landed
  ∀ d, c.desc = some d →
    (∀ k, c.elems.findIdx? mine = some k →
      (∀ i (h : i < bytes.length), slotPhys (s.team tk) c d k + i < 2 ^ 64 → t.mem.read (slotPhys (s.team tk) c d k + i) = bytes[i])
        ∧ (∀ b, b < 2 ^ 64 → (b < slotPhys (s.team tk) c d k ∨ slotPhys (s.team tk) c d k + bytes.length ≤ b) → t.mem.read b = s.mem.read b)
        ∧ ((t.team tk).chute q).elems = c.elems.map (fun e => if mine e then { e with landed := true, from_ := s.cycle + 1 } else e))
      ∧ (c.elems.findIdx? mine = none → MemoryKept s t
        ∧ (t.team tk).chute q = { c with arriving := c.arriving.map (fun p => if p.serial == entry && p.bytes.isEmpty then { p with bytes := bytes } else p) })

/-- The values, places and blocks of every lane but one are as they were. -/
def OthersStand (lk : Nat) (s t : State) : Prop :=
  ∀ k, k ≠ lk → ValuesKept (s.lane k) (t.lane k) ∧ (t.lane k).pc = (s.lane k).pc ∧ (t.lane k).live = (s.lane k).live

/-- An operation of a kind has entered flight for a word (02 R40, 11 R166): the group's only change of its operations; registers, predicates, flags,
memory, teams and every other lane and group are as they were. -/
def Issued (kind : OpKind) (space off : Nat) (st : IssueStep) (x : StepLane) (s t : State) : Prop :=
  (∃ o : LaneOp, (t.group st.group).ops = (s.group st.group).ops ++ [o] ∧ o.id = s.serial ∧ o.lane = stepLane st x ∧ o.pc = x.pc
      ∧ o.space = space ∧ o.off = off ∧ o.kind = kind)
    ∧ t.serial = s.serial + 1 ∧ ValuesKept (s.lane (stepLane st x)) (t.lane (stepLane st x)) ∧ t.mem = s.mem ∧ t.teams = s.teams
    ∧ t.cores = s.cores ∧ (∀ j, j ≠ st.group → t.group j = s.group j) ∧ (∀ j, j ≠ stepLane st x → t.lane j = s.lane j)

/-- The lane has moved past its word. -/
def MovedOn (st : IssueStep) (x : StepLane) (rest : List StepLane) (t : State) : Prop :=
  t.turn = .issue { st with todo := rest } ∧ (t.lane (stepLane st x)).pc = BitVec.ofNat 32 (x.pc + 8)
    ∧ (t.lane (stepLane st x)).block = .free

/-- Register writes of a completion: each register named holds its value (where it is named once), every other one is as before. -/
def Landed (ws : List (Nat × W32)) (l m : Lane) : Prop :=
  (∀ r v, (r, v) ∈ ws → (∀ u, (r, u) ∈ ws → u = v) → m.reg r = v) ∧ ∀ n, (∀ v, (n, v) ∉ ws) → m.reg n = l.reg n

/-- A word whose guard is false: the lane has moved past it and nothing else has happened (02 R43, 06 R107). -/
def PassedOver (st : IssueStep) (x : StepLane) (rest : List StepLane) (s t : State) : Prop :=
  Passed st x rest s t ∧ ValuesKept (s.lane (stepLane st x)) (t.lane (stepLane st x))

/-- A destination operand of `w` registers holds a result; every other register is as before; z discards (02 R44). -/
def Written (o : Operand) (w y : Nat) (l m : Lane) : Prop :=
  match o with
  | .v n => (∀ k, k < w → m.reg (n.val + k) = BitVec.ofNat 32 (y / 2 ^ (32 * k)))
      ∧ ∀ k, (k < n.val ∨ n.val + w ≤ k) → m.reg k = l.reg k
  | _ => ∀ k, m.reg k = l.reg k

/-- A predicate holds a result; every other one is as before, and pd 7 discards (02 Table 2.4). -/
def PredWritten (n : Nat) (b : Bool) (l m : Lane) : Prop :=
  (n < 7 → m.p.getLsbD n = b) ∧ ∀ k, k ≠ n → m.p.getLsbD k = l.p.getLsbD k

/-! ## The computing words, each with its row and its function of the lane and of a, b and c -/

/-- One computing word. -/
structure ComputeWord where
  word : Instr
  row : RRRRow
  fn : Fn

/-- Class IALU (08 R133). -/
def ialuWords (f : RRR) : List ComputeWord :=
  [⟨.add f, Rows.add, fnAdd f.sat⟩, ⟨.sub f, Rows.sub, fnSub f.sat⟩, ⟨.neg f, Rows.neg, fnNeg f.sat⟩, ⟨.abs f, Rows.abs, fnAbs f.sat⟩,
   ⟨.minS f, Rows.minS, fnMinS⟩, ⟨.minN f, Rows.minN, fnMinN⟩, ⟨.maxS f, Rows.maxS, fnMaxS⟩, ⟨.maxN f, Rows.maxN, fnMaxN⟩,
   ⟨.and f, Rows.and, fnAnd⟩, ⟨.or f, Rows.or, fnOr⟩, ⟨.xor f, Rows.xor, fnXor⟩, ⟨.andn f, Rows.andn, fnAndn⟩, ⟨.not f, Rows.not, fnNot⟩,
   ⟨.shl f, Rows.shl, fnShl⟩, ⟨.shr f, Rows.shr, fnShr⟩, ⟨.sar f, Rows.sar, fnSar⟩, ⟨.rol f, Rows.rol, fnRol⟩, ⟨.clz f, Rows.clz, fnClz⟩,
   ⟨.popc f, Rows.popc, fnPopc⟩, ⟨.brev f, Rows.brev, fnBrev⟩, ⟨.sel f, Rows.sel, fnSel f.mod.val⟩, ⟨.mov f, Rows.mov, fnMov⟩,
   ⟨.iset f, Rows.iset, fnIset f.mod.val⟩, ⟨.add64 f, Rows.add64, fnAdd64 f.sat⟩, ⟨.sub64 f, Rows.sub64, fnSub64 f.sat⟩]

/-- Class IMUL (08 R134). -/
def imulWords (f : RRR) : List ComputeWord :=
  [⟨.mul f, Rows.mul, fnMul f.sat⟩, ⟨.mulhS f, Rows.mulhS, fnMulh S⟩, ⟨.mulhN f, Rows.mulhN, fnMulh U⟩, ⟨.mad f, Rows.mad, fnMad f.sat⟩,
   ⟨.madhS f, Rows.madhS, fnMadh S⟩, ⟨.madhN f, Rows.madhN, fnMadh U⟩, ⟨.mul64S f, Rows.mul64S, fnMul64 S⟩,
   ⟨.mul64N f, Rows.mul64N, fnMul64 U⟩, ⟨.mad64S f, Rows.mad64S, fnMad64 S (toSigned 64)⟩,
   ⟨.mad64N f, Rows.mad64N, fnMad64 U (fun x => x)⟩, ⟨.dot4Ss f, Rows.dot4Ss, fnDot4 byteS byteS f.sat⟩,
   ⟨.dot4Nn f, Rows.dot4Nn, fnDot4 byteU byteU f.sat⟩, ⟨.dot4Sn f, Rows.dot4Sn, fnDot4 byteS byteU f.sat⟩, ⟨.dot2 f, Rows.dot2, fnDot2 f.sat⟩]

/-- Class PACK (08 R138 to R141), but TACC, which also reads d. -/
def packWords (f : RRR) : List ComputeWord :=
  [⟨.bfxS f, Rows.bfxS, fnBfx true⟩, ⟨.bfxN f, Rows.bfxN, fnBfx false⟩, ⟨.bfi f, Rows.bfi, fnBfi⟩, ⟨.prmb f, Rows.prmb, fnPrmb⟩,
   ⟨.unpk3 f, Rows.unpk3, fnUnpk3 f.mod.val⟩, ⟨.pack3 f, Rows.pack3, fnPack3 f.mod.val⟩, ⟨.satnS f, Rows.satnS, fnSatnS f.mod.val⟩,
   ⟨.satnN f, Rows.satnN, fnSatnN f.mod.val⟩, ⟨.pk16 f, Rows.pk16, fnPk16 f.sat⟩, ⟨.upk8S f, Rows.upk8S, fnUpk8 true⟩,
   ⟨.upk8N f, Rows.upk8N, fnUpk8 false⟩, ⟨.upk4S f, Rows.upk4S, fnUpk4 true f.mod.val⟩, ⟨.upk4N f, Rows.upk4N, fnUpk4 false f.mod.val⟩,
   ⟨.pkb f, Rows.pkb, fnPkb f.sat⟩, ⟨.msk f, Rows.msk, fnMsk⟩]

/-- Class FALU (10), but FCMP, which writes predicates. -/
def faluWords (f : RRR) : List ComputeWord :=
  [⟨.faddF32 f, Rows.faddF32, fnFadd f32 false f.rm.val⟩, ⟨.faddF16x2 f, Rows.faddF16x2, fnFadd f16 true f.rm.val⟩,
   ⟨.faddBf16x2 f, Rows.faddBf16x2, fnFadd bf16 true f.rm.val⟩, ⟨.fsubF32 f, Rows.fsubF32, fnFsub f32 false f.rm.val⟩,
   ⟨.fsubF16x2 f, Rows.fsubF16x2, fnFsub f16 true f.rm.val⟩, ⟨.fsubBf16x2 f, Rows.fsubBf16x2, fnFsub bf16 true f.rm.val⟩,
   ⟨.fmulF32 f, Rows.fmulF32, fnFmul f32 false f.rm.val⟩, ⟨.fmulF16x2 f, Rows.fmulF16x2, fnFmul f16 true f.rm.val⟩,
   ⟨.fmulBf16x2 f, Rows.fmulBf16x2, fnFmul bf16 true f.rm.val⟩, ⟨.fmaF32 f, Rows.fmaF32, fnFma f32 false f.rm.val⟩,
   ⟨.fmaF16x2 f, Rows.fmaF16x2, fnFma f16 true f.rm.val⟩, ⟨.fmaBf16x2 f, Rows.fmaBf16x2, fnFma bf16 true f.rm.val⟩,
   ⟨.fminF32 f, Rows.fminF32, fnFminmax f32 false false⟩, ⟨.fminF16x2 f, Rows.fminF16x2, fnFminmax f16 true false⟩,
   ⟨.fminBf16x2 f, Rows.fminBf16x2, fnFminmax bf16 true false⟩, ⟨.fmaxF32 f, Rows.fmaxF32, fnFminmax f32 false true⟩,
   ⟨.fmaxF16x2 f, Rows.fmaxF16x2, fnFminmax f16 true true⟩, ⟨.fmaxBf16x2 f, Rows.fmaxBf16x2, fnFminmax bf16 true true⟩,
   ⟨.fsetF32 f, Rows.fsetF32, fnFset f32 false f.mod.val⟩, ⟨.fsetF16x2 f, Rows.fsetF16x2, fnFset f16 true f.mod.val⟩,
   ⟨.fsetBf16x2 f, Rows.fsetBf16x2, fnFset bf16 true f.mod.val⟩, ⟨.fclsF32 f, Rows.fclsF32, fnFcls f32 false⟩,
   ⟨.fclsF16x2 f, Rows.fclsF16x2, fnFcls f16 true⟩, ⟨.fclsBf16x2 f, Rows.fclsBf16x2, fnFcls bf16 true⟩, ⟨.fsel f, Rows.fsel, fnSel f.mod.val⟩,
   ⟨.fdot2F16 f, Rows.fdot2F16, fnFdot2 f16 f.rm.val⟩, ⟨.fdot2Bf16 f, Rows.fdot2Bf16, fnFdot2 bf16 f.rm.val⟩,
   ⟨.fscl f, Rows.fscl, fnFscl f.rm.val⟩, ⟨.ffrc f, Rows.ffrc, fnFfrc f.rm.val⟩]

/-- Classes IDIV (08 R136) and FSPC (10): the result lands at completion. -/
def idivWords (f : RRR) : List ComputeWord :=
  [⟨.divS f, Rows.divS, fnDiv 32 true⟩, ⟨.divN f, Rows.divN, fnDiv 32 false⟩, ⟨.remS f, Rows.remS, fnRem 32 true⟩,
   ⟨.remN f, Rows.remN, fnRem 32 false⟩, ⟨.divrS f, Rows.divrS, fnDivr f.rm.val true⟩, ⟨.divrN f, Rows.divrN, fnDivr f.rm.val false⟩,
   ⟨.div64S f, Rows.div64S, fnDiv 64 true⟩, ⟨.div64N f, Rows.div64N, fnDiv 64 false⟩]

def fspcWords (f : RRR) : List ComputeWord :=
  [⟨.fdivF32 f, Rows.fdivF32, fnFdiv f32 f.rm.val⟩, ⟨.fdivF16 f, Rows.fdivF16, fnFdiv f16 f.rm.val⟩,
   ⟨.fsqrtF32 f, Rows.fsqrtF32, fnFsqrt f32 f.rm.val⟩, ⟨.fsqrtF16 f, Rows.fsqrtF16, fnFsqrt f16 f.rm.val⟩, ⟨.frcp f, Rows.frcp, fnOne frcp⟩,
   ⟨.frsq f, Rows.frsq, fnOne frsq⟩, ⟨.fexp2 f, Rows.fexp2, fnOne fexp2⟩, ⟨.flog2 f, Rows.flog2, fnOne flog2⟩,
   ⟨.fsin f, Rows.fsin, fnOne (fsinCos false)⟩, ⟨.fcos f, Rows.fcos, fnOne (fsinCos true)⟩, ⟨.frndF32 f, Rows.frndF32, fnFrnd f32 false f.rm.val⟩,
   ⟨.frndF16x2 f, Rows.frndF16x2, fnFrnd f16 true f.rm.val⟩, ⟨.frndBf16x2 f, Rows.frndBf16x2, fnFrnd bf16 true f.rm.val⟩,
   ⟨.cvtF32S32 f, Rows.cvtF32S32, fnFromInt f32 S f.rm.val⟩, ⟨.cvtF32N32 f, Rows.cvtF32N32, fnFromInt f32 U f.rm.val⟩,
   ⟨.cvtS32F32 f, Rows.cvtS32F32, fnToInt 32 (minS 32) (maxS 32) f.rm.val⟩, ⟨.cvtN32F32 f, Rows.cvtN32F32, fnToInt 32 0 (2 ^ 32 - 1) f.rm.val⟩,
   ⟨.cvtF16F32 f, Rows.cvtF16F32, fnConvert f16 f32 f.rm.val⟩, ⟨.cvtF32F16 f, Rows.cvtF32F16, fnWiden f16⟩,
   ⟨.cvtBf16F32 f, Rows.cvtBf16F32, fnConvert bf16 f32 f.rm.val⟩, ⟨.cvtF32Bf16 f, Rows.cvtF32Bf16, fnWiden bf16⟩,
   ⟨.cvtF16x2F32 f, Rows.cvtF16x2F32, fnPair f16 f.rm.val⟩, ⟨.cvtBf16x2F32 f, Rows.cvtBf16x2F32, fnPair bf16 f.rm.val⟩,
   ⟨.cvtF32S64 f, Rows.cvtF32S64, fnFromInt f32 (toSigned 64) f.rm.val⟩, ⟨.cvtS64F32 f, Rows.cvtS64F32, fnToInt 64 (minS 64) (maxS 64) f.rm.val⟩,
   ⟨.cvtF16Bf16 f, Rows.cvtF16Bf16, fnConvert f16 bf16 f.rm.val⟩, ⟨.cvtBf16F16 f, Rows.cvtBf16F16, fnConvert bf16 f16 f.rm.val⟩,
   ⟨.cvtF16S32 f, Rows.cvtF16S32, fnFromInt f16 S f.rm.val⟩]

/-- As a word that is passed, whatever it makes of the values, counters and stepping flags of its lane. -/
def Ran (st : IssueStep) (x : StepLane) (rest : List StepLane) (s t : State) : Prop :=
  t.turn = .issue { st with todo := rest } ∧ LaneOnly (stepLane st x) s t ∧ (t.lane (stepLane st x)).block = .free
    ∧ (t.lane (stepLane st x)).pc = BitVec.ofNat 32 (x.pc + 8)

/-- A word that has left effects for the end of its step (07 R118); besides, it is as a word that is passed and that writes nothing. -/
def Left (ps : List Pend) (st : IssueStep) (x : StepLane) (rest : List StepLane) (s t : State) : Prop :=
  t.turn = .issue { st with todo := rest, pend := st.pend ++ ps } ∧ LaneOnly (stepLane st x) s t
    ∧ LaneKept (s.lane (stepLane st x)) (t.lane (stepLane st x)) ∧ ValuesKept (s.lane (stepLane st x)) (t.lane (stepLane st x))
    ∧ (t.lane (stepLane st x)).block = .free ∧ (t.lane (stepLane st x)).pc = BitVec.ofNat 32 (x.pc + 8)

/-- A word that keeps its lane in place, waiting as `b` says; nothing else has changed. -/
def Waits (b : Block) (st : IssueStep) (x : StepLane) (rest : List StepLane) (s t : State) : Prop :=
  t.turn = .issue { st with todo := rest } ∧ LaneOnly (stepLane st x) s t ∧ LaneKept (s.lane (stepLane st x)) (t.lane (stepLane st x))
    ∧ ValuesKept (s.lane (stepLane st x)) (t.lane (stepLane st x)) ∧ (t.lane (stepLane st x)).block = b
    ∧ (t.lane (stepLane st x)).pc = BitVec.ofNat 32 x.pc

/-- A source slot of a word: its operand's value, one register where the slot takes any of them; 0 where it is no source. -/
def srcVal (l : Lane) (sl : Slot) (o : Operand) : Nat :=
  match sl with
  | .reg w .src _ _ => operandVal l o w
  | .lax .src => operandVal l o 1
  | _ => 0

/-- The place of a group's grant request among those of its core: by the cycle of its rendezvous, then port, then slot (05 R99). -/
def grantPlace (s : State) (gk : Nat) : Nat := (s.group gk).grantAt * 32 + (s.group gk).port * 8 + (s.group gk).slot

/-- No watchpoint is set on any core. -/
def Unwatched (s : State) : Prop := ∀ c, (s.core c).watches = []

/-- Of the whole machine only the team `tk` and the turn have changed, and of the team only its sequencer and its tiles (17 R246 to R256). -/
def StreamOnly (tk : Nat) (s t : State) : Prop :=
  t = { s with turn := .idle, teams := t.teams } ∧ (∀ k, k ≠ tk → t.team k = s.team k)
    ∧ t.team tk = { s.team tk with seqr := (t.team tk).seqr, tiles := (t.team tk).tiles }

/-- The same, with memory: the bytes below host memory outside the chamber ranges `rs` of the team read as before. -/
def StreamStores (tk : Nat) (rs : List (Nat × Nat)) (s t : State) : Prop :=
  t = { s with turn := .idle, teams := t.teams, mem := t.mem } ∧ (∀ k, k ≠ tk → t.team k = s.team k)
    ∧ t.team tk = { s.team tk with seqr := (t.team tk).seqr }
    ∧ ∀ a, (∀ r ∈ rs, ∀ k, k < r.2 → a ≠ (s.team tk).chamberPhys (r.1 + k)) → t.mem.read a = s.mem.read a

/-- The sequencer of a team has moved on to the next word; its slots, loop stack, status and mode are as they were. -/
def WordDone (tk : Nat) (s t : State) : Prop :=
  (t.team tk).seqr = { (s.team tk).seqr with spc := (s.team tk).seqr.spc + 8, wait := .free }

/-! ## The rows of the command words -/

/-- The words that put a command into the queue of their core, with their points and rows (15 Table 15.2). -/
noncomputable def commandWords (f : EF) : List (Instr × Nat × ERow) :=
  [(.cpy f, 0x140, Rows.cpy), (.cpy2 f, 0x141, Rows.cpy2), (.cpyx f, 0x142, Rows.cpyx), (.cpyt f, 0x143, Rows.cpyt), (.mcast f, 0x144, Rows.mcast),
   (.fill f, 0x145, Rows.fill), (.gath f, 0x146, Rows.gath), (.gath64 f, 0x147, Rows.gath64), (.scat f, 0x148, Rows.scat),
   (.scata f, 0x149, Rows.scata), (.scata64 f, 0x14A, Rows.scata64), (.sump f, 0x14B, Rows.sump), (.sumpw f, 0x14C, Rows.sumpw),
   (.sigAdd f, 0x14D, Rows.sigAdd), (.sigSet f, 0x14E, Rows.sigSet), (.swait f, 0x14F, Rows.swait), (.coll f, 0x150, Rows.coll),
   (.ccan f, 0x151, Rows.ccan), (.cstat f, 0x152, Rows.cstat), (.probe f, 0x155, Rows.probe)]

/-- The words of class GRUP, with their points and rows (07 Table 7.5, 05 R100). -/
noncomputable def groupWords (f : GF) : List (Instr × Nat × GRow) :=
  [(.gsumI32 f, 0x100, Rows.gsumI32), (.gsumF32 f, 0x101, Rows.gsumF32), (.gsumS64 f, 0x102, Rows.gsumS64), (.gminS f, 0x103, Rows.gminS),
   (.gminN f, 0x104, Rows.gminN), (.gminF f, 0x105, Rows.gminF), (.gmaxS f, 0x106, Rows.gmaxS), (.gmaxN f, 0x107, Rows.gmaxN),
   (.gmaxF f, 0x108, Rows.gmaxF), (.gand f, 0x109, Rows.gand), (.gor f, 0x10A, Rows.gor), (.gxor f, 0x10B, Rows.gxor),
   (.gscanI32Inc f, 0x10C, Rows.gscanI32Inc), (.gscanI32Exc f, 0x10D, Rows.gscanI32Exc), (.gscanF32Inc f, 0x10E, Rows.gscanF32Inc),
   (.gscanF32Exc f, 0x10F, Rows.gscanF32Exc), (.gsegI32 f, 0x110, Rows.gsegI32), (.gsegF32 f, 0x111, Rows.gsegF32),
   (.gbcast f, 0x112, Rows.gbcast), (.gshuf f, 0x113, Rows.gshuf), (.gshufx f, 0x114, Rows.gshufx), (.gvote f, 0x115, Rows.gvote),
   (.gcnt f, 0x116, Rows.gcnt), (.gelect f, 0x117, Rows.gelect), (.grank f, 0x118, Rows.grank), (.gsync f, 0x119, Rows.gsync),
   (.grow f, 0x11A, Rows.grow), (.shrink f, 0x11B, Rows.shrink)]

/-- The value an arrival keeps of a source operand: 0 where the lane's guard is false (07 R122). -/
def arrivedVal (on : Bool) (l : Lane) (sl : Slot) (o : Operand) : Nat :=
  if on then (match sl, o with | .reg w _ _ _, .v n => l.regsVal n.val w | _, _ => 0) else 0

end Sys2Proof.Machine
end

