-- ==== Sys2Proof/Certificates/Slice0/Obligations.lean ====
section
/-! DEFINITION. The statements for the provers. -/

open Sys2Proof Sys2Proof.Machine

/-! ## Words: the computing classes -/

/-- IALU, IMUL, PACK and FALU (08 R130 to R141, 10): the word answers a next state; with its guard false the lane passes over it; with its guard true d
receives the function of a, b and c, the flags are ORed, and nothing else changes. A form with a chute is covered by `ComputeWordsWithChutes`. -/
def Obligations.ComputeWordsRun : Prop :=
  ∀ (f : RRR) (s : State) (st : IssueStep) (x : StepLane) (rest : List StepLane), AtWord s st x rest →
    ∀ w ∈ ialuWords f ++ imulWords f ++ packWords f ++ faluWords f,
      ∃ t, exec w.word s = .next t
        ∧ (¬ GuardHolds w.word s (stepLane st x) → PassedOver st x rest s t)
        ∧ (GuardHolds w.word s (stepLane st x) → noChute w.word = true →
            ∃ l0 : Lane, l0.p = (s.lane (stepLane st x)).p ∧ l0.fprm = (s.lane (stepLane st x)).fprm
              ∧ Passed st x rest s t
              ∧ Written f.d (slotWidth w.row.d)
                  (w.fn l0 (slotVal (s.lane (stepLane st x)) w.row.a f.a) (slotVal (s.lane (stepLane st x)) w.row.b f.b)
                    (slotVal (s.lane (stepLane st x)) w.row.c f.c)).1
                  (s.lane (stepLane st x)) (t.lane (stepLane st x))
              ∧ (t.lane (stepLane st x)).p = (s.lane (stepLane st x)).p
              ∧ (t.lane (stepLane st x)).fpflags = (s.lane (stepLane st x)).fpflags
                  ||| (w.fn l0 (slotVal (s.lane (stepLane st x)) w.row.a f.a) (slotVal (s.lane (stepLane st x)) w.row.b f.b)
                    (slotVal (s.lane (stepLane st x)) w.row.c f.c)).2)

/-- The same words in every form, chutes among the operands: the operands are read in the order a, b, c, the function is taken of what was read, a
register d receives it, its bytes are pushed onto a chute d, the flags are ORed, the lane moves past the word, and every byte below host memory reads
as before but those of the slot at the tail of the ring that a chute d is pushed onto. That SEL and FSEL read their predicate in the lane as it stands before
the word's own pops have set p6 is the model's choice (log 45). -/
def Obligations.ComputeWordsWithChutes : Prop :=
  ∀ (f : RRR) (s : State) (st : IssueStep) (x : StepLane) (rest : List StepLane), s.Inv → AtWord s st x rest →
    ∀ w ∈ ialuWords f ++ imulWords f ++ packWords f ++ faluWords f, GuardHolds w.word s (stepLane st x) →
      let k := stepLane st x
      let r := readRRR w.row f k (movedOn st x rest s)
      let y := w.fn ((movedOn st x rest s).lane k) r.1.1 r.1.2.1 r.1.2.2
      ∃ t, exec w.word s = .next t
        ∧ ((∀ q, f.d ≠ .q q) → Written f.d (slotWidth w.row.d) y.1 (s.lane k) (t.lane k))
        ∧ (∀ q : Fin 8, f.d = .q q →
            t = (r.2.setLane k { r.2.lane k with fpflags := (r.2.lane k).fpflags ||| y.2 }).push k q.val (leBytes (4 * slotWidth w.row.d) y.1)
              ∧ ∀ n, (t.lane k).reg n = (s.lane k).reg n)
        ∧ (t.lane k).fpflags = (s.lane k).fpflags ||| y.2 ∧ MovedOn st x rest t
        ∧ (∀ a, a < 2 ^ 64 → (∀ q p, f.d = .q q → pushSlot r.2 k q.val = some p → a < p ∨ p + 4 * slotWidth w.row.d ≤ a) →
            t.mem.read a = s.mem.read a)
        ∧ OthersStand k s t

/-- The words that write predicates: ADDC and SUBB, which also write d (08 R133), CMP (08 R133), FCMP (10) and PLOG (08 R132). -/
def Obligations.PredicateWordsRun : Prop :=
  ∀ (f : RRR) (s : State) (st : IssueStep) (x : StepLane) (rest : List StepLane), AtWord s st x rest →
    let l := s.lane (stepLane st x)
    let k := stepLane st x
    (∀ w ∈ [(Instr.addc f, Rows.addc, fnAddc f.mod.val), (Instr.subb f, Rows.subb, fnSubb f.mod.val)], ∃ t, exec w.1 s = .next t
      ∧ (¬ GuardHolds w.1 s k → PassedOver st x rest s t)
      ∧ (GuardHolds w.1 s k → noChute w.1 = true → ∃ l0 : Lane, l0.p = l.p
          ∧ Passed st x rest s t
          ∧ Written f.d 1 (w.2.2 l0 (operandVal l f.a 1) (operandVal l f.b 1) 0).1 l (t.lane k)
          ∧ PredWritten f.pd.val (w.2.2 l0 (operandVal l f.a 1) (operandVal l f.b 1) 0).2 l (t.lane k)
          ∧ (t.lane k).fpflags = l.fpflags))
    ∧ (∀ w ∈ [(Instr.cmpS f, fnCmpS f.mod.val), (Instr.cmpN f, fnCmpN f.mod.val), (Instr.fcmpF32 f, fnFcmp f.mod.val)], ∃ t, exec w.1 s = .next t
      ∧ (¬ GuardHolds w.1 s k → PassedOver st x rest s t)
      ∧ (GuardHolds w.1 s k → noChute w.1 = true →
          Passed st x rest s t ∧ (∀ n, (t.lane k).reg n = l.reg n)
          ∧ PredWritten f.pd.val (w.2 l (operandVal l f.a 1) (operandVal l f.b 1) 0).1 l (t.lane k)
          ∧ (t.lane k).fpflags = l.fpflags ||| (w.2 l (operandVal l f.a 1) (operandVal l f.b 1) 0).2))
    ∧ (∀ w ∈ [(Instr.fcmpF16x2 f, f16), (Instr.fcmpBf16x2 f, bf16)], ∃ t, exec w.1 s = .next t
      ∧ (¬ GuardHolds w.1 s k → PassedOver st x rest s t)
      ∧ (GuardHolds w.1 s k → noChute w.1 = true →
          let lo := w.2.cond (f.mod.val % 8) (operandVal l f.a 1 % 65536) (operandVal l f.b 1 % 65536)
          let hi := w.2.cond (f.mod.val % 8) (operandVal l f.a 1 / 65536) (operandVal l f.b 1 / 65536)
          Passed st x rest s t ∧ (∀ n, (t.lane k).reg n = l.reg n)
          ∧ (f.pd.val < 7 → (t.lane k).p.getLsbD f.pd.val = lo.1)
          ∧ (f.pd.val < 6 → (t.lane k).p.getLsbD (f.pd.val + 1) = hi.1)
          ∧ (∀ n, n ≠ f.pd.val → n ≠ f.pd.val + 1 → (t.lane k).p.getLsbD n = l.p.getLsbD n)
          ∧ (t.lane k).fpflags = l.fpflags ||| (lo.2 ||| hi.2)))
    ∧ (∃ t, exec (.plog f) s = .next t
      ∧ (¬ GuardHolds (.plog f) s k → PassedOver st x rest s t)
      ∧ (GuardHolds (.plog f) s k →
          Passed st x rest s t ∧ (∀ n, (t.lane k).reg n = l.reg n) ∧ (t.lane k).fpflags = l.fpflags
          ∧ PredWritten f.pd.val
              ((Operand.code f.c).testBit (2 * b2n (l.pred (Operand.code f.a)) + b2n (l.pred (Operand.code f.b)))) l (t.lane k)))

/-- MOVI and LEA write the immediate, added to a for LEA (08 R131 to R133); TACC adds five products to d and notes FMT and IOV (08 R141). -/
def Obligations.ImmediateAndAccumulateRun : Prop :=
  ∀ (g : RI) (f : RRR) (s : State) (st : IssueStep) (x : StepLane) (rest : List StepLane), AtWord s st x rest →
    let l := s.lane (stepLane st x)
    let k := stepLane st x
    (∀ w ∈ [(Instr.movi g, 0), (Instr.lea g, operandVal l g.a 1)], ∃ t, exec w.1 s = .next t
      ∧ (¬ GuardHolds w.1 s k → PassedOver st x rest s t)
      ∧ (GuardHolds w.1 s k → noChute w.1 = true →
          Passed st x rest s t ∧ Written g.d 1 ((w.2 + g.imm.toNat) % 2 ^ 32) l (t.lane k) ∧ (t.lane k).p = l.p ∧ (t.lane k).fpflags = l.fpflags))
    ∧ (∃ t, exec (.tacc f) s = .next t
      ∧ (¬ GuardHolds (.tacc f) s k → PassedOver st x rest s t)
      ∧ (GuardHolds (.tacc f) s k → noChute (.tacc f) = true →
          let y := taccSum (operandVal l f.d 1) (operandVal l f.a 1) (operandVal l f.b 1) f.mod.val
          Passed st x rest s t ∧ Written f.d 1 (ofSigned 32 y) l (t.lane k) ∧ (t.lane k).p = l.p
          ∧ (t.lane k).fpflags = l.fpflags ||| (flagIf (tritBad (operandVal l f.a 1)) flagFMT ||| flagIf (y < minS 32 || maxS 32 < y) flagIOV)))

/-- IDIV and FSPC at issue (02 R40, 08 R136, 10): the operands are read, the result enters flight with its flags, the counters of the flag select
rise, and nothing is written yet. DIVIDE_COMPLETE and FSPC_COMPLETE (08 R136, R137, 10): the result and its flags land together in the lane, the operation leaves flight, and
memory, the other groups and the values of the other lanes are as they were. -/
def Obligations.LateWordsRun : Prop :=
  (∀ (f : RRR) (s : State) (st : IssueStep) (x : StepLane) (rest : List StepLane), AtWord s st x rest →
    let l := s.lane (stepLane st x)
    let k := stepLane st x
    ∀ w ∈ (idivWords f).map (fun w => (w, true)) ++ (fspcWords f).map (fun w => (w, false)),
      ∃ t, exec w.1.word s = .next t
        ∧ (¬ GuardHolds w.1.word s k → PassedOver st x rest s t)
        ∧ (GuardHolds w.1.word s k → noChute w.1.word = true →
            ∃ l0 : Lane, l0.p = l.p ∧ l0.fprm = l.fprm ∧ ∃ o : LaneOp,
              (t.group st.group).ops = (s.group st.group).ops ++ [o] ∧ o.id = s.serial ∧ t.serial = s.serial + 1 ∧ o.lane = k
              ∧ o.kind = .value
                  (regWrites f.d (slotWidth w.1.row.d)
                    (w.1.fn l0 (slotVal l w.1.row.a f.a) (slotVal l w.1.row.b f.b) (slotVal l w.1.row.c f.c)).1)
                  (w.1.fn l0 (slotVal l w.1.row.a f.a) (slotVal l w.1.row.b f.b) (slotVal l w.1.row.c f.c)).2 w.2
              ∧ ValuesKept l (t.lane k) ∧ (t.lane k).pc = BitVec.ofNat 32 (x.pc + 8)
              ∧ t.mem = s.mem ∧ t.teams = s.teams ∧ (∀ j, j ≠ st.group → t.group j = s.group j) ∧ (∀ j, j ≠ k → t.lane j = s.lane j)))
  ∧ (∀ (s : State) (gk id : Nat) (o : LaneOp) (ws : List (Nat × W32)) (fl : BitVec 9),
    (s.group gk).op? id = some o →
      ∀ w ∈ [(Instr.divideComplete gk id, true), (Instr.fspcComplete gk id, false)], o.kind = .value ws fl w.2 →
        ∃ t, exec w.1 s = .next t
          ∧ Landed ws (s.lane o.lane) (t.lane o.lane) ∧ (t.lane o.lane).fpflags = (s.lane o.lane).fpflags ||| fl
          ∧ (t.lane o.lane).p = (s.lane o.lane).p ∧ (t.lane o.lane).pc = (s.lane o.lane).pc ∧ (t.lane o.lane).live = (s.lane o.lane).live
          ∧ (t.group gk).op? id = none ∧ t.mem = s.mem ∧ OthersStand o.lane s t ∧ (∀ j, j ≠ gk → t.group j = s.group j))


/-! ## Words: control (06 R109 to R114) -/

/-- NOP, the branches, LOOP, JMPI, BRT, PARK, YIELD and EXIT: each answers a next state, in every form; with its guard false the lane passes over
it; with its guard true and no chute as its operand, the lane goes where 06 R110 to R114 send it and nothing else changes, but for what an EXIT notes at
a barrier that its group has begun to arrive at. PARK_EXPIRE and YIELD_EXPIRE (06 R114): the lane becomes ready again, and nothing else changes. -/
def Obligations.ControlWordsAndWaitsRun : Prop :=
  (∀ (f : BF) (s : State) (st : IssueStep) (x : StepLane) (rest : List StepLane), AtWord s st x rest →
    let l := s.lane (stepLane st x)
    let k := stepLane st x
    let target := (x.pc + 8 * f.disp.toNat) % 2 ^ 32
    let a := operandVal l f.reg 1
    let go (b : Bool) (dest : Nat) (t : State) : Prop :=
      if b then Transferred dest st x rest s t ∧ ValuesKept l (t.lane k) else PassedOver st x rest s t
    let stays (b : Block) (t : State) : Prop :=
      LaneOnly k s t ∧ ValuesKept l (t.lane k) ∧ LaneKept l (t.lane k) ∧ (t.lane k).block = b ∧ (t.lane k).pc = BitVec.ofNat 32 (x.pc + 8)
    let n := Operand.code f.reg
    ∀ w ∈ ([(Instr.nop f, fun t => PassedOver st x rest s t),
        (Instr.bra f, go true target),
        (Instr.brp f, go (xor (l.pred (n % 8)) (n.testBit 3)) target),
        (Instr.brrZ f, go (a == 0) target), (Instr.brrNz f, go (a != 0) target),
        (Instr.brrLt f, go (decide (toSigned 32 a < 0)) target), (Instr.brrGe f, go (decide (0 ≤ toSigned 32 a)) target),
        (Instr.jmpi f, go true a), (Instr.brt f, go true ((target + 16 * a) % 2 ^ 32)),
        (Instr.park f, stays (.park s.cycle a)), (Instr.yield f, stays (.yield (s.group st.group).opps s.cycle)),
        (Instr.exit f, fun t => ValuesKept l (t.lane k) ∧ (t.lane k).live = false ∧ (∀ j, j ≠ k → t.lane j = s.lane j)
          ∧ (∀ j, j ≠ teamOf st.group → t.team j = s.team j)
          ∧ t.team (teamOf st.group) = { s.team (teamOf st.group) with barriers := (t.team (teamOf st.group)).barriers }
          ∧ t.mem = s.mem ∧ t.groups = s.groups ∧ t.cores = s.cores ∧ t.cmds = s.cmds),
        (Instr.loop f, fun t =>
          let c := (a + 2 ^ 32 - 1) % 2 ^ 32
          Written f.reg 1 c l (t.lane k) ∧ (t.lane k).p = l.p ∧ (t.lane k).fpflags = l.fpflags
            ∧ (if c ≠ 0 then Transferred target st x rest s t else Passed st x rest s t))] : List (Instr × (State → Prop))),
      ∃ t, exec w.1 s = .next t
        ∧ (¬ GuardHolds w.1 s k → PassedOver st x rest s t)
        ∧ (GuardHolds w.1 s k → noChute w.1 = true → w.2 t))
  ∧ (∀ (s : State) (gk lane : Nat),
    (∀ since owed, (s.lane (laneKey gk lane)).block = .park since owed → since + owed ≤ s.cycle → since < s.cycle → s.groupHalted gk = false →
      exec (.parkExpire gk lane) s = .next (s.setLane (laneKey gk lane) { s.lane (laneKey gk lane) with block := .free }))
    ∧ (∀ opps since, (s.lane (laneKey gk lane)).block = .yield opps since → (opps < (s.group gk).opps ∨ since + 8 ≤ s.cycle) →
      exec (.yieldExpire gk lane) s = .next (s.setLane (laneKey gk lane) { s.lane (laneKey gk lane) with block := .free })))

/-- CALL, CALLI and RET (06 R111, R112): a call queues a store of its return address in the lane's next entry of the spill stack and raises its call
depth; RET lowers it and goes to the address that its entry holds, and reads that entry as an LDSP would, watchpoints included. Nothing is stored in
memory at issue. -/
def Obligations.CallAndReturnRun : Prop :=
  ∀ (f : BF) (s : State) (st : IssueStep) (x : StepLane) (rest : List StepLane), AtWord s st x rest →
    let l := s.lane (stepLane st x)
    let k := stepLane st x
    let t0 := s.team (teamOf st.group)
    let entry (n : Nat) : Nat := t0.spillSize - 128 * (n + 1) + 4 * x.pos
    (∀ w ∈ [(Instr.call f, (x.pc + 8 * f.disp.toNat) % 2 ^ 32), (Instr.calli f, operandVal l f.reg 1)], ∃ t, exec w.1 s = .next t
      ∧ (¬ GuardHolds w.1 s k → PassedOver st x rest s t)
      ∧ (GuardHolds w.1 s k → noChute w.1 = true →
          (t.lane k).pc = BitVec.ofNat 32 w.2 ∧ (t.lane k).cd = l.cd + 1 ∧ ValuesKept l (t.lane k) ∧ t.mem = s.mem
          ∧ (∃ o : LaneOp, (t.group st.group).ops = (s.group st.group).ops ++ [o] ∧ o.lane = k ∧ o.space = 2 ∧ o.off = entry l.cd
              ∧ o.kind = .store ((s.group st.group).spillPhys (entry l.cd)) (leBytes 4 (x.pc + 8)) false)
          ∧ (∀ j, j ≠ k → t.lane j = s.lane j)))
    ∧ (∃ t, exec (.ret f) s = .next t
      ∧ (¬ GuardHolds (.ret f) s k → PassedOver st x rest s t)
      ∧ (GuardHolds (.ret f) s k →
          (t.lane k).pc = BitVec.ofNat 32 (leNat (s.loadBytes st.group ((s.group st.group).spillPhys (entry (l.cd - 1))) 4))
          ∧ (t.lane k).cd = l.cd - 1 ∧ ValuesKept l (t.lane k) ∧ OthersStand k s t ∧ (s.Inv → MemoryKept s t) ∧ (Unwatched s → LaneOnly k s t)))


/-! ## Words: scratch memory (11) -/

/-- The loads, LDSP and BRLD at issue (11 R166, R167, R169, R170): the word answers a next state; where its access passed the checks of its step, one
operation enters flight, with the place the record, the index and the offset give, and nothing is read or written yet. The stores and STSP at issue (11 R166, R167, R169): the data is read at issue and enters the store queue; memory is unchanged until the operation
is performed at its host. ATOM, RED and CAS at issue (11 R168): the operands are read and the operation enters flight with its ordering, at the scope that its field or its record names. -/
def Obligations.MemoryWordsIssue : Prop :=
  (∀ (f : MF) (s : State) (st : IssueStep) (x : StepLane) (rest : List StepLane), AtWord s st x rest →
    let l := s.lane (stepLane st x)
    let i := operandVal l f.idx 1
    let at_ (w : Nat) : Except Trap Access := s.laneAccess st.group f.slot.val (toSigned 32 i) f.off.toNat w
    ∀ w ∈ ([(Instr.ld8s f, at_ 1, fun a => .load a.phys 1 true f.d 1 a.drop), (Instr.ld8n f, at_ 1, fun a => .load a.phys 1 false f.d 1 a.drop),
        (Instr.ld16s f, at_ 2, fun a => .load a.phys 2 true f.d 1 a.drop), (Instr.ld16n f, at_ 2, fun a => .load a.phys 2 false f.d 1 a.drop),
        (Instr.ld32 f, at_ 4, fun a => .load a.phys 4 false f.d 1 a.drop), (Instr.ld64 f, at_ 8, fun a => .load a.phys 8 false f.d 2 a.drop),
        (Instr.ld128 f, at_ 16, fun a => .load a.phys 16 false f.d 4 a.drop),
        (Instr.ldsp f, s.spillAccess st.group (i + f.off.toNat), fun a => .load a.phys 4 false f.d 1 a.drop),
        (Instr.brld f, at_ 32, fun a => .brld a.phys (Operand.code f.d) a.drop)] : List (Instr × Except Trap Access × (Access → OpKind))),
      ∃ t, exec w.1 s = .next t
        ∧ (¬ GuardHolds w.1 s (stepLane st x) → PassedOver st x rest s t)
        ∧ (GuardHolds w.1 s (stepLane st x) → noChute w.1 = true → ∀ a, w.2.1 = .ok a →
            Issued (w.2.2 a) a.space a.off st x s t ∧ MovedOn st x rest t))
  ∧ (∀ (f : MF) (s : State) (st : IssueStep) (x : StepLane) (rest : List StepLane), AtWord s st x rest →
    let l := s.lane (stepLane st x)
    let i := operandVal l f.idx 1
    let at_ (w : Nat) : Except Trap Access := s.laneAccess st.group f.slot.val (toSigned 32 i) f.off.toNat w
    ∀ w ∈ [(Instr.st8 f, at_ 1, 1, 1), (Instr.st16 f, at_ 2, 2, 1), (Instr.st32 f, at_ 4, 4, 1), (Instr.st64 f, at_ 8, 8, 2),
        (Instr.st128 f, at_ 16, 16, 4), (Instr.stsp f, s.spillAccess st.group (i + f.off.toNat), 4, 1)],
      ∃ t, exec w.1 s = .next t
        ∧ (¬ GuardHolds w.1 s (stepLane st x) → PassedOver st x rest s t)
        ∧ (GuardHolds w.1 s (stepLane st x) → noChute w.1 = true → ∀ a, w.2.1 = .ok a →
            Issued (.store a.phys (leBytes w.2.2.1 (operandVal l f.d w.2.2.2)) a.drop) a.space a.off st x s t ∧ MovedOn st x rest t))
  ∧ (∀ (f : AF) (s : State) (st : IssueStep) (x : StepLane) (rest : List StepLane), AtWord s st x rest →
    let l := s.lane (stepLane st x)
    let acq : Bool := f.ord.val % 2 == 1
    let rel : Bool := decide (2 ≤ f.ord.val)
    let at_ (w : Nat) : Except Trap Access := s.laneAccess st.group f.slot.val (toSigned 32 (operandVal l f.idx 1)) (f.aoff.val * w) w
    let scope : Nat := if f.scope.val = 7 then recScope ((s.team (teamOf st.group)).record_ f.slot.val) else f.scope.val
    let upd (w : Nat) (ret : Bool) (a : Access) : OpKind := .atomic a.phys w f.aop.val (operandVal l f.a (w / 4)) f.d ret acq rel a.drop scope
    let swap (w : Nat) (a : Access) : OpKind := .cas a.phys w (operandVal l f.a (w / 4)) (operandVal l f.d (w / 4)) f.d acq rel a.drop scope
    ∀ w ∈ ([(Instr.atom f, at_ 4, upd 4 true), (Instr.atom64 f, at_ 8, upd 8 true), (Instr.red f, at_ 4, upd 4 false),
        (Instr.red64 f, at_ 8, upd 8 false), (Instr.cas f, at_ 4, swap 4), (Instr.cas64 f, at_ 8, swap 8)]
          : List (Instr × Except Trap Access × (Access → OpKind))),
      ∃ t, exec w.1 s = .next t
        ∧ (¬ GuardHolds w.1 s (stepLane st x) → PassedOver st x rest s t)
        ∧ (GuardHolds w.1 s (stepLane st x) → noChute w.1 = true → ∀ a, w.2.1 = .ok a →
            Issued (w.2.2 a) a.space a.off st x s t ∧ MovedOn st x rest t))


/-- MEMS_COMPLETE (11 R166 to R168, 18 R258): an operation that nothing holds back is performed at its host and leaves flight. A store writes its bytes and
no others; an atomic writes the word its operation gives, and gives the old one; a CAS writes only where it finds its comparand; a load writes what
its group finds there; a BRLD writes its slot; the record of a CHWR, or the bytes of a push that waited for the accesses it releases, land in the chute. One
that bounds mode 1 drops notes OOB, writes nothing in memory and gives zeros where it gives anything. No byte of the part beyond those stored changes. -/
def Obligations.MemoryOperationsPerform : Prop :=
  ∀ (s : State) (gk id : Nat) (o : LaneOp), s.mem.wf = true → (s.group gk).op? id = some o →
    o.kind.isAccess = true → (∀ a c i e l d, o.kind ≠ .xtld a c i e l d) → s.mayPerform gk o = true →
      ∃ t, exec (.memsComplete gk id) s = .next t ∧ (t.group gk).op? id = none
        ∧ (match o.kind with
           | .store a d false =>
             (∀ i (h : i < d.length), a + i < 2 ^ 64 → t.mem.read (a + i) = d[i])
               ∧ (∀ b, b < 2 ^ 64 → (b < a ∨ a + d.length ≤ b) → t.mem.read b = s.mem.read b) ∧ ∀ n, (t.lane o.lane).reg n = (s.lane o.lane).reg n
           | .load a w signed dst regs false =>
             Landed (regWrites dst regs (loadValue w signed (s.readFor gk o a w))) (s.lane o.lane) (t.lane o.lane) ∧ MemoryKept s t
           | .load _ _ _ dst regs true =>
             Landed (regWrites dst regs 0) (s.lane o.lane) (t.lane o.lane) ∧ (t.lane o.lane).fpflags = (s.lane o.lane).fpflags ||| flagOOB
               ∧ MemoryKept s t
           | .store _ _ true => (t.lane o.lane).fpflags = (s.lane o.lane).fpflags ||| flagOOB ∧ MemoryKept s t
           | .atomic a w aop y dst ret _ _ false _ =>
             let old := leNat (s.mem.readBytes a w)
             let new := leBytes w (atomicOp aop w old y).1
             (∀ i (h : i < new.length), a + i < 2 ^ 64 → t.mem.read (a + i) = new[i])
               ∧ (∀ b, b < 2 ^ 64 → (b < a ∨ a + new.length ≤ b) → t.mem.read b = s.mem.read b)
               ∧ Landed (if ret then regWrites dst (w / 4) old else []) (s.lane o.lane) (t.lane o.lane)
           | .cas a w cmp new dst _ _ false _ =>
             let old := leNat (s.mem.readBytes a w)
             (old = cmp → ∀ i (h : i < (leBytes w new).length), a + i < 2 ^ 64 → t.mem.read (a + i) = (leBytes w new)[i])
               ∧ (∀ b, b < 2 ^ 64 → (old ≠ cmp ∨ b < a ∨ a + (leBytes w new).length ≤ b) → t.mem.read b = s.mem.read b)
               ∧ Landed (regWrites dst (w / 4) old) (s.lane o.lane) (t.lane o.lane)
           | .brld a slot false =>
             (t.team (teamOf gk)).slots.get? slot = some (BitVec.ofNat 256 (leNat (s.readFor gk o a 32))) ∧ MemoryKept s t
           | .atomic _ w _ _ dst ret _ _ true _ =>
             Landed (if ret then regWrites dst (w / 4) 0 else []) (s.lane o.lane) (t.lane o.lane)
               ∧ (t.lane o.lane).fpflags = (s.lane o.lane).fpflags ||| flagOOB ∧ MemoryKept s t
           | .cas _ w _ _ dst _ _ true _ =>
             Landed (regWrites dst (w / 4) 0) (s.lane o.lane) (t.lane o.lane) ∧ (t.lane o.lane).fpflags = (s.lane o.lane).fpflags ||| flagOOB
               ∧ MemoryKept s t
           | .brld _ slot true =>
             (t.team (teamOf gk)).slots.get? slot = some 0 ∧ (t.lane o.lane).fpflags = (s.lane o.lane).fpflags ||| flagOOB ∧ MemoryKept s t
           | .chwr a q entry drop =>
             RecordLanded (teamOf gk) q entry (if drop then List.replicate 64 0 else s.readFor gk o a 64) s t
               ∧ (t.lane o.lane).fpflags = (if drop then (s.lane o.lane).fpflags ||| flagOOB else (s.lane o.lane).fpflags)
               ∧ ∀ n, (t.lane o.lane).reg n = (s.lane o.lane).reg n
           | .push _ q entry bytes =>
             RecordLanded (teamOf gk) q entry bytes s t ∧ ValuesKept (s.lane o.lane) (t.lane o.lane)
           | _ => False)

/-- CHCFG, CHRD, CHWR, CHCNT and CHCLS (11 R176, R177). A configuration is left for the end of the step, where the highest lane's stands: the chute is
empty and open under it, and a chute that no lane configures stays; CHRD pops one record and queues it as a store; CHWR
reserves a slot and reads its record in flight; CHCNT gives the count and the closed flag as the host holds them; CHCLS sets the closed flag and nothing else of the chute. -/
def Obligations.ChutePointsRun : Prop :=
  (∀ (f : MF) (s : State) (st : IssueStep) (x : StepLane) (rest : List StepLane), s.Inv → AtWord s st x rest →
    let l := s.lane (stepLane st x)
    let k := stepLane st x
    let tk := teamOf st.group
    let acc := s.laneAccess st.group f.slot.val (toSigned 32 (operandVal l f.idx 1)) f.off.toNat 64
    let regIdx : Prop := ∀ q, f.idx ≠ .q q
    (∀ i ∈ [Instr.chcfg f, .chrd f, .chwr f, .chcnt f, .chcls f], ∃ t, exec i s = .next t ∧ (¬ GuardHolds i s k → PassedOver st x rest s t))
    ∧ (∀ t, exec (.chcfg f) s = .next t → GuardHolds (.chcfg f) s k → regIdx →
        t.turn = .issue { st with todo := rest, pend := st.pend ++ [⟨0x135, chuteOf f.d, operandVal l f.idx 2⟩] }
          ∧ LaneOnly k s t ∧ ValuesKept l (t.lane k))
    ∧ (∀ t a, exec (.chrd f) s = .next t → GuardHolds (.chrd f) s k → regIdx → acc = .ok a →
        (∃ o : LaneOp, (t.group st.group).ops = (s.group st.group).ops ++ [o] ∧ o.lane = k ∧ o.space = a.space ∧ o.off = a.off
            ∧ o.kind = .store a.phys ((movedOn st x rest s).pop k (chuteOf f.d)).1 a.drop)
          ∧ MemoryKept s t ∧ OthersStand k s t ∧ ∀ n, (t.lane k).reg n = l.reg n)
    ∧ (∀ t a, exec (.chwr f) s = .next t → GuardHolds (.chwr f) s k → regIdx → acc = .ok a →
        (∃ o : LaneOp, (t.group st.group).ops = (s.group st.group).ops ++ [o] ∧ o.lane = k
            ∧ o.kind = .chwr a.phys (chuteOf f.d) s.serial a.drop)
          ∧ t.mem = s.mem ∧ ValuesKept l (t.lane k) ∧ ∀ j, j ≠ k → t.lane j = s.lane j)
    ∧ (∀ t, exec (.chcnt f) s = .next t → GuardHolds (.chcnt f) s k → (∀ q, f.d ≠ .q q) →
        let h := (s.team tk).chute (chuteOf f.idx)
        Passed st x rest s t ∧ Written f.d 1 (h.elems.length + 2 ^ 31 * b2n (h.closed && h.arriving.isEmpty)) l (t.lane k))
    ∧ (∀ t, exec (.chcls f) s = .next t → GuardHolds (.chcls f) s k →
        ((t.team tk).chute (chuteOf f.d)).closed = true ∧ ((t.team tk).chute (chuteOf f.d)).elems = ((s.team tk).chute (chuteOf f.d)).elems
          ∧ t.mem = s.mem ∧ ValuesKept l (t.lane k) ∧ ∀ j, j ≠ k → t.lane j = s.lane j))
  ∧ ∀ (s : State) (st : IssueStep) (q : Nat),
    let tk := teamOf st.group
    let asked := st.pend.filter (fun p => p.op == 0x135 && p.x == q)
    let h := ((st.pend.foldl (fun s p => s.applyPend st.group p) s).team tk).chute q
    (∀ p, asked.getLast? = some p → h = Chute.configured (BitVec.ofNat 64 p.y)) ∧ (asked = [] → h = ((s.team tk).chute q))

/-- A pop by a lane (11 R174 to R176). At a local consumer end it takes the head element, and the head advances; at a remote one the oldest element of the
window; at the producer end of a deque the element at the tail. The lane receives its bytes; where the chute is closed there p6 becomes true. From a closed
and empty chute it receives zero and p6 becomes false. An open chute leaves the predicates alone. No byte below host memory changes. -/
def Obligations.PopTakesTheHead : Prop :=
  ∀ (s : State) (lk q : Nat) (d : BitVec 64) (e : Element) (es : List Element),
    let tk := teamOf (lk / 32)
    let c := (s.team tk).chute q
    let r := s.pop lk q
    let h := (r.2.team tk).chute q
    let w := elemBytes (descWidth d)
    let ci := (s.team tk).coreIndex (s.group (lk / 32)).core
    let tail : Prop := descMode d = 1 ∧ producerAt (s.team tk) d = some ci
    let p6 (closed : Bool) : Prop := (closed = true → PredWritten 6 true (s.lane lk) (r.2.lane lk)) ∧ (closed = false → (r.2.lane lk).p = (s.lane lk).p)
    let dry (closed : Bool) : Prop := r.1 = List.replicate w 0 ∧ r.2 = if closed then s.setLane lk ((s.lane lk).setPred 6 false) else s
    s.Inv → c.desc = some d →
      MemoryKept s r.2 ∧ OthersStand lk s r.2 ∧ (∀ n, (r.2.lane lk).reg n = (s.lane lk).reg n)
      ∧ (¬ tail → remoteConsumer d = false →
        (c.elems = e :: es → r.1 = s.mem.readBytes (slotPhys (s.team tk) c d 0) w ∧ h.elems = es ∧ h.head = (c.head + 1) % descCap d
          ∧ p6 (s.closedHere c))
        ∧ (c.elems = [] → dry (s.closedHere c)))
      ∧ (¬ tail → remoteConsumer d = true →
        (∀ b bs, c.window = b :: bs → r.1 = b ∧ h.window = bs ∧ h.elems = c.elems ∧ p6 c.closedThere) ∧ (c.window = [] → dry c.closedThere))
      ∧ (tail →
        (c.elems = es ++ [e] → e.landed = true → r.1 = s.mem.readBytes (slotPhys (s.team tk) c d es.length) w ∧ h.elems = es ∧ h.head = c.head
          ∧ p6 (s.closedHere c))
        ∧ (c.elems = [] → dry (s.closedHere c)))

/-- Chutes as operands of the other words (02 R44, 07 R117, 11 R173, 11 R174). The operands are popped in operand order, the data of a store after its index, and
each word does with what was popped as it does with a register: long-latency words put their result in flight, comparisons, ADDC and SUBB write
their predicates, transfers go where the value says, loads and stores enter flight; MOVI and LEA push. No other register, lane or byte below host memory
changes. A push stores its bytes at the tail of a ring whose producer end is local, at once or, where accesses that it releases are still in flight, as an
operation that follows them, and sends them on their way from a remote one. That the carry of ADDC and SUBB and a predicate operand are read in the moved-on
lane, before the word's own pops set p6, is the model's choice (log 45). -/
def Obligations.ChuteOperandForms : Prop :=
  (∀ (f : RRR) (g : BF) (m : MF) (e : RI) (s : State) (st : IssueStep) (x : StepLane) (rest : List StepLane), s.Inv → AtWord s st x rest →
    let k := stepLane st x
    let l := s.lane k
    let s0 := movedOn st x rest s
    let calm (t : State) : Prop := MemoryKept s t ∧ OthersStand k s t ∧ ∀ n, (t.lane k).reg n = l.reg n
    let flies (kind : OpKind) (t : State) : Prop :=
      ∃ o : LaneOp, (t.group st.group).ops = (s.group st.group).ops ++ [o] ∧ o.lane = k ∧ o.kind = kind
    let args (row : RRRRow) : (Nat × Nat × Nat) × State := readRRR row f k s0
    let target := (x.pc + 8 * g.disp.toNat) % 2 ^ 32
    let b := s0.readOp k g.reg 1
    let i := s0.readOp k m.idx 1
    let at_ (w : Nat) : Except Trap Access := s0.laneAccess st.group m.slot.val (toSigned 32 i.1) m.off.toNat w
    (∀ w ∈ (idivWords f).map (fun w => (w, true)) ++ (fspcWords f).map (fun w => (w, false)), GuardHolds w.1.word s k →
        let y := w.1.fn (s0.lane k) (args w.1.row).1.1 (args w.1.row).1.2.1 (args w.1.row).1.2.2
        ∃ t, exec w.1.word s = .next t ∧ calm t ∧ flies (.value (regWrites f.d (slotWidth w.1.row.d) y.1) y.2 w.2) t)
    ∧ (∀ w ∈ [(Instr.addc f, Rows.addc, fnAddc f.mod.val), (Instr.subb f, Rows.subb, fnSubb f.mod.val)], GuardHolds w.1 s k →
        let y := w.2.2 (s0.lane k) (args w.2.1).1.1 (args w.2.1).1.2.1 (args w.2.1).1.2.2
        ∃ t, exec w.1 s = .next t ∧ (∀ n, f.d = .v n → Written f.d 1 y.1 l (t.lane k))
          ∧ PredWritten f.pd.val y.2 ((args w.2.1).2.lane k) (t.lane k) ∧ OthersStand k s t)
    ∧ (∀ w ∈ [(Instr.cmpS f, Rows.cmpS, fnCmpS f.mod.val), (Instr.cmpN f, Rows.cmpN, fnCmpN f.mod.val),
          (Instr.fcmpF32 f, Rows.fcmpF32, fnFcmp f.mod.val)], GuardHolds w.1 s k →
        let y := w.2.2 (s0.lane k) (args w.2.1).1.1 (args w.2.1).1.2.1 (args w.2.1).1.2.2
        ∃ t, exec w.1 s = .next t ∧ calm t ∧ PredWritten f.pd.val y.1 ((args w.2.1).2.lane k) (t.lane k)
          ∧ (t.lane k).fpflags = l.fpflags ||| y.2)
    ∧ (∀ w ∈ [(Instr.brrZ g, b.1 == 0, target), (Instr.brrNz g, b.1 != 0, target), (Instr.brrLt g, decide (toSigned 32 b.1 < 0), target),
          (Instr.brrGe g, decide (0 ≤ toSigned 32 b.1), target), (Instr.jmpi g, true, b.1), (Instr.brt g, true, (target + 16 * b.1) % 2 ^ 32),
          (Instr.calli g, true, b.1)], GuardHolds w.1 s k →
        ∃ t, exec w.1 s = .next t ∧ calm t ∧ (t.lane k).pc = BitVec.ofNat 32 (if w.2.1 then w.2.2 else x.pc + 8))
    ∧ (GuardHolds (.park g) s k → ∃ t, exec (.park g) s = .next t ∧ calm t ∧ (t.lane k).block = .park s.cycle b.1)
    ∧ (∀ w ∈ ([(Instr.ld8s m, at_ 1, fun a => .load a.phys 1 true m.d 1 a.drop), (Instr.ld8n m, at_ 1, fun a => .load a.phys 1 false m.d 1 a.drop),
          (Instr.ld16s m, at_ 2, fun a => .load a.phys 2 true m.d 1 a.drop), (Instr.ld16n m, at_ 2, fun a => .load a.phys 2 false m.d 1 a.drop),
          (Instr.ld32 m, at_ 4, fun a => .load a.phys 4 false m.d 1 a.drop), (Instr.ld64 m, at_ 8, fun a => .load a.phys 8 false m.d 2 a.drop),
          (Instr.ld128 m, at_ 16, fun a => .load a.phys 16 false m.d 4 a.drop),
          (Instr.ldsp m, s0.spillAccess st.group (i.1 + m.off.toNat), fun a => .load a.phys 4 false m.d 1 a.drop),
          (Instr.st8 m, at_ 1, fun a => .store a.phys (leBytes 1 (i.2.readOp k m.d 1).1) a.drop),
          (Instr.st16 m, at_ 2, fun a => .store a.phys (leBytes 2 (i.2.readOp k m.d 1).1) a.drop),
          (Instr.st32 m, at_ 4, fun a => .store a.phys (leBytes 4 (i.2.readOp k m.d 1).1) a.drop),
          (Instr.st64 m, at_ 8, fun a => .store a.phys (leBytes 8 (i.2.readOp k m.d 2).1) a.drop),
          (Instr.st128 m, at_ 16, fun a => .store a.phys (leBytes 16 (i.2.readOp k m.d 4).1) a.drop),
          (Instr.stsp m, s0.spillAccess st.group (i.1 + m.off.toNat), fun a => .store a.phys (leBytes 4 (i.2.readOp k m.d 1).1) a.drop)]
            : List (Instr × Except Trap Access × (Access → OpKind))), GuardHolds w.1 s k → ∀ a, w.2.1 = .ok a →
        ∃ t, exec w.1 s = .next t ∧ calm t ∧ flies (w.2.2 a) t)
    ∧ (∀ q : Fin 8, e.d = .q q →
        (GuardHolds (.movi e) s k → exec (.movi e) s = .next (s0.push k q.val (leBytes 4 e.imm.toNat)))
        ∧ (GuardHolds (.lea e) s k → let a := s0.readOp k e.a 1
            exec (.lea e) s = .next (a.2.push k q.val (leBytes 4 ((a.1 + e.imm.toNat) % 2 ^ 32))))))
  ∧ (∀ (s : State) (lk q : Nat) (bytes : List Byte) (d : BitVec 64), s.Inv → ((s.team (teamOf (lk / 32))).chute q).desc = some d →
    let tk := teamOf (lk / 32)
    let c := (s.team tk).chute q
    let t := s.push lk q bytes
    let h := (t.team tk).chute q
    let slot := slotPhys (s.team tk) c d c.elems.length
    (descPend d = 0 → s.released (lk / 32) s.serial = true → h.elems = c.elems ++ [⟨s.serial, lk / 32, s.cycle + 1, true, false⟩]
        ∧ (∀ n (hn : n < bytes.length), slot + n < 2 ^ 64 → t.mem.read (slot + n) = bytes[n])
        ∧ ∀ a, a < 2 ^ 64 → (a < slot ∨ slot + bytes.length ≤ a) → t.mem.read a = s.mem.read a)
      ∧ (descPend d = 0 → s.released (lk / 32) s.serial = false → h.elems = c.elems ++ [⟨s.serial, lk / 32, 0, false, false⟩] ∧ t.mem = s.mem
        ∧ ∃ o : LaneOp, (t.group (lk / 32)).ops = (s.group (lk / 32)).ops ++ [o] ∧ o.id = s.serial ∧ o.lane = lk ∧ o.kind = .push slot q s.serial bytes)
      ∧ (descPend d ≠ 0 → t.mem = s.mem
        ∧ h = { c with free := c.free - 1, arriving := c.arriving ++ [⟨s.serial, lk, s.stepPc lk, s.stepSerial, s.cycle + 1, bytes⟩] }))

/-! ## Words: the calliope (12) -/

/-- Class XDUC (12 R186 to R192). XTLD and XTRL leave a load or a release for the end of the step, where the highest lane that names a context decides: a
load enters flight and the copy of its own core is loading, a release empties every copy, and contexts that no lane names stay (R188, R189). XRST starts a string; XDG, XDG2 and XDU walk the
digits of their operands through the table of the context, and where the walk has no failure the state carries on and d receives the output
unless the table compares; XFIN and XCMP finish; XSTR and XSTW move xs; XLEN and XQRY answer. -/
def Obligations.TransducerWordsRun : Prop :=
  (∀ (f : XF) (s : State) (st : IssueStep) (x : StepLane) (rest : List StepLane), AtWord s st x rest →
    let k := stepLane st x
    let l := s.lane k
    let cx := (ctxOf st x).context s f.xc.val
    let h := imgHdr cx.image
    let sel := selCtrs l.clause f.fsel.val
    let r := (s.team (teamOf st.group)).record_ f.slot.val
    let loads : List Pend := sel.map (fun p => ⟨0x40, f.xc.val, (x.pos * 16 + p.1) * 16 + p.2⟩)
      ++ [⟨0xE0, f.xc.val + 8 * x.pos, (recBase r + 8 * f.toff.val) * 2 ^ 64 + (recBase r + recExtent r)⟩]
    let same (t : State) : Prop := Passed st x rest s t ∧ (t.lane k).p = l.p ∧ (t.lane k).fpflags = l.fpflags
    let xs (b : BitVec 8) (t : State) : Prop :=
      Ran st x rest s t ∧ (t.lane k).xs = b ∧ (t.lane k).c = l.c ∧ (t.lane k).live = l.live ∧ (t.lane k).fpflags = l.fpflags
    let walks (row : XRow) (regs : Nat) (t : State) : Prop :=
      ∀ q out, walkDigits cx.image f.xc.val x.pos (slotVal l row.a f.a) (slotVal l row.b f.b) (stepOrder h regs) (l.xstate, 0) = .ok (q, out) →
        xs (xsOf 1 q) t ∧ (t.lane k).p = l.p
          ∧ (if hdrCmp h = true then ∀ n, (t.lane k).reg n = l.reg n else Written f.d regs out l (t.lane k))
    let e := imgFinal cx.image l.xstate
    let n := bits e 9 8
    let c := bits e 11 10
    ∀ w ∈ ([(Instr.xtld f, fun t =>
          t.turn = .issue { st with todo := rest, pend := st.pend ++ loads }
            ∧ LaneOnly k s t ∧ ValuesKept l (t.lane k) ∧ (t.lane k).c = (l.raise sel).c),
        (Instr.xtrl f, Left [⟨0xE1, f.xc.val + 8 * x.pos, 0⟩] st x rest s),
        (Instr.xrst f, fun t => xs (xsOf 0 (hdrStart h)) t ∧ ValuesKept l (t.lane k)),
        (Instr.xdg f, walks Rows.xdg 1), (Instr.xdg2 f, walks Rows.xdg2 2), (Instr.xdu f, walks Rows.xdu 1),
        (Instr.xfin f, fun t => xs (xsOf 2 l.xstate) t ∧ (t.lane k).p = l.p
          ∧ Written f.d 1 ((if 1 ≤ n then bits e 3 0 else 0) + (if n = 2 then bits e 7 4 * 2 ^ hdrWidth h else 0) + n * 2 ^ 28) l (t.lane k)),
        (Instr.xcmp f, fun t => Passed st x rest s t ∧ (∀ m, (t.lane k).reg m = l.reg m) ∧ (t.lane k).fpflags = l.fpflags
          ∧ (f.pd.val < 7 → (t.lane k).p.getLsbD f.pd.val = (c == 1 || c == 0))
          ∧ (f.pd.val < 6 → (t.lane k).p.getLsbD (f.pd.val + 1) = (c == 2 || c == 0))
          ∧ ∀ m, m ≠ f.pd.val → m ≠ f.pd.val + 1 → (t.lane k).p.getLsbD m = l.p.getLsbD m),
        (Instr.xstr f, fun t => same t ∧ Written f.d 1 l.xs.toNat l (t.lane k)),
        (Instr.xstw f, fun t => xs (BitVec.ofNat 8 (operandVal l f.a 1)) t ∧ ValuesKept l (t.lane k)),
        (Instr.xlen f, fun t => same t ∧ ∃ m, Written f.d 1 m l (t.lane k) ∧ m ≤ digitsOf (hdrWidth h)
          ∧ (∀ i, m ≤ i → i < digitsOf (hdrWidth h) → digitAt (hdrWidth h) (operandVal l f.a 1) i = 0)
          ∧ (m ≠ 0 → digitAt (hdrWidth h) (operandVal l f.a 1) (m - 1) ≠ 0)),
        (Instr.xqry f, fun t => same t ∧ Written f.d 1 (queryWord cx) l (t.lane k))] : List (Instr × (State → Prop))),
      ∃ t, exec w.1 s = .next t
        ∧ (¬ GuardHolds w.1 s k → PassedOver st x rest s t)
        ∧ (GuardHolds w.1 s k → noChute w.1 = true → w.2 t))
  ∧ ∀ (s : State) (st : IssueStep) (xc : Nat), xc < 8 →
    let tk := teamOf st.group
    let t := s.endContexts st
    let copy (u : State) (ci : Nat) : Context := (u.team tk).contexts.getD (ci * 8 + xc) Context.empty
    let asked := st.pend.filter (fun p => p.x % 8 == xc && (p.op == 0xE0 || p.op == 0xE1))
    t.mem = s.mem ∧ (∀ j, ValuesKept (s.lane j) (t.lane j) ∧ (t.lane j).pc = (s.lane j).pc)
      ∧ (asked = [] → ∀ ci, copy t ci = copy s ci)
      ∧ (∀ p, asked.getLast? = some p → p.op = 0xE1 → ∀ ci, ci < (s.team tk).cores.length → copy t ci = Context.empty)
      ∧ (∀ p, asked.getLast? = some p → p.op = 0xE0 →
          copy t ((s.team tk).coreIndex (s.group st.group).core) = { Context.empty with cond := 1 }
            ∧ ∃ o ∈ (t.group st.group).ops, o.lane = laneKey st.group (p.x / 8)
              ∧ o.kind = .xtld ((s.team tk).chamberPhys (p.y / 2 ^ 64)) xc (p.y / 2 ^ 64) (p.y % 2 ^ 64)
                  (List.range (s.team tk).cores.length) none)

/-! ## Words: the group operations (07 R122 to R129, 05 R98 to R101) -/

/-- Class GRUP at its word (07 R122): every lane arrives, whatever its guard says, keeps its operands where its guard is true, and stays at its word;
nothing else has changed. -/
def Obligations.GroupWordsArrive : Prop :=
  ∀ (f : GF) (s : State) (st : IssueStep) (x : StepLane) (rest : List StepLane), AtWord s st x rest →
    let k := stepLane st x
    let l := s.lane k
    ∀ w ∈ groupWords f, ∃ t a, exec w.1 s = .next t ∧ Waits (.rendezvous a) st x rest s t
      ∧ a.tag = f.tag.val ∧ a.op = w.2.1 ∧ a.imm = f.imm.val ∧ a.pred = l.guard f.g
      ∧ a.a.toNat = arrivedVal (l.guard f.g) l w.2.2.a f.a % 2 ^ 128 ∧ a.b.toNat = arrivedVal (l.guard f.g) l w.2.2.b f.b % 2 ^ 128
      ∧ a.c.toNat = arrivedVal (l.guard f.g) l w.2.2.c f.c % 2 ^ 128
      ∧ (w.2.2.d ≠ .unused → a.dst = f.d) ∧ (w.2.2.pd ≠ .none → a.pd = f.pd.val)

/-- A rendezvous whose arrivals name one tag completes (07 R123 to R128): every arrived lane moves past its word and may issue 4 cycles later; a lane
whose guard was true receives what the operation gives its position, with the flags of the operation; one whose guard was false receives
nothing; no other lane and no memory changes. Under G16 each half is a domain of its own, and neither waits for the other (07 R129). The rendezvous of a group without G16 at the end of a step (07 R123, R124): it completes when every live lane has arrived on one tag at an operation
other than GROW and SHRINK; while a live lane has not arrived nothing happens. -/
def Obligations.RendezvousRuns : Prop :=
  (∀ (s : State) (gk base n : Nat) (p0 : Nat) (a0 : Arrival) (more : AList Arrival),
    let arr := (p0, a0) :: more
    (arr.map (·.1)).Nodup → (∀ p ∈ arr, p.1 < 32) →
      let t := s.runGroupOp gk base n arr
      let kept (fn : Arrival → Nat) : Kept := (arr.filter (fun p => p.2.pred)).map (fun p => (p.1 - base, fn p.2))
      let xv := if a0.op = 0x117 then kept (fun _ => 1) else kept (fun a => a.a.toNat)
      let bv := kept (fun a => a.b.toNat)
      let cv := kept (fun a => a.c.toNat)
      (∀ p ∈ arr,
          let l := s.lane (laneKey gk p.1)
          let m := t.lane (laneKey gk p.1)
          let r := given a0.op a0.imm n xv bv cv (p.1 - base)
          m.block = .free ∧ m.pc = BitVec.ofNat 32 (l.nextAt + 8) ∧ m.readyAt = s.cycle + 4 ∧ m.live = l.live ∧ m.c = l.c
            ∧ (p.2.pred = true → Written p.2.dst (givenWidth a0.op) r.d l m ∧ PredWritten p.2.pd r.p l m
                ∧ m.fpflags = l.fpflags ||| givenFlags a0.op n xv bv)
            ∧ (p.2.pred = false → ValuesKept l m))
        ∧ (∀ j, (∀ p ∈ arr, j ≠ laneKey gk p.1) → t.lane j = s.lane j) ∧ t.mem = s.mem ∧ t.groups = s.groups ∧ t.teams = s.teams)
  ∧ (∀ (s : State) (gk : Nat), (s.team (teamOf gk)).kernel.g16 = false → (s.group gk).grant = none →
    let live := s.liveLanes gk
    let arr : AList Arrival := live.filterMap (fun p => (s.arrival gk p).map (fun a => (p, a)))
    (∀ p a more, arr = (p, a) :: more → arr.length = live.length → (∀ q ∈ arr, q.2.tag = a.tag) → spansGroup a.op = false →
        s.endRendezvous gk = s.runGroupOp gk 0 32 arr)
      ∧ (arr.length < live.length → s.endRendezvous gk = s))
  ∧ (∀ (s : State) (gk : Nat), (s.team (teamOf gk)).kernel.g16 = true → (s.group gk).grant = none → s.allAtGrant gk = false →
      s.endRendezvous gk = (s.endDomain gk 0 16).endDomain gk 16 16)
  ∧ (∀ (s : State) (gk base n : Nat),
    let live := (s.liveLanes gk).filter (fun p => base ≤ p && p < base + n)
    let arr : AList Arrival := live.filterMap (fun p => (s.arrival gk p).map (fun a => (p, a)))
    ((∀ p a more, arr = (p, a) :: more → arr.length = live.length → (∀ q ∈ arr, q.2.tag = a.tag) → spansGroup a.op = false →
        s.endDomain gk base n = s.runGroupOp gk base n arr)
      ∧ (arr.length < live.length → s.endDomain gk base n = s)
      ∧ (arr.length = live.length → (∃ p ∈ arr, ∃ q ∈ arr, p.2.tag ≠ q.2.tag) →
          n = 32 ∨ (∃ p ∈ arr, spansGroup p.2.op = false) →
          s.endDomain gk base n = s.trapArrived gk ⟨55, 6, 0⟩ live)))


/-- GROW and SHRINK (05 R98 to R101): a GROW within the budget and the pool of its core queues one request, in order of rendezvous completion and, of one
cycle, by port and then slot, and its lanes stay; when the granules of the request at the head of a core's queue are free GRANT_SERVE adds them, unless
the request is of this cycle and a lower port may still make another before it, and its registers read zero; SHRINK gives the last granules back at once. -/
def Obligations.GrantsAddAndReturn : Prop :=
  (∀ (s : State) (gk : Nat) (a : Arrival) (ps : List Nat), a.op = 0x11A → (s.group gk).grants + a.imm ≤ (s.group gk).budget →
      (s.coreGroups (s.group gk).core).length + (s.group gk).grants + a.imm ≤ (s.core (s.group gk).core).pool.length →
      let t := s.runGrant gk a ps
      let q := (s.core (s.group gk).core).grants
      (t.group gk).grant = some a.imm ∧ (t.group gk).grantAt = s.cycle
        ∧ (∃ before after, (t.core (s.group gk).core).grants = before ++ gk :: after
            ∧ (∀ k ∈ before, k ∈ q ∧ grantPlace t k < grantPlace t gk) ∧ (∀ k ∈ after, k ∈ q ∧ grantPlace t gk ≤ grantPlace t k)
            ∧ ∀ k ∈ q, k ∈ before ∨ k ∈ after)
        ∧ ((∀ k ∈ q, k ≠ gk ∧ (s.group k).grantAt < s.cycle ∧ (s.group k).port < 4 ∧ (s.group k).slot < 8) →
            (t.core (s.group gk).core).grants = q ++ [gk])
        ∧ (t.group gk).granules = (s.group gk).granules ∧ t.lanes = s.lanes ∧ t.mem = s.mem)
    ∧ (∀ (s : State) (gk : Nat) (a : Arrival) (ps : List Nat), a.op = 0x11B → a.imm ≤ (s.group gk).grants →
      let t := s.runGrant gk a ps
      (t.group gk).granules = (s.group gk).granules.take ((s.group gk).granules.length - a.imm) ∧ t.mem = s.mem ∧ t.cores = s.cores
        ∧ ∀ j n, (t.lane j).reg n = (s.lane j).reg n)
    ∧ (∀ (s : State) (core gk n : Nat) (more : List Nat), (s.core core).grants = gk :: more → (s.group gk).grant = some n → (s.group gk).core = core →
      n ≤ (s.freeGranules core).length →
      let first := (s.group gk).grantAt < s.cycle ∨ ∀ p, p < (s.group gk).port → s.portDone core p = true
      (¬ first → exec (.grantServe core) s = .next s)
      ∧ (first → ∃ t, exec (.grantServe core) s = .next t
        ∧ (t.group gk).granules = (s.group gk).granules ++ (s.freeGranules core).take n ∧ (t.group gk).grant = none
        ∧ (t.core core).grants = more.filter (· != gk) ∧ t.mem = s.mem ∧ t.teams = s.teams
        ∧ (∀ p r, p < 32 → 32 * (s.group gk).granules.length ≤ r → r < 32 * ((s.group gk).granules.length + n) →
            (t.lane (laneKey gk p)).reg r = 0)
        ∧ (∀ j r, r < 32 * (s.group gk).granules.length → (t.lane j).reg r = (s.lane j).reg r)
        ∧ ∀ j, j ≠ gk → t.group j = s.group j))

/-! ## Words: the engines (15) -/

/-- The command words (15 R211 to R217): the operands are read, the records of the slots are captured as they stand, and the command enters the queue
with its place in its class, parked where an older command of its class and group is; the counter of the class rises and the lane goes on. Memory, the teams and everything the command will do are untouched
at issue. A command of no elements completes at once (15 R219); one whose record, or an element of which known at issue, names a reserved device or die number
moves nothing and completes with fault 6 (14 R196). That a command behind a parked one enters parked is the model's choice (log 71), and so is what counts as
known at issue (log 24). -/
def Obligations.CommandWordsEnter : Prop :=
  ∀ (f : EF) (s : State) (st : IssueStep) (x : StepLane) (rest : List StepLane), AtWord s st x rest →
    let k := stepLane st x
    let l := s.lane k
    let g := s.group st.group
    let tm := s.team (teamOf st.group)
    ∀ w ∈ commandWords f, ∃ t, exec w.1 s = .next t
      ∧ (¬ GuardHolds w.1 s k → PassedOver st x rest s t)
      ∧ (GuardHolds w.1 s k → noChute w.1 = true → ∃ c : Command,
          c.op = w.2.1 ∧ c.group = st.group ∧ c.lane = x.pos ∧ c.cls = f.oclass.val ∧ c.seq = g.issued.getD f.oclass.val 0 ∧ c.pc = x.pc
            ∧ c.chan = f.chan.val ∧ c.dst = f.d ∧ c.fault = none ∧ c.inh = g.handler
            ∧ c.st = (match s.cmds.find? (fun o => s.owns st.group o.2 && o.2.cls == f.oclass.val && o.2.st == .parked) with
                | none => CmdState.queued
                | some _ => .parked)
            ∧ c.performed = [] ∧ c.epoch = g.epoch ∧ c.sdN = f.sd.val ∧ c.ssN = f.ss.val ∧ c.sxN = f.sx.val
            ∧ c.ss = tm.record_ f.ss.val ∧ c.sx = tm.record_ f.sx.val
            ∧ (w.2.1 ≠ 0x143 → c.sd = tm.record_ f.sd.val)
            ∧ (w.2.1 = 0x143 → c.entry = tm.tt.getD (recTtlink (tm.record_ f.ss.val)) 0)
            ∧ c.d = srcVal l w.2.2.d f.d ∧ c.cnt = srcVal l w.2.2.cnt f.cnt
            ∧ c.aux = (if w.2.1 = 0x145 ∧ 4 < recSize (tm.record_ f.sd.val) then operandVal l f.aux 2 else srcVal l w.2.2.aux f.aux)
            ∧ (c.units ≠ 0 → tm.reservedFor w.2.2 f c = none →
                t.cmds.get? s.serial = some c ∧ (∀ j, j ≠ s.serial → t.cmds.get? j = s.cmds.get? j)
                  ∧ (t.group st.group).outstanding f.oclass.val = g.outstanding f.oclass.val + 1
                  ∧ (t.group st.group).issued.getD f.oclass.val 0 = g.issued.getD f.oclass.val 0 + 1
                  ∧ MovedOn st x rest t ∧ ValuesKept l (t.lane k) ∧ t.mem = s.mem ∧ t.teams = s.teams ∧ t.cores = s.cores
                  ∧ (∀ j, j ≠ k → t.lane j = s.lane j) ∧ ∀ j, j ≠ st.group → t.group j = s.group j)
            ∧ (c.units ≠ 0 → ∀ z, tm.reservedFor w.2.2 f c = some z → s.cmds.get? s.serial = none →
                (t.group st.group).issued.getD f.oclass.val 0 = g.issued.getD f.oclass.val 0 + 1
                  ∧ ∃ e, t.cmds.get? s.serial = some e ∧ e.st = .done ∧ e.performed = []
                      ∧ e.fault = some { addr := z.2.1, ord := z.2.2, code := 6, slot := z.1 })
            ∧ (c.units = 0 → s.cmds.get? s.serial = none →
                (t.group st.group).issued.getD f.oclass.val 0 = g.issued.getD f.oclass.val 0 + 1
                  ∧ ∀ e, t.cmds.get? s.serial = some e → e.st = .done ∧ e.fault = none ∧ e.performed = []))

/-- WAITC, RDC, ECAN and FENCEE (15 R229 to R233). WAITC passes where its counter is down and no fault it needs stands, and waits where the counter is above;
RDC answers the counter or the skip count as held at the start of the step, and select 2 clears the skips; ECAN answers how many commands it
ends; FENCEE opens a new epoch. -/
def Obligations.EngineControlWordsRun : Prop :=
  ∀ (f : EF) (s : State) (st : IssueStep) (x : StepLane) (rest : List StepLane), AtWord s st x rest →
    let k := stepLane st x
    let l := s.lane k
    let g := s.group st.group
    let cls := f.oclass.val
    let n := f.cnt.code
    (∀ i ∈ [Instr.waitc f, .rdc f, .ecan f, .fencee f], ∃ t, exec i s = .next t ∧ (¬ GuardHolds i s k → PassedOver st x rest s t)
        ∧ (noChute i = true → t.mem = s.mem))
    ∧ (GuardHolds (.waitc f) s k → s.groupHalted st.group = false → (s.team (teamOf st.group)).residency = .resident →
        (g.outstanding cls ≤ n → s.waitFault st.group cls n = none → ∃ t, exec (.waitc f) s = .next t ∧ PassedOver st x rest s t)
        ∧ (n < g.outstanding cls → s.needed st.group cls n (fun c => c.st == .parked) = none →
            ∃ t, exec (.waitc f) s = .next t ∧ Waits (.waitc cls n x.pc) st x rest s t))
    ∧ (GuardHolds (.rdc f) s k → noChute (.rdc f) = true → ∃ t, exec (.rdc f) s = .next t
        ∧ MovedOn st x rest t ∧ Written f.d 1 (if n = 0 then st.oc0.getD cls 0 else st.skips0.getD cls 0) l (t.lane k)
        ∧ (t.group st.group).skips.getD cls 0 = (if n = 2 then 0 else g.skips.getD cls 0)
        ∧ (∀ j, j ≠ cls → (t.group st.group).skips.getD j 0 = g.skips.getD j 0)
        ∧ (∀ j, j ≠ k → t.lane j = s.lane j) ∧ (∀ j, j ≠ st.group → t.group j = s.group j) ∧ t.cmds = s.cmds ∧ t.teams = s.teams)
    ∧ (GuardHolds (.ecan f) s k → noChute (.ecan f) = true → ∃ t, exec (.ecan f) s = .next t
        ∧ Written f.d 1 (if ecanBelow (ctxOf st x) s then 0
            else (s.cmds.filter (fun c => s.owns st.group c.2 && c.2.cls == cls && s.endable c.2)).length) l (t.lane k)
        ∧ (t.lane k).pc = BitVec.ofNat 32 (x.pc + 8) ∧ t.mem = s.mem ∧ ∀ j, j ≠ st.group → t.group j = s.group j)
    ∧ (GuardHolds (.fencee f) s k → ∃ t, exec (.fencee f) s = .next t
        ∧ MovedOn st x rest t ∧ (t.group st.group).epoch = g.epoch + 1 ∧ ValuesKept l (t.lane k) ∧ (∀ j, j ≠ k → t.lane j = s.lane j)
        ∧ (∀ j, j ≠ st.group → t.group j = s.group j) ∧ t.cmds = s.cmds ∧ t.teams = s.teams)

/-! ## Words: the matrix engine (17) -/

/-- TTSET, TTGET, MSTART, MSTOP and MSTAT (17 R248, R251). TTSET leaves its entry for the end of the step, where the highest lane's stands; TTGET reads the entry as held at its start; MSTART
by the highest lane that executes it starts the stream at a, with an empty loop stack, and counts in the matrix class; MSTOP ends a running stream
and is nothing otherwise; MSTAT reads the status word. That MSTOP ends a stream at once, even one that waits, and when the fault bit changes, is the model's
reading (log 29). -/
def Obligations.MatrixLaneWordsRun : Prop :=
  (∀ (s : State) (st : IssueStep) (n : Nat),
    let tk := teamOf st.group
    let asked := st.pend.filter (fun p => p.op == 0x160 && p.x == n)
    let t := st.pend.foldl (fun s p => s.applyPend st.group p) s
    (∀ p, asked.getLast? = some p → (t.team tk).tt.get? n = some (BitVec.ofNat 128 p.y))
      ∧ (asked = [] → (t.team tk).tt.get? n = (s.team tk).tt.get? n))
  ∧ ∀ (f : SF) (s : State) (st : IssueStep) (x : StepLane) (rest : List StepLane), AtWord s st x rest →
    let k := stepLane st x
    let l := s.lane k
    let tk := teamOf st.group
    let tm := s.team tk
    (∀ i ∈ [Instr.ttset f, .ttget f, .mstart f, .mstop f, .mstat f], ∃ t, exec i s = .next t ∧ (¬ GuardHolds i s k → PassedOver st x rest s t))
    ∧ (GuardHolds (.ttset f) s k → noChute (.ttset f) = true → ∃ t, exec (.ttset f) s = .next t
        ∧ Left [⟨0x160, f.imm.toNat, operandVal l f.a 4⟩] st x rest s t)
    ∧ (GuardHolds (.ttget f) s k → noChute (.ttget f) = true → ∃ t, exec (.ttget f) s = .next t
        ∧ Passed st x rest s t ∧ Written f.d 4 (st.tt0.getD f.imm.toNat 0).toNat l (t.lane k) ∧ (t.lane k).p = l.p
        ∧ (t.lane k).fpflags = l.fpflags)
    ∧ (GuardHolds (.mstart f) s k → noChute (.mstart f) = true → mstartAbove (ctxOf st x) s = false → ∃ t, exec (.mstart f) s = .next t
        ∧ MovedOn st x rest t ∧ ValuesKept l (t.lane k) ∧ t.mem = s.mem
        ∧ (t.team tk).seqr = { tm.seqr with
            run := true, spc := operandVal l f.a 1, loops := [], status := 0, wait := .free, starter := s.serial, halted := false,
            red := tm.kernel.redmx }
        ∧ (tm.kernel.redmx = false → (t.team tk).tiles = tm.tiles) ∧ (t.team tk).tt = tm.tt
        ∧ (t.group st.group).outstanding 3 = (s.group st.group).outstanding 3 + 1
        ∧ (∃ c, t.cmds.get? s.serial = some c ∧ c.op = 0x162 ∧ c.cls = 3 ∧ c.group = st.group)
        ∧ (∀ j, j ≠ tk → t.team j = s.team j) ∧ (∀ j, j ≠ k → t.lane j = s.lane j))
    ∧ (GuardHolds (.mstart f) s k → noChute (.mstart f) = true → mstartAbove (ctxOf st x) s = true → ∃ t, exec (.mstart f) s = .next t
        ∧ PassedOver st x rest s t)
    ∧ (GuardHolds (.mstop f) s k → tm.seqr.run = false → ∃ t, exec (.mstop f) s = .next t ∧ PassedOver st x rest s t)
    ∧ (GuardHolds (.mstop f) s k → tm.seqr.run = true → ∃ t, exec (.mstop f) s = .next t
        ∧ (t.team tk).seqr.run = false ∧ (t.team tk).seqr.fault = false ∧ (t.team tk).seqr.spc = tm.seqr.spc ∧ (t.team tk).tiles = tm.tiles
        ∧ t.mem = s.mem ∧ MovedOn st x rest t)
    ∧ (GuardHolds (.mstat f) s k → noChute (.mstat f) = true → ∃ t, exec (.mstat f) s = .next t
        ∧ Passed st x rest s t ∧ Written f.d 2 (if tm.kernel.acc = 0 then 0 else tm.seqr.word) l (t.lane k) ∧ (t.lane k).p = l.p
        ∧ (t.lane k).fpflags = l.fpflags)

/-- The stream words answer a next state in every turn of a sequencer; a word whose trap condition holds ends in a stream fault, which writes nothing else
(17 R252, R255). -/
def Obligations.StreamWordsAnswer : Prop :=
  ∀ (f : MSF) (s : State) (tk : Nat), s.turn = .stream tk →
    (∀ i ∈ [Instr.mmac f, .mzero f, .mdrain f, .mbara f, .mbarw f, .mloop f, .mloopEnd f, .mjmp f, .mend f, .mred f, .mldacc f, .mstacc f,
        .msel f, .mscl f, .mwaitc f, .mnop f], ∃ t, exec i s = .next t)
    ∧ (∀ w ∈ [(Instr.mmac f, mmacPoint f), (.mdrain f, mdrainPoint f), (.mldacc f, mldaccPoint f),
          (.mstacc f, mstaccPoint f), (.msel f, mselPoint f), (.mscl f, mscalePoint f), (.mloop f, mloopPoint f), (.mloopEnd f, mloopEndPoint)],
        ∀ cause detail, w.2.own tk (s.setTurn .idle) = some (cause, detail) →
          ∃ t, exec w.1 s = .next t ∧ t.mem = s.mem ∧ (t.team tk).tiles = (s.team tk).tiles ∧ (t.team tk).seqr.run = false
            ∧ (t.team tk).seqr.fault = true ∧ (t.team tk).seqr.spc = (s.team tk).seqr.spc ∧ (t.team tk).seqr.loops = (s.team tk).seqr.loops
            ∧ (t.team tk).seqr.slots = (s.team tk).seqr.slots ∧ (t.team tk).tt = (s.team tk).tt)

/-- The stream words on the tiles and tensors (17 R254 to R256), where no watchpoint is set and their trap conditions do not hold: MSEL puts an entry in a slot;
MMAC adds its products to the tile, cell by cell, and records where it stands; MZERO, which has no trap condition, clears a tile; MSCL adds to the scale of a slot's entry; MDRAIN stores
the drained elements of its tile row by row, where no two of their bytes stand in one place, and MSTACC the images of its cells, and both write the
chamber ranges of their target and nothing else; MLDACC loads the cells of a tile. -/
def Obligations.StreamTileWordsRun : Prop :=
  ∀ (f : MSF) (s : State) (tk : Nat), s.Inv → s.turn = .stream tk → Unwatched s →
    let tm := s.team tk
    let e := tm.tt.getD f.tt.toNat 0
    let p := f.oslot.val
    let tile (t : State) : Tile := (t.team tk).tile f.acc.val
    let otherTiles (t : State) : Prop := ∀ n, n ≠ f.acc.val → (t.team tk).tile n = tm.tile n
    let quiet (pt : StreamPoint) : Prop := pt.own tk (s.setTurn .idle) = none
    let moved (t : State) : Prop :=
      (t.team tk).seqr = { tm.seqr with spc := tm.seqr.spc + 8, wait := .free, status := (t.team tk).seqr.status }
        ∧ (t.team tk).seqr.status &&& tm.seqr.status = tm.seqr.status
    let rows := (List.range 32).filter (fun i => 32 * f.ti.toNat + i < ttRows e)
    let drained (i : Nat) : List (Nat × Byte) := s.drainRow tm e f.ti.toNat f.tj.toNat i (drainAll e f.mode.val f.tj.toNat (tm.tile f.acc.val) i)
    let places : List Nat := rows.flatMap (fun i => (drained i).map (fun y => tm.chamberPhys y.1))
    (quiet (mselPoint f) → ∃ t, exec (.msel f) s = .next t ∧ StreamOnly tk s t ∧ (t.team tk).tiles = tm.tiles
        ∧ (t.team tk).seqr = { tm.seqr with spc := tm.seqr.spc + 8, wait := .free, slots := tm.seqr.slots.put p (e, f.tt.toNat) })
    ∧ (∃ t, exec (.mzero f) s = .next t ∧ StreamOnly tk s t ∧ WordDone tk s t ∧ tile t = Tile.zero ∧ otherTiles t)
    ∧ (quiet (mscalePoint f) → ∀ ea id, tm.slot p = some (ea, id) → ∃ t eb, exec (.mscl f) s = .next t ∧ StreamOnly tk s t
        ∧ (t.team tk).tiles = tm.tiles ∧ (t.team tk).slot p = some (eb, id) ∧ ttScale eb = ttScale ea + toSigned 8 f.k0.toNat
        ∧ ttBase eb = ttBase ea ∧ ttFmt eb = ttFmt ea ∧ ttRows eb = ttRows ea ∧ ttCols eb = ttCols ea
        ∧ (∀ q, q ≠ p → (t.team tk).slot q = tm.slot q) ∧ (t.team tk).seqr.spc = tm.seqr.spc + 8)
    ∧ (quiet (mmacPoint f) → ∀ ea ia eb ib, tm.slot p = some (ea, ia) → tm.slot (p + 1) = some (eb, ib) →
        let ks := List.range (64 * (f.kn.toNat + 1))
        let vals (i j : Nat) : List (TVal × TVal) := ks.map (fun q =>
          (s.elem tm ea (32 * f.ti.toNat + i) (64 * f.k0.toNat + q), s.elem tm eb (32 * f.tj.toNat + j) (64 * f.k0.toNat + q)))
        ∃ t, exec (.mmac f) s = .next t ∧ StreamOnly tk s t ∧ moved t ∧ otherTiles t
          ∧ (tile t).tta = ia ∧ (tile t).ttb = ib ∧ (tile t).ti = f.ti.toNat ∧ (tile t).tj = f.tj.toNat
          ∧ ∀ i j, i < 32 → j < 32 →
              (tile t).cell i j = (macCell tm.seqr.red (ttScale ea + ttScale eb) (vals i j) ((tm.tile f.acc.val).cell i j)).1)
    ∧ (quiet (mdrainPoint f) → ∃ t, exec (.mdrain f) s = .next t ∧ StreamStores tk (drainRanges e f.ti.toNat f.tj.toNat) s t ∧ moved t
        ∧ (t.team tk).tiles = tm.tiles
        ∧ (32 * f.tj.toNat < ttCols e → places.Nodup → ∀ i ∈ rows, ∀ y ∈ drained i, t.mem.read (tm.chamberPhys y.1) = y.2))
    ∧ (quiet (mldaccPoint f) → ∃ t, exec (.mldacc f) s = .next t ∧ StreamOnly tk s t ∧ WordDone tk s t ∧ otherTiles t
        ∧ ∀ i j, i < 32 → j < 32 →
            let c := Cell.ofImage (s.chamberRead tm (ttBase e + 80 * (32 * i + j)) 80)
            (tile t).cell i j = if tm.seqr.red then c.shadowed else c)
    ∧ (quiet (mstaccPoint f) → ∃ t, exec (.mstacc f) s = .next t ∧ StreamStores tk [(ttBase e, 81920)] s t ∧ WordDone tk s t
        ∧ (t.team tk).tiles = tm.tiles
        ∧ ((∀ a b, a < 81920 → b < 81920 → tm.chamberPhys (ttBase e + a) = tm.chamberPhys (ttBase e + b) → a = b) → ∀ k y, k < 1024 → y < 80 →
            t.mem.read (tm.chamberPhys (ttBase e + 80 * k + y)) = ((tm.tile f.acc.val).cell (k / 32) (k % 32)).image.getD y 0))

/-- The stream words of control (17 R247, R254, R256, R257), where no watchpoint is set: MNOP moves on; MLOOP and its end keep the loop stack; MJMP goes to
its target; MRED sets the mode; MWAITC, MBARA and MBARW move on or wait; MEND ends the stream whatever the loop stack holds. -/
def Obligations.StreamControlWordsRun : Prop :=
  ∀ (f : MSF) (s : State) (tk : Nat), s.turn = .stream tk → Unwatched s →
    let tm := s.team tk
    let q := tm.seqr
    let alone (t : State) : Prop := StreamOnly tk s t ∧ (t.team tk).tiles = tm.tiles
    let on : Sequencer := { q with spc := q.spc + 8, wait := .free }
    let b := tm.barrier f.nb.val
    let copies := s.copiesOut tk
    (∃ t, exec (.mnop f) s = .next t ∧ alone t ∧ (t.team tk).seqr = on)
    ∧ (q.loops.length < 4 → ∃ t, exec (.mloop f) s = .next t ∧ alone t ∧ (t.team tk).seqr = { on with loops := (q.spc + 8, f.wide) :: q.loops })
    ∧ (4 ≤ q.loops.length → ∃ t, exec (.mloop f) s = .next t ∧ (t.team tk).seqr = { q with run := false, wait := .free, fault := true })
    ∧ (∀ start n more, q.loops = (start, n) :: more → ∃ t, exec (.mloopEnd f) s = .next t ∧ alone t
        ∧ (t.team tk).seqr = if n - 1 = 0 then { on with loops := more } else { q with loops := (start, n - 1) :: more, spc := start })
    ∧ (q.loops = [] → ∃ t, exec (.mloopEnd f) s = .next t ∧ (t.team tk).seqr = { q with run := false, wait := .free, fault := true })
    ∧ (∃ t, exec (.mjmp f) s = .next t ∧ alone t
        ∧ (t.team tk).seqr = { q with spc := ofSigned 36 ((q.spc : Int) + 8 * toSigned 32 f.wide) })
    ∧ (∃ t, exec (.mend f) s = .next t ∧ (t.team tk).seqr = { q with run := false, wait := .free, fault := false, spc := q.spc + 8 }
        ∧ (t.team tk).tiles = tm.tiles ∧ t.mem = s.mem)
    ∧ (f.mode.val ≠ 1 → ∃ t, exec (.mred f) s = .next t ∧ alone t ∧ (t.team tk).seqr = { on with red := false })
    ∧ (f.mode.val = 1 → ∃ t, exec (.mred f) s = .next t ∧ StreamOnly tk s t ∧ (t.team tk).seqr = { on with red := true }
        ∧ ∀ n i j, n < tm.kernel.acc → i < 32 → j < 32 → ((t.team tk).tile n).cell i j = ((tm.tile n).cell i j).shadowed)
    ∧ (∃ t, exec (.mwaitc f) s = .next t ∧ alone t
        ∧ (t.team tk).seqr = if copies ≤ f.k0.toNat then on else { q with wait := .copies f.k0.toNat })
    ∧ (b.seq = true → ∃ t, exec (.mbara f) s = .next t ∧ alone t ∧ (t.team tk).seqr = { q with wait := .barArrive f.nb.val })
    ∧ (b.seq = false → ∃ t, exec (.mbara f) s = .next t ∧ (t.team tk).seqr = on ∧ (t.team tk).tiles = tm.tiles ∧ t.mem = s.mem
        ∧ (t.team tk).barrier f.nb.val ≠ b)
    ∧ (∃ t, exec (.mbarw f) s = .next t ∧ alone t
        ∧ (t.team tk).seqr = if b.last.get? 200 = some b.phase.toNat then { q with wait := .barWait f.nb.val b.phase.toNat } else on)

/-! ## Words: synchronization (18 R268 to R276) -/

/-- FENCE, BAR, BARA, BARW, BARI, GBARA and GBARW (18 R262, R271 to R273). A fence comes into force for its group, and each scope it may name holds the parties of
the narrower ones; a lane of BARA or GBARA arrives and moves on, or
waits to arrive where its group's arrival in the phase is complete; BARW and GBARW wait while the phase of the group's last counted arrival is
current, or of one that is complete and not yet counted; BAR arrives and waits for the phase; BARI leaves the expected count for the end of the step, where the highest lane's stands. Memory and the other teams stay.
What a lane finds at a barrier whose arrivals are complete and not yet counted, and the number under which a handler group arrives, are the model's choice
(log 34). -/
def Obligations.BarrierWordsRun : Prop :=
  (∀ (f : SF) (s : State) (st : IssueStep) (x : StepLane) (rest : List StepLane), AtWord s st x rest →
    let k := stepLane st x
    let l := s.lane k
    let tk := teamOf st.group
    let gi := s.party st.group
    let bit_ : BitVec 32 := 1#32 <<< x.pos
    let arrives (nb : Nat) (t : State) : Prop :=
      let b := (s.team tk).barrier nb
      (t.team tk).barrier nb = { b with lanes := b.lanes.put gi (b.lanes.getD gi 0 ||| bit_), serials := b.serials.put gi s.serial }
        ∧ (∀ n, n ≠ nb → (t.team tk).barrier n = (s.team tk).barrier n) ∧ (∀ j, j ≠ tk → t.team j = s.team j) ∧ t.mem = s.mem
        ∧ t.groups = s.groups ∧ ValuesKept l (t.lane k) ∧ ∀ j, j ≠ k → t.lane j = s.lane j
    let arrived (nb : Nat) : Prop := gi ∈ ((s.team tk).barrier nb).counted ∨ s.arrivedInFull st.group nb = true
    let waitsFor (nb : Nat) : Prop :=
      ((s.team tk).barrier nb).last.get? gi = some ((s.team tk).barrier nb).phase.toNat ∨ s.arrivedInFull st.group nb = true
    let n := f.imm.toNat % 16
    (∀ i ∈ [Instr.fence f, .bar f, .bara f, .barw f, .bari f, .gbara f, .gbarw f], ∃ t, exec i s = .next t
        ∧ (¬ GuardHolds i s k → PassedOver st x rest s t))
    ∧ (GuardHolds (.fence f) s k → ∃ t, exec (.fence f) s = .next t
        ∧ MovedOn st x rest t ∧ (⟨f.imm.toNat % 4, s.serial, f.imm.toNat / 4⟩ : Fence) ∈ (t.group st.group).fences
        ∧ (∀ y ∈ (s.group st.group).fences, y ∈ (t.group st.group).fences) ∧ ValuesKept l (t.lane k) ∧ t.mem = s.mem ∧ t.teams = s.teams
        ∧ (∀ j, j ≠ st.group → t.group j = s.group j) ∧ ∀ j, j ≠ k → t.lane j = s.lane j)
    ∧ (∀ y, (s.within 0 st.group y = true ↔ y = .group st.group) ∧ s.within 5 st.group y = true
        ∧ ∀ a b, a ≤ b → s.within a st.group y = true → s.within b st.group y = true)
    ∧ (∀ w ∈ [(Instr.bara f, n), (.gbara f, 16)], GuardHolds w.1 s k → ∃ t, exec w.1 s = .next t
        ∧ (¬ arrived w.2 → arrives w.2 t ∧ MovedOn st x rest t) ∧ (arrived w.2 → Waits (.barArrive w.2 false) st x rest s t))
    ∧ (∀ w ∈ [(Instr.barw f, n), (.gbarw f, 16)], GuardHolds w.1 s k → ∃ t, exec w.1 s = .next t
        ∧ (waitsFor w.2 → Waits (.barWait w.2 ((s.team tk).barrier w.2).phase.toNat) st x rest s t)
        ∧ (¬ waitsFor w.2 → PassedOver st x rest s t))
    ∧ (GuardHolds (.bar f) s k → ∃ t, exec (.bar f) s = .next t
        ∧ (¬ arrived n → arrives n t ∧ (t.lane k).block = .barWait n ((s.team tk).barrier n).phase.toNat
            ∧ (t.lane k).pc = BitVec.ofNat 32 x.pc ∧ t.turn = .issue { st with todo := rest })
        ∧ (arrived n → Waits (.barArrive n true) st x rest s t))
    ∧ (GuardHolds (.bari f) s k → ∃ t, exec (.bari f) s = .next t ∧ Left [⟨0x184, n, f.imm.toNat / 16⟩] st x rest s t))
  ∧ ∀ (s : State) (st : IssueStep) (nb : Nat),
    let tk := teamOf st.group
    let asked := st.pend.filter (fun p => p.op == 0x184 && p.x == nb)
    let b := ((st.pend.foldl (fun s p => s.applyPend st.group p) s).team tk).barrier nb
    (∀ p, asked.getLast? = some p → b = { (s.team tk).barrier nb with expected := p.y }) ∧ (asked = [] → b = (s.team tk).barrier nb)

/-- A numbered barrier whose expected count is reached completes its phase (18 R272): the phase number moves on, the arrivals start again, every lane that
waited for the phase moves past its word, and a lane held back arrives in the new phase, where its group is not halted. Registers and memory stay. A group
is counted when every live lane of it has arrived and what its arrival releases has been performed, and the phase completes exactly where the counted
arrivals reach the expected count, at the end of a step or as a group is counted (R265, R272); that it is counted only then, and the number under which a
handler group arrives, are the model's choice (log 34). -/
def Obligations.PhaseCompletes : Prop :=
  (∀ (s : State) (tk nb : Nat),
    let b := (s.team tk).barrier nb
    let t := s.completePhase tk nb
    ((t.team tk).barrier nb).phase = b.phase + 1 ∧ ((t.team tk).barrier nb).counted = [] ∧ ((t.team tk).barrier nb).expected = b.expected
      ∧ t.mem = s.mem
      ∧ (∀ j, ValuesKept (s.lane j) (t.lane j) ∧ (t.lane j).live = (s.lane j).live)
      ∧ (∀ gk ∈ s.teamGroups tk, s.groupHalted gk = false → ∀ p ∈ s.liveLanes gk, (s.lane (laneKey gk p)).block = .barWait nb b.phase.toNat →
          (t.lane (laneKey gk p)).block = .free ∧ (t.lane (laneKey gk p)).pc = BitVec.ofNat 32 ((s.lane (laneKey gk p)).nextAt + 8))
      ∧ (∀ gk ∈ s.teamGroups tk, teamOf gk = tk → s.groupHalted gk = false → ∀ p ∈ s.liveLanes gk, (s.lane (laneKey gk p)).block = .barArrive nb true →
          (t.lane (laneKey gk p)).block = .barWait nb (b.phase + 1).toNat
            ∧ (((t.team tk).barrier nb).lanes.getD (s.party gk) 0).getLsbD p = true))
  ∧ ∀ (s : State) (tk nb : Nat) (atStep : Bool), (s.team tk).groups ≤ 128 →
    let s1 := s.countGroups tk nb
    let b := (s1.team tk).barrier nb
    let old := (s.team tk).barrier nb
    (∀ gk ∈ s.teamGroups tk, s.party gk ∈ b.counted ↔ s.party gk ∈ old.counted
        ∨ (s.arrivedInFull gk nb = true ∧ s.arrivalReleased gk nb (old.serials.getD (s.party gk) 0) = true))
      ∧ b.expected = old.expected ∧ b.phase = old.phase
      ∧ (b.expected ≤ s1.arrivals tk nb → (atStep = true ∨ b.counted ≠ old.counted) → s.updateBarrier tk nb atStep = s1.completePhase tk nb)
      ∧ (s1.arrivals tk nb < b.expected → s.updateBarrier tk nb atStep = s1)

/-- SEAL, UNSEAL, WAITS and FENCEI (18 R268, R274 to R276). A SEAL registers its range in the lowest free entry of its partition, and a full table answers
2^32 - 1; an UNSEAL of an entry that is beyond the table or empty answers 1, and of any other frees its number at once; each keeps its lanes until its
step's seals are done. WAITS
enters flight with its comparand, and FENCEI waits for the invalidation. -/
def Obligations.SealAndWaitWordsRun : Prop :=
  ∀ (f : SF) (m : MF) (s : State) (st : IssueStep) (x : StepLane) (rest : List StepLane), AtWord s st x rest →
    let k := stepLane st x
    let l := s.lane k
    let part := s.partitionOf (teamOf st.group)
    let tbl := s.sealTable (teamOf st.group)
    let base := operandVal l f.a 2
    let e := operandVal l f.a 1
    let stays (b : Block) (t : State) : Prop :=
      t.turn = .issue { st with todo := rest } ∧ (t.lane k).block = b ∧ (t.lane k).pc = BitVec.ofNat 32 x.pc ∧ t.mem = s.mem ∧ t.teams = s.teams
        ∧ (∀ j, j ≠ k → t.lane j = s.lane j) ∧ (∀ j, j ≠ st.group → t.group j = s.group j)
    let flies (kind : OpKind) (t : State) : Prop :=
      ∃ o : LaneOp, (t.group st.group).ops = (s.group st.group).ops ++ [o] ∧ o.id = s.serial ∧ o.lane = k ∧ o.kind = kind
    (∀ i ∈ [Instr.sealRange f, .unsealEntry f, .fencei f, .waits m], ∃ t, exec i s = .next t ∧ (¬ GuardHolds i s k → PassedOver st x rest s t))
    ∧ (GuardHolds (.sealRange f) s k → noChute (.sealRange f) = true → ∃ t, exec (.sealRange f) s = .next t ∧ stays (.op st.serial) t
        ∧ ((∀ n, n < 16 → tbl.get? n ≠ none) → Written f.d 1 (2 ^ 32 - 1) l (t.lane k) ∧ t.sealTables = s.sealTables)
        ∧ (∀ n, n < 16 → tbl.get? n = none → (∀ j, j < n → tbl.get? j ≠ none) →
            ValuesKept l (t.lane k) ∧ flies (.sealing n true f.d) t
              ∧ (∃ b : Bool, (t.sealTables.getD part []).get? n = some
                  { space := f.imm.toNat, base := (if f.imm.toNat = 3 then s.normVa base else base), len := operandVal l f.b 2,
                    team := teamOf st.group, die := (s.group st.group).core / 64, by_ := s.serial, ready := false, told := b }
                  ∧ (f.imm.toNat ≠ 3 → b = false))
              ∧ ∀ j, j ≠ n → (t.sealTables.getD part []).get? j = tbl.get? j))
    ∧ (GuardHolds (.unsealEntry f) s k → noChute (.unsealEntry f) = true → ∃ t, exec (.unsealEntry f) s = .next t ∧ stays (.op st.serial) t
        ∧ ((16 ≤ e ∨ tbl.get? e = none) → Written f.d 1 1 l (t.lane k) ∧ t.sealTables = s.sealTables)
        ∧ (e < 16 → ∀ y, tbl.get? e = some y → ValuesKept l (t.lane k) ∧ flies (.sealing (16 * (1 + s.serial) + e) false f.d) t
            ∧ (t.sealTables.getD part []).get? e = none
            ∧ (∃ b : Bool, (t.sealTables.getD part []).get? (16 * (1 + s.serial) + e) = some { y with told := b } ∧ (y.space ≠ 3 → b = false))
            ∧ ∀ j, j ≠ e → j ≠ 16 * (1 + s.serial) + e → (t.sealTables.getD part []).get? j = tbl.get? j))
    ∧ (GuardHolds (.fencei f) s k → ∃ t, exec (.fencei f) s = .next t ∧ stays (.op s.serial) t ∧ ValuesKept l (t.lane k) ∧ flies .fencei t)
    ∧ (GuardHolds (.waits m) s k → noChute (.waits m) = true → ∀ a,
        s.laneAccess st.group m.slot.val (toSigned 32 (operandVal l m.idx 1)) m.off.toNat 4 = .ok a → ∃ t, exec (.waits m) s = .next t
        ∧ (a.drop = true → Written m.d 1 0 l (t.lane k) ∧ (t.lane k).fpflags = l.fpflags ||| flagOOB ∧ MovedOn st x rest t ∧ t.mem = s.mem)
        ∧ (a.drop = false → stays (.op s.serial) t ∧ ValuesKept l (t.lane k)
            ∧ flies (.waits a.phys (BitVec.ofNat 32 (operandVal l m.d 1)) m.d false) t))

/-! ## Words: the system class (04 R79 to R90, 05 R103, 21 R289, R298, R299, 22 R306, R311) -/

/-- SRD and SWR (04 R79, R80). SRD reads a special register into d; SWR of fprm takes 1 to 5 and makes anything else 1, SWR of fpflags takes nine bits, and SWR
of patience takes four bits with 0 meaning 4. An SWR of a register that may not be written raises illegal-instruction (cause 2), and an SRD of a 64-bit
register into an odd destination illegal-operand (cause 3), in the checks of its step, where the checks of every word before them pass. -/
def Obligations.SpecialRegisterWordsRun : Prop :=
  (∀ (f : SF) (s : State) (st : IssueStep) (x : StepLane) (rest : List StepLane), AtWord s st x rest →
    let k := stepLane st x
    let l := s.lane k
    let n := f.sr.toNat
    let a := operandVal l f.a 1
    (∀ i ∈ [Instr.srd f, .swr f], ∃ t, exec i s = .next t ∧ (¬ GuardHolds i s k → PassedOver st x rest s t))
    ∧ (GuardHolds (.srd f) s k → noChute (.srd f) = true → ∃ t, exec (.srd f) s = .next t
        ∧ Written f.d (specialRegs n) (s.special st.group x.pos n).1 l (t.lane k) ∧ MovedOn st x rest t ∧ (t.lane k).p = l.p
        ∧ (t.lane k).fpflags = l.fpflags ∧ t.mem = s.mem ∧ t.teams = s.teams ∧ t.groups = s.groups ∧ t.cores = s.cores
        ∧ ∀ j, j ≠ k → t.lane j = s.lane j)
    ∧ (GuardHolds (.swr f) s k → noChute (.swr f) = true → ∃ t, exec (.swr f) s = .next t
        ∧ MovedOn st x rest t ∧ (∀ r, (t.lane k).reg r = l.reg r) ∧ (t.lane k).p = l.p ∧ t.mem = s.mem ∧ t.teams = s.teams
        ∧ (∀ j, j ≠ k → t.lane j = s.lane j) ∧ (∀ j, j ≠ st.group → t.group j = s.group j)
        ∧ (n = 0x022 → (t.lane k).fprm.toNat = (if 1 ≤ a ∧ a ≤ 5 then a else 1) ∧ (t.lane k).fpflags = l.fpflags ∧ t.groups = s.groups)
        ∧ (n = 0x021 → (t.lane k).fpflags = BitVec.ofNat 9 a ∧ (t.lane k).fprm = l.fprm ∧ t.groups = s.groups)
        ∧ (n = 0x020 → t.group st.group = { s.group st.group with patience := if a % 16 = 0 then 4 else a % 16 }
            ∧ (t.lane k).fpflags = l.fpflags ∧ (t.lane k).fprm = l.fprm)))
  ∧ ∀ (f : SF) (s : State) (st : IssueStep) (x : StepLane) (rest : List StepLane), s.turn = .issue st → st.todo = x :: rest → st.checked = false →
      let stops (i : Instr) (cause : Nat) : Prop :=
        ∃ tr : Trap, tr.cause = cause ∧ exec i s = .next (takeTrap s st.group tr (1#32 <<< x.pos) (BitVec.ofNat 32 x.pc) false)
      let before (i : Instr) : Prop := order3 (s.team (teamOf st.group)) i.view = false ∧ order4 (s.group st.group) i.view = false
      (GuardHolds (.swr f) s (stepLane st x) → before (.swr f) → f.sr.toNat ≠ 0x020 → f.sr.toNat ≠ 0x021 → f.sr.toNat ≠ 0x022 → stops (.swr f) 2)
        ∧ (GuardHolds (.srd f) s (stepLane st x) → before (.srd f) → order2 (ctxOf st x) (Instr.srd f).view s = false → special64 f.sr.toNat = true →
            ∀ n, f.d = .v n → n.val % 2 = 1 → stops (.srd f) 3)

/-- LAUNCH and LAUNCHW (04 R82, R83, R85). LAUNCH answers 0 where the queue of its die is full and changes nothing else; else it answers a fresh id, and where
no window stands it opens one with its child, which carries the descriptor with partition, parent and priority replaced. LAUNCHW leaves the closing of
the windows for the end of the step and waits for the children posted: there every open window with a child of the launch is handed on, or, while the
Fiaris complex is halted or has not handed on every window held, closed behind those held (22 R307). The memory that a posting may change is that of the
translation tables: the image is looked up, and sets accessed bits (14 R200). -/
def Obligations.LaunchWordsRun : Prop :=
  (∀ (s : State) (id : Nat),
    let t := s.closeWindowsOf id
    let named (w : Window) : Prop := w.closed = false ∧ ∃ c ∈ w.children, dParent (s.grid c).desc = id
    (∀ k w, s.windows.get? k = some w → named w →
        (s.fwHalted = false → s.holding = false → t.windows.get? k = none)
          ∧ ((s.fwHalted = true ∨ s.holding = true) →
              ∃ n, t.windows.get? k = some { w with closed := true, shut := n } ∧ ∀ e ∈ s.windows, e.2.shut < n))
      ∧ ∀ k, (∀ e ∈ s.windows, e.1 = k → ¬ named e.2) → t.windows.get? k = s.windows.get? k)
  ∧ ∀ (f : SF) (s : State) (st : IssueStep) (x : StepLane) (rest : List StepLane), s.Inv → AtWord s st x rest →
    let k := stepLane st x
    let l := s.lane k
    let tk := teamOf st.group
    let die := (s.group st.group).core / 64
    let id := (s.launchIdOf tk).toNat
    (∀ i ∈ [Instr.launch f, .launchw f], ∃ t, exec i s = .next t ∧ (¬ GuardHolds i s k → PassedOver st x rest s t))
    ∧ (GuardHolds (.launch f) s k → noChute (.launch f) = true → ∀ y,
        s.laneAccess st.group (f.imm.toNat % 64) (toSigned 32 (operandVal l f.a 1)) 0 64 = .ok y → ∃ t, exec (.launch f) s = .next t
        ∧ (t.lane k).pc = BitVec.ofNat 32 (x.pc + 8)
        ∧ (4096 ≤ s.launchQueue.getD die 0 → Passed st x rest s t ∧ Written f.d 2 0 l (t.lane k))
        ∧ (s.launchQueue.getD die 0 < 4096 → s.windows = [] →
            let d := BitVec.ofNat 512 (leNat (s.recordBytes st.group y))
            Written f.d 2 s.newId.toNat l (t.lane k) ∧ OffTables s t ∧ t.teams = s.teams
              ∧ t.windows = [(s.serial + 1, { die := die, opened := s.cycle, closed := false, children := [s.serial] })]
              ∧ t.launchQueue.getD die 0 = s.launchQueue.getD die 0 + 1
              ∧ (t.grid s.serial).id = s.newId ∧ (t.grid s.serial).issuer = some (s.team tk).grid
              ∧ (t.grid s.serial).partition = s.partitionOf tk
              ∧ (t.grid s.serial).desc = setDesc (setDesc (setDesc d 16 47 40 (s.partitionOf tk)) 48 63 0 id) 16 39 32
                  (min (dPrio d) (s.grid (s.team tk).grid).prio)))
    ∧ (GuardHolds (.launchw f) s k → ∃ t, exec (.launchw f) s = .next t
        ∧ t.turn = .issue { st with todo := rest, pend := st.pend ++ [⟨0x1A6, id, 0⟩] } ∧ LaneOnly k s t ∧ ValuesKept l (t.lane k)
        ∧ (t.lane k).block = .children (s.posted id st.serial) ∧ (t.lane k).pc = BitVec.ofNat 32 x.pc)

/-- TASK, TASKP and TASKS (04 R86, R87): TASK answers 1 where the deque is full or absent, else it writes its record at the tail and answers 0; TASKP answers 0
where the deque is empty, else it takes the record at the tail, queues it as a store and answers 1; TASKS sets the successor of its task. Of the rest of
memory TASK changes only the translation tables, in which its look at the image sets accessed bits (14 R200). AMSG and AMSGR (04 R89, R90): the message goes to the end of the outbound buffer of the lane's core with eight registers of payload, to the core that b names
or to the source of the message being handled. -/
def Obligations.TaskAndMessageWordsRun : Prop :=
  (∀ (f : SF) (s : State) (st : IssueStep) (x : StepLane) (rest : List StepLane), s.Inv → AtWord s st x rest →
    let k := stepLane st x
    let l := s.lane k
    let tk := teamOf st.group
    let core := (s.group st.group).core
    let dq := s.core core
    let access := s.laneAccess st.group (f.imm.toNat % 64) (toSigned 32 (operandVal l f.a 1)) 0 64
    let slot := s.dqAddr core dq.dqCount
    (∀ i ∈ [Instr.task f, .taskp f, .tasks f], ∃ t, exec i s = .next t ∧ (¬ GuardHolds i s k → PassedOver st x rest s t))
    ∧ (GuardHolds (.task f) s k → noChute (.task f) = true → ∀ y, access = .ok y → ∃ t, exec (.task f) s = .next t ∧ MovedOn st x rest t
        ∧ (dq.dqCap ≤ dq.dqCount → Written f.d 1 1 l (t.lane k) ∧ t.mem = s.mem ∧ t.cores = s.cores)
        ∧ (dq.dqCount < dq.dqCap → Written f.d 1 0 l (t.lane k)
            ∧ t.core core = { dq with dqCount := dq.dqCount + 1, dqTasks := dq.dqTasks ++ [⟨(s.team tk).grid, st.group, s.serial⟩] }
            ∧ (∀ i (h : i < (s.recordBytes st.group y).length), t.mem.read (slot + i) = (s.recordBytes st.group y)[i])
            ∧ (∀ b, (b < 2 ^ 40 ∨ 2 ^ 44 ≤ b) → (b < slot ∨ slot + (s.recordBytes st.group y).length ≤ b) → t.mem.read b = s.mem.read b)
            ∧ (t.grid (s.team tk).grid).tasks = (s.grid (s.team tk).grid).tasks + 1)
        ∧ t.teams = s.teams ∧ ∀ j, j ≠ k → t.lane j = s.lane j)
    ∧ (GuardHolds (.taskp f) s k → noChute (.taskp f) = true → ∀ y, access = .ok y → ∃ t, exec (.taskp f) s = .next t ∧ MovedOn st x rest t
        ∧ (s.dqRecords core = [] → Passed st x rest s t ∧ Written f.d 1 0 l (t.lane k))
        ∧ (∀ rec e, (s.dqRecords core).getLast? = some (rec, e) → Written f.d 1 1 l (t.lane k)
            ∧ t.core core = { dq with dqCount := dq.dqCount - 1, dqTasks := dq.dqTasks.dropLast }
            ∧ (t.grid e.grid).tasks = (s.grid e.grid).tasks - 1
            ∧ (∃ o : LaneOp, (t.group st.group).ops = (s.group st.group).ops ++ [o] ∧ o.lane = k ∧ o.space = y.space ∧ o.off = y.off
                ∧ o.kind = .store y.phys rec y.drop))
        ∧ t.mem = s.mem ∧ t.teams = s.teams ∧ ∀ j, j ≠ k → t.lane j = s.lane j)
    ∧ (GuardHolds (.tasks f) s k → noChute (.tasks f) = true → ∀ rec nxt, (s.team tk).kind = .task rec nxt → ∃ t, exec (.tasks f) s = .next t
        ∧ MovedOn st x rest t ∧ t.team tk = { s.team tk with kind := .task rec (operandVal l f.a 2) } ∧ (∀ j, j ≠ tk → t.team j = s.team j)
        ∧ ValuesKept l (t.lane k) ∧ t.mem = s.mem ∧ ∀ j, j ≠ k → t.lane j = s.lane j))
  ∧ (∀ (f : SF) (s : State) (st : IssueStep) (x : StepLane) (rest : List StepLane), AtWord s st x rest →
    let k := stepLane st x
    let l := s.lane k
    let tk := teamOf st.group
    let core := (s.group st.group).core
    (∀ i ∈ [Instr.amsg f, .amsgr f], ∃ t, exec i s = .next t ∧ (¬ GuardHolds i s k → PassedOver st x rest s t))
    ∧ ∀ w ∈ [(Instr.amsg f, operandVal l f.b 1, false), (.amsgr f, s.msgSrc tk, true)], ∀ n : Fin 256,
        GuardHolds w.1 s k → noChute w.1 = true → f.a = .v n → ∃ t m, exec w.1 s = .next t
          ∧ t.core core = { s.core core with outbox := (s.core core).outbox ++ [m] } ∧ (∀ j, j ≠ core → t.core j = s.core j)
          ∧ m.target = bits w.2.1 7 0 ∧ m.device = bits w.2.1 18 8 ∧ m.handler = f.imm.toNat % 8 ∧ m.src = s.device * 256 + core
          ∧ m.partition = s.partitionOf tk ∧ m.reply = w.2.2 ∧ m.payload.length = 8 ∧ (∀ r, r < 8 → m.payload[r]? = some (l.reg (n.val + r)))
          ∧ MovedOn st x rest t ∧ ValuesKept l (t.lane k) ∧ t.mem = s.mem ∧ t.teams = s.teams ∧ ∀ j, j ≠ k → t.lane j = s.lane j)


/-- REGION, PERF, WPCLR, and the words that leave their effect for the end of the step: STAMP, HINT, WPSET, PSWR, RETH; PCTX answers what an image is, or leaves
its operation (05 R103, 21 R289, R298, R299, 22 R306, R311). At the end of the step the lowest lane's STAMP and HINT each write one trace record; the
highest lane's WPSET sets its watchpoint where the entry is free and its place lies in the chamber, and every lane receives the status; every register
a PSWR names holds the highest lane's value, and each deque named is empty; PCTX ends the image's launch with status 6, or fails the page it waits for. -/
def Obligations.SystemWordsRun : Prop :=
  (∀ (s : State) (st : IssueStep), ∀ w ∈ [(0x1AE, 2), (0x1B1, 3)],
    let g := s.group st.group
    (∀ p, st.pend.find? (fun p => p.op == w.1) = some p →
        s.traceMark st w.1 w.2 = s.trace st.group w.2 (coreSource g.core (1 + g.port)) p.y p.x)
      ∧ ((∀ p ∈ st.pend, p.op ≠ w.1) → s.traceMark st w.1 w.2 = s))
  ∧ (∀ (s : State) (gk : Nat) (ps : List Pend) (p : Pend), ps.getLast? = some p → (ps.map (fun q => q.x / 2 ^ 12)).Nodup →
    let tm := s.team (teamOf gk)
    let o := p.y % 2 ^ 32
    let n := p.x % 4
    let core := tm.cores.getD (tm.hostIndex o) 0
    let bad := o % 8 ≠ 0 ∨ tm.chamberSize < o + 8
    let busy := ∃ w, (s.core core).watches.get? n = some w ∧ w.team ≠ some (teamOf gk)
    let t := s.endWpset gk ps
    ∃ status, (bad → status = 2) ∧ (¬ bad → busy → status = 1) ∧ (¬ bad → ¬ busy → status = 0)
      ∧ (∀ q ∈ ps, Written (Operand.ofCode (q.y / 2 ^ 32)) 1 status (s.lane (laneKey gk (q.x / 2 ^ 12))) (t.lane (laneKey gk (q.x / 2 ^ 12))))
      ∧ (∀ k, (∀ q ∈ ps, k ≠ laneKey gk (q.x / 2 ^ 12)) → ValuesKept (s.lane k) (t.lane k))
      ∧ (status = 0 → (t.core core).watches.get? n =
          some ⟨o, tm.chamberPhys o % 2 ^ 20, p.x / 4 % 4, p.x / 16 % 2, false, some (teamOf gk)⟩)
      ∧ ∀ c m, (status ≠ 0 ∨ c ≠ core ∨ m ≠ n) → (t.core c).watches.get? m = (s.core c).watches.get? m)
  ∧ (∀ (s : State) (ps : List Pend) (c : Nat),
    let t := s.endPswr ps
    let mine := ps.filter (fun p => p.x / 2 ^ 12 == c)
    let last (base : Bool) : Option Pend := (mine.filter (fun p => (p.x % 2 ^ 12 == 0x800) == base)).getLast?
    t = { s with cores := t.cores } ∧ (mine = [] → t.core c = s.core c)
      ∧ (mine ≠ [] → t.core c = { s.core c with
          dqHead := 0, dqCount := 0, dqTasks := [],
          dqbase := (match last true with | some p => BitVec.ofNat 32 p.y | none => (s.core c).dqbase),
          dqlim := (match last false with | some p => BitVec.ofNat 32 p.y | none => (s.core c).dqlim) }))
  ∧ (∀ (s : State) (p : Pend) (ps : List Pend), ∀ why page queued_ place, (s.team p.y).residency = .saved why page queued_ place →
    s.endPctx (p :: ps) = (s.endPctx [p]).endPctx ps
      ∧ (p.x = 1 → (s.grid (s.team p.y).grid).status = 0 → (s.grid (s.team p.y).grid).complete = false →
          ((s.endPctx [p]).grid (s.team p.y).grid).status = 6)
      ∧ (p.x = 1 → ((s.grid (s.team p.y).grid).status ≠ 0 ∨ (s.grid (s.team p.y).grid).complete = true) → s.endPctx [p] = s)
      ∧ (p.x = 2 → why = 3 → s.endPctx [p] = { s with cmds := (s.endPctx [p]).cmds, teams := (s.endPctx [p]).teams }
          ∧ ((s.endPctx [p]).team p.y).residency = .saved 3 page true place
          ∧ (∀ k, (∀ q b, (s.team k).residency ≠ .saved 3 page q b) → (s.endPctx [p]).team k = s.team k)
          ∧ ∀ k c, s.cmds.get? k = some c → c.st = .parked → c.page = page →
              ∃ d, (s.endPctx [p]).cmds.get? k = some d ∧ d.mapped = true ∧ d.unserved = true))
  ∧ ∀ (f : SF) (g : RI) (s : State) (st : IssueStep) (x : StepLane) (rest : List StepLane), AtWord s st x rest →
    let k := stepLane st x
    let l := s.lane k
    let tk := teamOf st.group
    let gr := s.group st.group
    let a := operandVal l f.a 1
    let n := f.imm.toNat
    (∀ i ∈ [Instr.region g, .perf f, .stamp f, .hint f, .wpset f, .wpclr f, .pswr f, .pctx f, .reth f], ∃ t, exec i s = .next t
        ∧ (¬ GuardHolds i s k → PassedOver st x rest s t))
    ∧ (GuardHolds (.region g) s k → ∃ t, exec (.region g) s = .next t ∧ MovedOn st x rest t ∧ ValuesKept l (t.lane k)
        ∧ t.group st.group = { gr with region := (t.group st.group).region }
        ∧ (∀ r, r ∈ (t.group st.group).region ↔
            r < 32 * gr.granules.length ∧ ∃ b, b < 32 ∧ g.imm.toNat.testBit b = true ∧ r = Operand.code g.a + b)
        ∧ (∀ j, j ≠ st.group → t.group j = s.group j) ∧ t.mem = s.mem ∧ t.teams = s.teams ∧ ∀ j, j ≠ k → t.lane j = s.lane j)
    ∧ (GuardHolds (.perf f) s k → noChute (.perf f) = true → ∃ t, exec (.perf f) s = .next t ∧ Passed st x rest s t
        ∧ Written f.d 2 (s.perfCounter st.group n) l (t.lane k) ∧ (t.lane k).p = l.p ∧ (t.lane k).fpflags = l.fpflags)
    ∧ (∀ w ∈ ([(Instr.stamp f, ⟨0x1AE, n + 2 ^ 12 * x.pos, a⟩), (.hint f, ⟨0x1B1, n + 2 ^ 12 * x.pos, 0⟩),
          (.wpset f, ⟨0x1AF, n + 2 ^ 12 * x.pos, a + 2 ^ 32 * Operand.code f.d⟩), (.reth f, ⟨0x1A4, n % 4, x.pos⟩),
          (.pswr f, ⟨0x1B2, f.sr.toNat + 2 ^ 12 * (match f.b with | .z => gr.core | o => operandVal l o 1), a⟩)] : List (Instr × Pend)),
        GuardHolds w.1 s k → noChute w.1 = true → ∃ t, exec w.1 s = .next t ∧ Left [w.2] st x rest s t)
    ∧ (GuardHolds (.wpclr f) s k → ∃ t, exec (.wpclr f) s = .next t ∧ MovedOn st x rest t ∧ ValuesKept l (t.lane k)
        ∧ (∀ c ∈ (s.team tk).cores, (t.core c).watches = (s.core c).watches.filter (fun w => !(w.1 == n && w.2.team == some tk)))
        ∧ (∀ c, c ∉ (s.team tk).cores → t.core c = s.core c) ∧ t.mem = s.mem ∧ t.teams = s.teams ∧ t.groups = s.groups
        ∧ ∀ j, j ≠ k → t.lane j = s.lane j)
    ∧ (GuardHolds (.pctx f) s k → noChute (.pctx f) = true → ∀ im, s.imageAt (operandVal l f.a 2) = some im → ∃ t, exec (.pctx f) s = .next t
        ∧ (let op := pctxOp (ctxOf st x) (operandVal l f.a 2)
           (op = 0 → Passed st x rest s t ∧ Written f.d 2 (imageWhy (s.team im) + 2 ^ 32 * (movedOn st x rest s).imageSize im false) l (t.lane k))
             ∧ (op ≠ 0 → t.turn = .issue { st with todo := rest, pend := st.pend ++ [⟨0x1B3, op, im⟩] } ∧ LaneOnly k s t
                 ∧ Written f.d 2 0 l (t.lane k))))

/-- TRAP and BRK (21 R289). In a step whose checks are still to be made, a lane whose guard is true takes the trap, with the word's immediate as the detail:
the step executes in no lane and its group stops. One whose guard is false passes over the word, and so does a lane of a step that has passed its checks.
BRK under an armed debugger takes, where the team records its trap, a stop of its team, and runs as a NOP in the first step after the resume from its own
stop. -/
def Obligations.TrapAndBreakRun : Prop :=
  ∀ (f : SF) (s : State) (st : IssueStep) (x : StepLane) (rest : List StepLane), s.turn = .issue st → st.todo = x :: rest →
    let k := stepLane st x
    let gk := st.group
    let tk := teamOf gk
    let taken (cause : Nat) (t : State) : Prop :=
      t.turn = .idle ∧ (t.group gk).halted = true ∧ (t.team tk).trigger ≠ none ∧ MemoryKept s t
        ∧ (∀ j, ValuesKept (s.lane j) (t.lane j) ∧ (t.lane j).pc = (s.lane j).pc)
        ∧ (s.recordsTrap gk = true → ∃ r, (t.team tk).record = some r ∧ r.cause = cause ∧ r.mask = 1#32 <<< x.pos
            ∧ r.pc = BitVec.ofNat 32 x.pc ∧ r.detail = BitVec.ofNat 128 f.imm.toNat ∧ r.group = indexOf gk ∧ r.stream = false)
    (∀ i ∈ [Instr.trap f, .brk f], st.checked = true ∨ (noChute i = true ∧ ¬ GuardHolds i s k) →
        ∃ t, exec i s = .next t ∧ PassedOver st x rest s t)
    ∧ (st.checked = false → noChute (.trap f) = true → GuardHolds (.trap f) s k → ∃ t, exec (.trap f) s = .next t ∧ taken 30 t
        ∧ (t.team tk).stops = (s.team tk).stops)
    ∧ (st.checked = false → noChute (.brk f) = true → GuardHolds (.brk f) s k →
        ((s.group gk).passBrk = true → ∃ t, exec (.brk f) s = .next t ∧ PassedOver st x rest s t)
        ∧ ((s.group gk).passBrk = false → ∃ t, exec (.brk f) s = .next t ∧ taken 31 t
            ∧ (s.brkArmed gk = false → (t.team tk).stops = (s.team tk).stops)
            ∧ (s.brkArmed gk = true → (⟨0, tk⟩ : StopHold) ∈ (t.team tk).stops ∧ (t.team tk).stopRecord = true)))

/-- Taking a trap (21 R283 to R285): the record is kept with its fields unless an earlier one stands, the halt of the team is triggered in this cycle unless
it is already, and the trapping group stops where it stands; no register, predicate, flag, program counter or byte of memory changes. -/
def Obligations.TrapIsTaken : Prop :=
  ∀ (s : State) (gk : Nat) (tr : Trap) (mask : BitVec 32) (pc : W32) (stream : Bool),
    let t := takeTrap s gk tr mask pc stream
    let tm := s.team (teamOf gk)
    let g := s.group gk
    (s.recordsTrap gk = true → ∃ r, (t.team (teamOf gk)).record = some r ∧ r.cause = tr.cause ∧ r.mask = mask ∧ r.pc = pc ∧ r.stream = stream
        ∧ r.stamp = s.now ∧ r.cycle = s.cycle ∧ r.group = indexOf gk ∧ r.core = g.core ∧ r.inhdl = g.handler ∧ r.tx = tm.x ∧ r.ty = tm.y
        ∧ r.tz = tm.z ∧ r.phases = tm.phases ∧ r.detail = BitVec.ofNat 128 tr.detail)
      ∧ (s.recordsTrap gk = false → (t.team (teamOf gk)).record = tm.record)
      ∧ (t.team (teamOf gk)).trigger = (match tm.trigger with | some x => some x | none => some (s.cycle, g.core))
      ∧ (t.group gk).halted = true ∧ t.turn = .idle ∧ t.mem = s.mem ∧ (∀ k, k ≠ teamOf gk → t.team k = s.team k)
      ∧ ∀ k, ValuesKept (s.lane k) (t.lane k) ∧ (t.lane k).pc = (s.lane k).pc ∧ (t.lane k).live = (s.lane k).live
          ∧ (t.lane k).clause = (s.lane k).clause ∧ (t.lane k).cd = (s.lane k).cd ∧ (t.lane k).xs = (s.lane k).xs

/-- A step of several lanes whose checks fail in some lane executes in none (02 R52, R53): the team is halted, and no lane moves. -/
def Obligations.FailingStepExecutesNowhere : Prop :=
  ∀ (s : State) (gk cls : Nat) (ready : List (Nat × Nat)),
    let xs := s.stepLanes gk (classLanes ready cls)
    let st : IssueStep :=
      { group := gk, cls := cls, todo := xs, all := xs, checked := true, ready := ready, serial := s.serial, oc0 := (s.group gk).oc,
        skips0 := (s.group gk).skips, tt0 := (s.team (teamOf gk)).tt, reads := s.sysReads gk xs, pend := [] }
    s.breakHit gk xs = none → ∀ tr mask pc, trapOfStep (s.failing st) = some (tr, mask, pc) →
      let t := s.issueClass gk cls ready
      t.turn = .idle ∧ (t.group gk).halted = true
        ∧ (s.recordsTrap gk = true → ∃ r, (t.team (teamOf gk)).record = some r ∧ r.cause = tr.cause ∧ r.mask = mask ∧ r.pc = pc)
        ∧ (∀ k, ValuesKept (s.lane k) (t.lane k) ∧ (t.lane k).pc = (s.lane k).pc) ∧ MemoryKept s t

/-! ## Events: boot, firmware, registers, feeds and health (04 R65 to R76, 25 R321 to R331) -/

/-- POWER_ON (04 R65 to R67, 05 R91, 00 R5, R12): the first step that fails stands in the boot error and nothing after it happens; where all succeed the part
holds the configuration of the flash, the measurement of its image, the links below 16 that the record names, the domain's clock where it is given one
with them, and its own memory zeroed, and is ready for feeds from the next cycle on (log 18). A part that has booted or is held boots no more. COLD_RESET,
THERMAL_ALARM and THERMAL_SHUTDOWN (00 R9): a reset leaves the part as before boot, and keeps flash, host memory and the attached memory, which lies
from byte 2^44 of the model's memory on (log 18); an alarm is
noted and the part runs on; a shutdown holds the part until a cold reset, while its counter runs on and its retired units stand. -/
def Obligations.BootAndResetRun : Prop :=
  (∀ (b : BootIn) (s : State), s.bootStage = 0 → s.bootError = 0 → s.held = false →
    let r := Config.recordOf s.flash.recordBytes
    let recordGood : Prop :=
      Config.recordSigned s.flash.image s.flash.recordBytes = true ∧ mapOk r.map = true ∧ r.device ≤ 1023 ∧ 1 ≤ r.feeds ∧ r.feeds ≤ 64
    (b.flashReads = false → exec (.powerOn b) s = .next { s with bootError := 1 })
    ∧ (b.flashReads = true → Config.imageSigned s.flash.image = false → exec (.powerOn b) s = .next { s with bootError := 2 })
    ∧ (b.flashReads = true → Config.imageSigned s.flash.image = true → ¬ recordGood →
        ∃ t, exec (.powerOn b) s = .next t ∧ t.bootError = 3 ∧ t.bootStage = 1 ∧ t.fw.mfw = sha256 s.flash.image ∧ t.config = s.config)
    ∧ (b.flashReads = true → Config.imageSigned s.flash.image = true → recordGood → (b.dramTrained = false ∨ b.cleared = false) →
        ∃ t, exec (.powerOn b) s = .next t ∧ t.bootError = (if b.dramTrained then 5 else 4) ∧ t.bootStage = 2 ∧ t.config = some r)
    ∧ (b.flashReads = true → Config.imageSigned s.flash.image = true → recordGood → b.dramTrained = true → b.cleared = true → b.failed = [] →
        ∃ t, exec (.powerOn b) s = .next t ∧ t.bootError = 0 ∧ t.bootStage = 3 ∧ t.config = some r
          ∧ t.bootOn = (if s.fwHalted then t else { t with bootStage := 4 })
          ∧ t.fw.mfw = sha256 s.flash.image ∧ t.fw.ver = Config.imageVersion s.flash.image
          ∧ (∀ l, (∃ x, t.links.get? l = some x) ↔ l ∈ r.links ∧ l < 16) ∧ (∀ l x, t.links.get? l = some x → x.up = true ∧ x.enabled = true)
          ∧ (∀ n, b.domainClock = some n → (∃ l ∈ r.links, l < 16) → t.now = n)
          ∧ (∀ a, (2 ^ 28 ≤ a ∧ a < 2 ^ 29 ∨ 2 ^ 40 ≤ a ∧ a < 2 ^ 40 + 2 ^ 38) → t.mem.read a = unlistedByte)
          ∧ (∀ a, ¬ (2 ^ 28 ≤ a ∧ a < 2 ^ 29) → ¬ (2 ^ 40 ≤ a ∧ a < 2 ^ 40 + 2 ^ 38) → t.mem.read a = s.mem.read a)))
  ∧ (∀ (b : BootIn) (s : State), (s.bootStage ≠ 0 ∨ s.bootError ≠ 0 ∨ s.held = true) → exec (.powerOn b) s = .next s)
  ∧ (∀ (s : State) (die temp : Nat),
    (∃ t, exec .coldReset s = .next t ∧ t.bootStage = 0 ∧ t.bootError = 0 ∧ t.held = false ∧ t.config = none ∧ t.turn = .idle ∧ t.teams = []
      ∧ t.groups = [] ∧ t.lanes = [] ∧ t.cores = [] ∧ t.flash = s.flash ∧ (∀ a, 2 ^ 64 ≤ a → t.mem.read a = s.mem.read a)
      ∧ (∀ a, 2 ^ 44 ≤ a → a < 2 ^ 45 → t.mem.read a = s.mem.read a)
      ∧ ∀ a, (a < 2 ^ 44 ∨ 2 ^ 45 ≤ a ∧ a < 2 ^ 64) → t.mem.read a = unlistedByte)
    ∧ (95 ≤ temp → temp < 105 → die < 5 → ∃ t, exec (.thermalAlarm die temp) s = .next t
        ∧ t = { s with healthWord := s.healthWord ||| 4, health := t.health } ∧ (t.dieHealth die).alarm = true
        ∧ (t.dieHealth die).tmax = max (s.dieHealth die).tmax temp ∧ (t.dieHealth die).stamp = (if s.fwHalted then (s.dieHealth die).stamp else s.now)
        ∧ ∀ d, d ≠ die → t.dieHealth d = s.dieHealth d)
    ∧ (105 ≤ temp → die < 5 → ∃ t, exec (.thermalShutdown die temp) s = .next t ∧ t.held = true ∧ t.bootStage = 0 ∧ t.teams = []
        ∧ t.cycle = s.cycle ∧ t.now = s.now ∧ (∀ c, (t.core c).retired = (s.core c).retired) ∧ (∀ d, (t.dieHealth d).chans = (s.dieHealth d).chans)
        ∧ (∀ b, exec (.powerOn b) t = .next t) ∧ exec .fwStage t = .next t))


/-- The firmware events (04 R68 to R70, 25 R321): staging is accepted in states 0 and 2, and copies, verifies and measures, or fails with its error; a commit is accepted
in state 2 and takes over between two commands, where the scheduler core runs; a discard empties the staged image; a quote reports versions and
measurements. A part held in reset stages and commits nothing. Nothing outside the firmware registers and the staging area changes. What M_STAGED, FW_SVER,
the error and a quote show while an image is staged over another is the model's choice (log 77). -/
def Obligations.FirmwareEventsRun : Prop :=
  ∀ (s : State),
    let n := s.fw.len.toNat
    let bytes := s.mem.readBytes (hostAddr s.fw.src.toNat) n
    let gone (e : Nat) : State := { s with fw := { s.fw with state := 0, error := e, mstaged := 0, sver := 0 } }
    (s.held = false → (s.fw.state = 0 ∨ s.fw.state = 2) → exec .fwStage s = .next { s with fw := { s.fw with state := 1, error := 0 } })
    ∧ ((s.held = true ∨ s.fw.state ≠ 0 ∧ s.fw.state ≠ 2) → exec .fwStage s = .next s)
    ∧ (∀ ok, (s.held = true ∨ s.fw.state ≠ 1) → exec (.fwStageComplete ok) s = .next s)
    ∧ (s.held = false → s.fw.state = 1 → ∀ ok,
        ((n = 0 ∨ 2 ^ 24 < n) → exec (.fwStageComplete ok) s = .next (gone 3))
        ∧ (n ≠ 0 → n ≤ 2 ^ 24 → ok = false → exec (.fwStageComplete ok) s = .next (gone 1))
        ∧ (n ≠ 0 → n ≤ 2 ^ 24 → ok = true → Config.imageSigned bytes = false → exec (.fwStageComplete ok) s = .next (gone 2))
        ∧ (n ≠ 0 → n ≤ 2 ^ 24 → ok = true → Config.imageSigned bytes = true → s.Inv → ∃ t, exec (.fwStageComplete ok) s = .next t
            ∧ t = { s with fw := { s.fw with state := 2, error := 0, mstaged := sha256 bytes, sver := Config.imageVersion bytes }, mem := t.mem }
            ∧ (∀ i (h : i < bytes.length), t.mem.read (stagingAddr 0 + i) = bytes[i])
            ∧ ∀ a, (a < stagingAddr 0 ∨ stagingAddr 0 + 2 ^ 24 ≤ a) → t.mem.read a = s.mem.read a))
    ∧ (exec .fwCommit s = .next (if s.fw.state = 2 then { s with fw := { s.fw with state := 3 } } else s))
    ∧ ((s.fw.state ≠ 3 ∨ s.fwHalted = true ∨ s.held = true ∨ s.bootStage = 0) → exec .fwCommitPoint s = .next s)
    ∧ (s.fw.state = 3 → s.fwHalted = false → s.held = false → s.bootStage ≠ 0 → exec .fwCommitPoint s =
        .next { s with fw := { s.fw with state := 0, mfw := s.fw.mstaged, ver := s.fw.sver, mstaged := 0, sver := 0 } })
    ∧ (exec .fwDiscard s = .next (if s.fw.state = 2 then { s with fw := { s.fw with state := 0, mstaged := 0, sver := 0 } } else s))
    ∧ (s.bootStage ≠ 0 → s.fwHalted = false → ∃ t q, exec .attestationQuote s = .next t
        ∧ t = { s with fw := { s.fw with quotes := s.fw.quotes ++ [q] } }
        ∧ q.1 = [s.fw.ver.toNat, s.fw.mfw.toNat, b2n (s.fw.state == 2 || s.fw.state == 3),
            if s.fw.state = 2 ∨ s.fw.state = 3 then s.fw.mstaged.toNat else 0])

/-- GTS_READ, REGISTER_WRITE and REPORT_RING_CONTROL (04 R70, R71, 22 Table 22.2, 25 Table 25.1). The feed events of the host (04 R72, R73) and the command link (04 R76). Entries are copied when the tail is written; an overrun or an unreadable ring stops the
feed; a stopped feed that is disabled discards what it copied; a restart clears the stop. What FD_TAIL counts where an entry cannot be read, and that a base
which is no multiple of 64 is kept as written, are the model's choice (log 77). -/
def Obligations.RegisterAndFeedEventsRun : Prop :=
  (∀ (s : State) (off bytes val : Nat),
    (exec (.gtsRead 0) s = .next { s with netOut := s.netOut ++ [[0x10, s.now % 2 ^ 64]] })
    ∧ (exec (.gtsRead 1) s = .next { s with gtsHigh := BitVec.ofNat 32 (s.now / 2 ^ 32), netOut := s.netOut ++ [[0x10, s.now % 2 ^ 32]] })
    ∧ (exec (.gtsRead 2) s = .next { s with netOut := s.netOut ++ [[0x14, s.gtsHigh.toNat]] })
    ∧ (s.ownEvent off (val % 2 ^ 32) = false → off % 4 = 0 → (bytes = 4 ∨ bytes = 8) → ∃ t, exec (.registerWrite off bytes val) s = .next t
        ∧ t = { s with fw := t.fw, feeds := t.feeds, dbg := t.dbg })
    ∧ (s.fw.state ≠ 1 → s.fw.state ≠ 3 → exec (.registerWrite 0x108 4 val) s =
        .next { s with fw := { s.fw with len := BitVec.ofNat 32 (val % 2 ^ 32) } })
    ∧ (∀ f, s.hasFeed f = true → f < 64 → (s.feed f).idle = true → ∃ t, exec (.registerWrite (0x10000 + 64 * f) 8 val) s = .next t
        ∧ t.feed f = { s.feed f with base := BitVec.ofNat 64 val } ∧ ∀ g, g ≠ f → t.feed g = s.feed g)
    ∧ (∀ f, (s.feed f).idle = false → f < 64 → exec (.registerWrite (0x10000 + 64 * f) 8 val) s = .next s)
    ∧ (0x30000 ≤ off → off < 0x30020 → off % 4 = 0 → (bytes = 4 ∨ bytes = 8) → ∃ t, exec (.reportRingControl off bytes val) s = .next t
        ∧ t = { s with report := t.report } ∧ t.report.tail = s.report.tail)
    ∧ (val % 16 ≤ 8 → exec (.reportRingControl 0x30008 4 val) s =
        .next { s with report := { s.report with enable := val.testBit 31, size := val % 16 } })
    ∧ (exec (.reportRingControl 0x30018 4 val) s = .next { s with report := { s.report with lost := 0 } }))
  ∧ (∀ (s : State) (f : Nat),
    let x := s.feed f
    let others (t : State) : Prop := t = { s with feeds := t.feeds } ∧ ∀ g, g ≠ f → t.feed g = s.feed g
    (∀ ctl, ctl.testBit 31 = true →
        (s.hasFeed f = true → s.bootStage = 4 → x.idle = true → bits ctl 11 9 ≤ 4 → ∃ t, exec (.feedEnable f ctl) s = .next t ∧ others t
            ∧ t.feed f = { x with
                enable := true, size := bits ctl 11 9, work := ctl.testBit 8, partition := bits ctl 7 0, tail := 0, head := 0, entries := [] })
          ∧ ((s.hasFeed f = false ∨ s.bootStage ≠ 4 ∨ x.idle = false ∨ 4 < bits ctl 11 9) → exec (.feedEnable f ctl) s = .next s))
    ∧ (s.hasFeed f = true → x.enable = true → ∃ t, exec (.feedDisable f) s = .next t ∧ others t
        ∧ t.feed f = if x.stopped then { x with enable := false, entries := [], head := x.tail } else { x with enable := false })
    ∧ ((s.hasFeed f = false ∨ x.enable = false) → exec (.feedDisable f) s = .next s)
    ∧ (∀ t readable, s.hasFeed f = true → s.bootStage = 4 → x.enable = true → x.stopped = false →
        let n := 16 * 2 ^ x.size
        let k := (BitVec.ofNat 32 t - x.tail).toNat
        ((n < k ∨ (k ≠ 0 ∧ n < (BitVec.ofNat 32 t - x.head).toNat)) → ∃ r, exec (.feedTailWrite f t readable) s = .next r ∧ others r
            ∧ r.feed f = { x with stopped := true, stop := 1 })
          ∧ (k ≤ n → (BitVec.ofNat 32 t - x.head).toNat ≤ n → k ≤ readable → ∃ r, exec (.feedTailWrite f t readable) s = .next r ∧ others r
            ∧ (r.feed f).tail = BitVec.ofNat 32 t ∧ (r.feed f).stopped = false ∧ (r.feed f).entries = x.entries
                ++ (List.range k).map (fun j => s.mem.readBytes (hostAddr (x.base.toNat + 64 * ((x.tail.toNat + j) % n))) 64))
          ∧ (k ≤ n → (BitVec.ofNat 32 t - x.head).toNat ≤ n → readable < k → ∃ r, exec (.feedTailWrite f t readable) s = .next r ∧ others r
            ∧ (r.feed f).tail = x.tail + BitVec.ofNat 32 readable ∧ (r.feed f).stopped = true ∧ (r.feed f).stop = 3))
    ∧ (exec (.feedTailRead f) s = .next { s with netOut := s.netOut ++ [[0x10010 + 64 * f, if s.hasFeed f then x.tail.toNat else 0]] })
    ∧ (s.hasFeed f = true → ∃ t, exec (.feedRestart f) s = .next t ∧ others t ∧ t.feed f = { x with stopped := false, stop := 0, reject := 0 })
    ∧ (∀ leaf down cmd, leaf < 32 → s.fwHalted = false → s.bootStage ≠ 0 →
        let key := leaf * 2 + b2n down
        let l := s.cmdLinks.getD key CmdLink.fresh
        (l.permits ≠ 0 → cmd.length = 32 → ∃ t, exec (.commandLinkCommand leaf down false cmd) s = .next t
            ∧ t = { s with cmdLinks := t.cmdLinks } ∧ t.cmdLinks.getD key CmdLink.fresh = { permits := l.permits - 1, inbox := l.inbox ++ [cmd] })
          ∧ (∀ c r, l.inbox = c :: r → ∃ t, exec (.commandLinkCommand leaf down true cmd) s = .next t
            ∧ t = { s with cmdLinks := t.cmdLinks } ∧ t.cmdLinks.getD key CmdLink.fresh = { permits := l.permits + 1, inbox := r })))


/-- ECC_CORRECTED, ECC_UNCORRECTABLE, SCRUB, CHANNEL_MIGRATE and HEALTH_RECORD_UPDATE (25 R326 to R329): a correction is counted for the die's record and for its
unit, which fails at the 64th within one second, and changes no value; an uncorrectable error read by a lane traps with cause 33; a reading of the junction is
noted with its time, and from 95 °C on is an alarm and from 105 °C on a shutdown (00 R9); a failed channel gives up its frames one after another to the
partition's other channels, and is retired once no frame lies in it. A leaf is unmapped first, and mapped in its new frame once its purge has ended; a root,
a table or a leaf with pinned code moves at one stroke. The new address of a table and the choice of the free frame are the model's choice (logs 11, 56). -/
def Obligations.HealthEventsRun : Prop :=
  ∀ (s : State),
    (exec .scrub s = .next s)
    ∧ (∀ die temp, die < 5 → s.fwHalted = false → s.held = false →
        (temp < 95 → ∃ t, exec (.healthRecordUpdate ⟨die, temp⟩) s = .next t ∧ t = { s with health := t.health }
          ∧ t.dieHealth die = { (s.dieHealth die).read temp with stamp := s.now })
        ∧ (95 ≤ temp → temp < 105 → exec (.healthRecordUpdate ⟨die, temp⟩) s = exec (.thermalAlarm die temp) s)
        ∧ (105 ≤ temp → exec (.healthRecordUpdate ⟨die, temp⟩) s = exec (.thermalShutdown die temp) s))
    ∧ (∀ u, ∃ t, exec (.eccCorrected u) s = .next t
        ∧ (s.unitOf u = none → t = { s with health := t.health })
        ∧ (∀ x, s.unitOf u = some x →
            let log := s.eccLog.filter (fun e => s.now < e.2 + 10 ^ 9) ++ [(x, s.now)]
            ((log.filter (fun e => e.1 == x)).length < 64 → t = { s with health := t.health, eccLog := log })
              ∧ (∀ c, x = .core c → 64 ≤ (log.filter (fun e => e.1 == x)).length → (t.core c).retired = true ∧ t.healthWord = s.healthWord ||| 3)))
    ∧ (∀ c gk reg reader t, exec (.eccCorrected (.row c gk reg reader)) s = .next t → (t.dieHealth (c / 64)).crf = satInc (s.dieHealth (c / 64)).crf)
    ∧ (∀ d chan reader t, exec (.eccCorrected (.dram d chan reader)) s = .next t → (t.dieHealth d).cdr = satInc (s.dieHealth d).cdr)
    ∧ (∀ u, ∃ t, exec (.eccUncorrectable u) s = .next t)
    ∧ (∀ d off lk, s.recordsTrap (lk / 32) = true → ∃ t r, exec (.eccUncorrectable (.cavern d off (.lane lk))) s = .next t
        ∧ (t.team (teamOf (lk / 32))).record = some r ∧ r.cause = 33 ∧ r.detail.toNat = off % 2 ^ 20
        ∧ (t.dieHealth d).unc = satInc (s.dieHealth d).unc ∧ t.mem = s.mem)
    ∧ (∀ die chan, s.fwHalted = false → (s.dieHealth die).failing.contains chan = true →
        let found := (List.range 256).findSome? (fun p =>
          if s.partValid p then ((s.partFrames p).find? (fun f => f.lies die chan)).map (fun f => (p, f)) else none)
        let pte (e : Nat) : Nat := leNat (s.mem.readBytes (tableAddr e) 8)
        let apart (e lo n : Nat) : Prop := tableAddr e + 8 ≤ lo ∨ lo + n ≤ tableAddr e
        (∀ m, s.move = some m → (m.die ≠ die ∨ m.chan ≠ chan ∨ s.purges.get? m.purge ≠ none) → exec (.channelMigrate die chan) s = .next s)
        ∧ (∀ m, s.move = some m → m.die = die → m.chan = chan → s.purges.get? m.purge = none → s.Inv →
            let lo := dramAddr m.die m.dst
            ∃ t, exec (.channelMigrate die chan) s = .next t ∧ t.move = none
              ∧ (apart m.entry lo (2 ^ m.bits) →
                  t.mem.readBytes (tableAddr m.entry) 8 = leBytes 8 (pte m.entry - pteFrame (pte m.entry) + m.dst - b2n (pteValid (pte m.entry)) + 1)
                  ∧ ∀ i, i < 2 ^ m.bits → t.mem.read (lo + i) = s.mem.read (dramAddr m.die (pteFrame (pte m.entry) % 2 ^ 36) + i))
              ∧ ∀ a, (a < lo ∨ lo + 2 ^ m.bits ≤ a) → (a < tableAddr m.entry ∨ tableAddr m.entry + 8 ≤ a) → t.mem.read a = s.mem.read a)
        ∧ (s.move = none → (found = none → ∃ t, exec (.channelMigrate die chan) s = .next t ∧ t = { s with health := t.health, healthWord := s.healthWord ||| 3 }
            ∧ chan ∈ (t.dieHealth die).chans)
          ∧ (∀ p f, found = some (p, f) → s.freeFrame p die chan f = none → exec (.channelMigrate die chan) s = .next s)
          ∧ (∀ p f a, found = some (p, f) → s.freeFrame p die chan f = some a → ∃ t, exec (.channelMigrate die chan) s = .next t
              ∧ (let frame := if f.leaf then a else f.die * 2 ^ 36 + a
                let copied := ∀ i, i < 2 ^ f.page → t.mem.read (dramAddr f.die a + i) = s.mem.read (dramAddr f.die (f.frame % 2 ^ 36) + i)
                let unmapped := f.leaf = true ∧ s.pinnedPage p (f.owner * 2 ^ 50 + f.off) (2 ^ f.page) = false
                (f.entry = none → t.roots.get? (f.owner * 256 + p) = some frame ∧ t.move = none ∧ (s.Inv → copied))
                  ∧ ∀ e, f.entry = some e → s.Inv →
                      (¬ unmapped → t.move = none ∧ (apart e (dramAddr f.die a) (2 ^ f.page) →
                        t.mem.readBytes (tableAddr e) 8 = leBytes 8 (pte e - pteFrame (pte e) + frame) ∧ copied))
                      ∧ (unmapped → t.mem = s.mem.writeBytes (tableAddr e) (leBytes 8 (pte e - 1)) ∧ (t.purges.get? s.serial).isSome = true
                          ∧ ∃ m, t.move = some m ∧ m.dst = a ∧ m.entry = e ∧ m.off = f.off ∧ m.bits = f.page ∧ m.purge = s.serial)))))

/-! ## Events: launches, teams, tasks and messages (04 R74 to R90, 05 R97, 21 R288, 25 R317 to R322) -/

/-- FEED_ENTRY_DISPATCH, WORK_RECORD_APPEND and WINDOW_TIMEOUT (04 R74, R75, R83): an entry that passes the launch checks is accepted under a fresh id with its teams handed
out; one that fails ends with its cause, and completes as soon as what it leaves behind can be written; a work record goes to its chute, or the feed stops; a window is handed on 256 cycles after its
first child, or waits for a halted Fiaris complex and behind the windows that closed before it (22 R307). The memory that an accepted entry changes is that of the
translation tables, whose accessed bits the look at its image sets (14 R200). What a completion waits for is the model's choice (log 52). -/
def Obligations.FeedDispatchRun : Prop :=
  (∀ (s : State) (f : Nat) (e : List Byte) (more : List (List Byte)),
    let x := s.feed f
    let d := entryDesc e
    s.Inv → x.entries = e :: more → s.liveFeed f = true → x.work = false → (dAfter d = true → ∀ g ∈ x.launches, (s.grid g).complete = true) →
      (∀ k, s.launchCause d x.partition = 0 → (s.kernelAt x.partition (dImage d)).1 = some k → ∃ t, exec (.feedEntryDispatch f) s = .next t
          ∧ (t.feed f).entries = more ∧ (t.feed f).head = x.head + 1 ∧ (t.feed f).launches = x.launches ++ [s.serial] ∧ OffTables s t
          ∧ (t.grid s.serial).id = s.newId ∧ (t.grid s.serial).accepted = true ∧ (t.grid s.serial).kernel = k
          ∧ (t.grid s.serial).teams = dTeams d ∧ (t.grid s.serial).desc = d ∧ (∀ g, g ≠ s.serial → t.grid g = s.grid g) ∧ t.teams = s.teams)
        ∧ (s.launchCause d x.partition ≠ 0 → ∃ t, exec (.feedEntryDispatch f) s = .next t
          ∧ (t.feed f).entries = more ∧ (t.feed f).reject = s.launchCause d x.partition
          ∧ (t.grid s.serial).complete = (s.lookedUp x.partition (dImage d)).canLeave x.partition d ∧ (t.grid s.serial).status = 1 ∧ (t.grid s.serial).cause = s.launchCause d x.partition))
  ∧ (∀ (s : State) (f : Nat) (e : List Byte) (more : List (List Byte)),
    let x := s.feed f
    x.entries = e :: more → s.liveFeed f = true → x.work = true →
      (s.findTeam x.wlaunch x.team.toNat = none → ∃ t, exec (.workRecordAppend f) s = .next t ∧ t = { s with feeds := t.feeds }
          ∧ t.feed f = { x with stopped := true, stop := 2 })
        ∧ (∀ tk d, s.findTeam x.wlaunch x.team.toNat = some tk → ((s.team tk).chute x.chute).desc = some d → descPend d = 2 →
            s.partitionOf tk = x.partition → (s.team tk).residency = .resident → ((s.team tk).chute x.chute).free ≠ 0 → s.Inv →
            let c := (s.team tk).chute x.chute
            ∃ t, exec (.workRecordAppend f) s = .next t ∧ (t.feed f).entries = more ∧ (t.feed f).head = x.head + 1
              ∧ ((t.team tk).chute x.chute).elems.length = c.elems.length + 1 ∧ ((t.team tk).chute x.chute).free = c.free - 1
              ∧ t.mem = s.mem.writeBytes (slotPhys (s.team tk) c d c.elems.length) e))
  ∧ (∀ (s : State) (w : Nat) (x : Window), s.windows.get? w = some x →
      (x.closed = false → x.opened + 256 ≤ s.cycle → (s.fwHalted = true ∨ s.holding = true) → ∃ t n, exec (.windowTimeout w) s = .next t
          ∧ t.windows.get? w = some { x with closed := true, shut := n } ∧ (∀ e ∈ s.windows, e.2.shut < n) ∧ t.grids = s.grids ∧ t.mem = s.mem)
        ∧ (x.closed = false → x.opened + 256 ≤ s.cycle → s.fwHalted = false → s.holding = false →
            ∃ t, exec (.windowTimeout w) s = .next t ∧ t.windows.get? w = none)
        ∧ (x.closed = true → s.fwHalted = false → s.shutFirst x = true → ∃ t, exec (.windowTimeout w) s = .next t ∧ t.windows.get? w = none)
        ∧ ((x.closed = true ∧ (s.fwHalted = true ∨ s.shutFirst x = false) ∨ x.closed = false ∧ s.cycle < x.opened + 256) →
            exec (.windowTimeout w) s = .next s))

/-- TEAM_PLACE, CLUSTER_STEAL and DIE_STEAL (04 R78, 05 R97, 01 R19): the next team of a range is started by the plan its cluster gives, a cooperative grid is started whole;
a steal takes the upper half of the longest range and leaves the lower, longer half: which range is split, and where, is the model's choice (log 47). -/
def Obligations.PlacementRuns : Prop :=
  ∀ (s : State) (cl grid : Nat),
    let x := s.grid grid
    s.fwHalted = false → s.startable grid = true →
      (x.unstarted cl ≠ 0 →
        (∀ o ∈ s.grids, o.1 ≠ grid → o.2.unstarted cl ≠ 0 → s.startable o.1 = true → s.before o.1 grid = true → s.startOn o.1 cl = none) →
        (x.kernel.coop = true → ∀ t, startAll grid (s.clusters x.partition) (x.teams + 1) s = some t → exec (.teamPlace cl grid) s = .next t)
        ∧ (x.kernel.coop = false → ∀ i p t, x.nextIndex cl = some i → s.roomFor grid cl = some p →
            (s.updGrid grid (fun g => g.takeIndex cl)).startTeam grid i p = some t →
            exec (.teamPlace cl grid) s = .next t ∧ ∃ tk, (t.team tk).grid = grid ∧ (t.team tk).index = i ∧ (t.team tk).residency = .resident
              ∧ (t.team tk).cores = p.map (fun q => q.core) ∧ (t.team tk).kernel = x.kernel))
      ∧ (∀ v lo n, s.clusterSteal x.partition cl = some (v, grid) → x.longest v = some (lo, n) → 2 ≤ n →
          (∀ c ∈ s.clusters x.partition, c / 8 = cl / 8 → c < cl → s.clusterSteal x.partition c = none) →
          ∃ t, exec (.clusterSteal cl grid) s = .next t ∧ t = { s with grids := t.grids } ∧ (∀ g, g ≠ grid → t.grid g = s.grid g)
            ∧ (t.grid grid).ranges.getD cl [] = x.ranges.getD cl [] ++ [(lo + (n + 1) / 2, n - (n + 1) / 2)]
            ∧ (t.grid grid).ranges.getD v [] = (x.ranges.getD v []).map (fun r => if r = (lo, n) then (lo, (n + 1) / 2) else r))
      ∧ (∀ v g, s.clusterSteal x.partition cl = some (v, g) → s.unstartedOn cl = 0 ∧ v ≠ cl ∧ v / 8 = cl / 8 ∧ v ∈ s.clusters x.partition
          ∧ (s.roomFor g cl).isSome = true ∧ s.startable g = true ∧ (s.grid g).kernel.coop = false
          ∧ ∀ c ∈ s.clusters x.partition, c / 8 = cl / 8 → c ≠ cl → s.unstartedOn c ≤ s.unstartedOn v)
      ∧ (∀ die v lo n, s.dieSteal x.partition die = some (v, grid) → x.longest v = some (lo, n) → 2 ≤ n →
          (∀ d, d < die → s.dieSteal x.partition d = none) →
          ∃ t, exec (.dieSteal die grid) s = .next t ∧ t = { s with grids := t.grids } ∧ (∀ g, g ≠ grid → t.grid g = s.grid g)
            ∧ (t.grid grid).ranges.getD v [] = (x.ranges.getD v []).map (fun r => if r = (lo, n) then (lo, (n + 1) / 2) else r))
      ∧ (∀ die v g, s.dieSteal x.partition die = some (v, g) → v / 8 ≠ die ∧ v ∈ s.clusters x.partition
          ∧ (∀ c ∈ s.clusters x.partition, c / 8 = die → s.unstartedOn c = 0) ∧ ∃ c ∈ s.clusters x.partition, c / 8 = die ∧ (s.roomFor g c).isSome = true)

/-- TASK_RUN, TASK_STEAL, MESSAGE_ARRIVE, MESSAGE_RETRY and HANDLER_RUN (04 R86, R88, R90): a task starts from the tail of its owner's deque or from the head of a victim's; a message
joins the queue of its target where there is room, and is refused where there is not; one of another part comes only over a link that runs, and not to a part
held in reset (00 R9); the handler slot runs the oldest message. -/
def Obligations.TasksAndMessagesRun : Prop :=
  (∀ (s : State) (core : Nat) (rec : List Byte) (e : TaskEntry) (t : State), s.fwHalted = false → (s.grid e.grid).status = 0 →
      s.taskReleased e = true →
      ((s.dqRecords core).getLast? = some (rec, e) → (s.dqPop core).runTask core rec e.grid = some t →
        exec (.taskRun core) s = .next t ∧ (t.core core).dqCount = (s.core core).dqCount - 1 ∧ ∃ tk, (t.team tk).kind = .task rec (taskWord rec 24))
      ∧ (∀ v more, (s.core core).dqCount = 0 → taskPinned rec = false → s.dqRecords v = (rec, e) :: more →
          (victims core).find? (fun w => (s.corePart w == s.corePart core) && (match s.dqRecords w with
            | r :: _ => !taskPinned r.1 && (s.grid r.2.grid).status == 0 && s.taskReleased r.2
            | [] => false)) = some v →
          (s.dqShift v).runTask core rec e.grid = some t →
          exec (.taskSteal core) s = .next t ∧ (t.core v).dqCount = (s.core v).dqCount - 1 ∧ ∃ tk, (t.team tk).kind = .task rec (taskWord rec 24)))
  ∧ (∀ (s : State) (c k : Nat) (m : Message), s.nextOut (fun e => !e.refused) (s.core c).outbox = some (k, m) → s.localTarget m = false →
      (s.linkFor m.device = none → exec (.messageArrive (.core c)) s = .next s)
        ∧ ((s.linkFor m.device).isSome = true → ∃ t, exec (.messageArrive (.core c)) s = .next t
            ∧ (t.core c).outbox = (s.core c).outbox.eraseIdx k ∧ (∀ o, o ≠ c → t.core o = s.core o) ∧ t.mem = s.mem))
  ∧ (∀ (s : State) (c k : Nat) (m : Message), s.nextOut (fun e => !e.refused) (s.core c).outbox = some (k, m) → s.localTarget m = true →
      s.handlerImage m.partition m.handler ≠ 0 → s.corePart m.target = some m.partition →
      (s.chuteRoom m.target m = true → ∃ t, exec (.messageArrive (.core c)) s = .next t
          ∧ (t.core c).outbox = (s.core c).outbox.eraseIdx k ∧ (t.core m.target).inbox = (s.core m.target).inbox ++ [m]
          ∧ t = { s with cores := t.cores })
        ∧ (s.chuteRoom m.target m = false → ∃ t, exec (.messageArrive (.core c)) s = .next t
          ∧ (t.core c).outbox = (s.core c).outbox.set k { m with refused := true } ∧ t = { s with cores := t.cores }))
  ∧ (∀ (s : State) (c k : Nat) (m : Message), s.nextOut (fun e => e.refused) (s.core c).outbox = some (k, m) → s.localTarget m = true →
      s.handlerImage m.partition m.handler ≠ 0 → s.corePart m.target = some m.partition → s.chuteRoom m.target m = true →
      ∃ t, exec (.messageRetry c) s = .next t ∧ (t.core c).outbox = (s.core c).outbox.eraseIdx k
        ∧ (t.core m.target).inbox = (s.core m.target).inbox ++ [m] ∧ t = { s with cores := t.cores })
  ∧ (∀ (s : State) (core handler src part : Nat) (reply : Bool) (payload : List W32), core < 256 → s.held = false →
      (∃ l ∈ s.links, s.linked l.1 = true) →
      let m : Message := ⟨core, 0x7FF, handler, src, part, reply, false, payload⟩
      (s.chuteRoom core m = true → s.handlerImage part handler ≠ 0 → s.corePart core = some part → ∃ t, exec (.messageArrive (.remote core handler src part reply payload)) s = .next t
          ∧ (t.core core).inbox = (s.core core).inbox ++ [m] ∧ t = { s with cores := t.cores })
        ∧ ((s.handlerImage part handler = 0 ∨ s.corePart core ≠ some part) →
          ∃ t, exec (.messageArrive (.remote core handler src part reply payload)) s = .next t
            ∧ (t.dieHealth (core / 64)).msg = satInc (s.dieHealth (core / 64)).msg ∧ t = { s with health := t.health }))
  ∧ (∀ (s : State) (core handler src part : Nat) (reply : Bool) (payload : List W32), (s.held = true ∨ ∀ l ∈ s.links, s.linked l.1 = false) →
      exec (.messageArrive (.remote core handler src part reply payload)) s = .next s)
  ∧ (∀ (s : State) (core : Nat) (m : Message) (more : List Message) (k : Kernel) (p : List Share), s.fwHalted = false → (s.core core).inbox = m :: more →
      (s.kernelAt m.partition (s.handlerImage m.partition m.handler)).1 = some k → s.planOn m.partition k 1 [core] true = some p →
      (∀ gk ∈ s.coreGroups core, ∀ src, (s.team (teamOf gk)).kind ≠ .message src) →
      ∀ tk t, (s.bump.setGrid s.serial { Grid.fresh with
          desc := setDesc (setDesc 0 8 31 0 1) 8 47 32 1, kernel := k, partition := m.partition, teams := 1, accepted := true,
          prio := 15 }).placeTeam s.serial 0 k (.message m.src) 32 0 p (firstRegs (m.payload.map (fun w => w.toNat))) = some (tk, t) →
        ∃ u, exec (.handlerRun core) s = .next u ∧ (u.core core).inbox = more ∧ (u.team tk).kind = .message m.src)

/-- GROUP_RETIRE, LAUNCH_END and LAUNCH_COMPLETE (25 R317 to R320, 21 R288): a group whose lanes have exited and whose work has drained gives up its granules, and the last one
retires its team; a trap that no handler takes ends the launch with status 2 or 4; a launch whose teams, tasks and children are done completes. What a
completion waits for, and so when a launch that has ended completes, is the model's choice (log 52). -/
def Obligations.RetirementRuns : Prop :=
  (∀ (s : State) (gk : Nat) (g : Group), s.groups.get? gk = some g → g.retired = false → (s.team (teamOf gk)).residency = .resident →
      (s.grid (s.team (teamOf gk)).grid).status = 0 → s.liveLanes gk = [] → g.ops = [] → (∀ c ∈ s.cmds, c.2.group = gk → c.2.st = .done ∧ (c.2.fault = none ∨ c.2.reported = true)) → (∀ c ∈ g.oc, c.2 = 0) →
      (s.team (teamOf gk)).record = none →
      ((∃ gi, gi < (s.team (teamOf gk)).groups ∧ groupKey (teamOf gk) gi ≠ gk ∧ (s.group (groupKey (teamOf gk) gi)).retired = false) →
          ∃ t, exec (.groupRetire gk) s = .next t ∧ (t.group gk).retired = true ∧ (t.group gk).granules = [] ∧ t.mem = s.mem
            ∧ (t.team (teamOf gk)).residency = .resident)
        ∧ ((∀ gi, gi < (s.team (teamOf gk)).groups → groupKey (teamOf gk) gi ≠ gk → (s.group (groupKey (teamOf gk) gi)).retired = true) →
            (s.team (teamOf gk)).kind = .ordinary →
            ∃ t, exec (.groupRetire gk) s = .next t ∧ (t.team (teamOf gk)).residency = .retired
              ∧ (t.grid (s.team (teamOf gk)).grid).retired = (s.grid (s.team (teamOf gk)).grid).retired + 1))
  ∧ (∀ (s : State) (grid tk : Nat) (tm : Team), (s.grid grid).complete = false → s.fwHalted = false →
      ((s.grid grid).status = 0 →
        (s.teams.filter (fun t => t.2.grid == grid && t.2.residency == .resident)).find? (fun t => s.unhandled t.1) = some (tk, tm) →
        ∃ t, exec (.launchEnd grid) s = .next t ∧ (t.grid grid).record = tm.record
          ∧ (t.grid grid).status = (if tm.kernel.handler = 0 ∧ tm.record.any (fun r => r.inhdl) = false then 2 else 4))
      ∧ ((s.grid grid).status ≠ 0 →
        (s.teams.filter (fun t => t.2.grid == grid && t.2.residency == .resident)).find? (fun t => s.drained t.1) = some (tk, tm) →
        ∃ t, exec (.launchEnd grid) s = .next t ∧ (t.team tk).residency = .ended ∧ t.mem = s.mem))
  ∧ (∀ (s : State) (grid : Nat),
      let x := s.grid grid
      (x.status ≠ 1 → x.accepted = true → x.complete = false → x.tasks = 0 → x.children = [] → x.teams ≤ x.retired →
        s.hasChild x.id.toNat = false → s.canLeave x.partition x.desc = true →
        ∃ t, exec (.launchComplete grid) s = .next t ∧ (t.grid grid).complete = true ∧ (t.grid grid).pinned = false)
      ∧ (x.status = 1 → x.complete = false →
          (s.canLeave x.partition x.desc = false → exec (.launchComplete grid) s = .next s)
          ∧ (s.canLeave x.partition x.desc = true → ∃ t, exec (.launchComplete grid) s = .next t ∧ (t.grid grid).complete = true)))

/-! ## Events: chutes (11 R174 to R176, 04 R75) -/

/-- The events of chutes with a remote end. An element on the way enters the ring at its slot, from the cycle after its push on, once what its push releases has been performed; a notice gives back one count; the host
forwards into the window; a pop notice brings head and window up to date, and so does a withdrawal, made while the elements that the producer's tail pops
want reach to the newest one forwarded; the close reaches the consumer after every element. Memory changes only by
the element that arrives. -/
def Obligations.ChuteEventsRun : Prop :=
  ∀ (s : State) (t q : Nat) (c : Chute) (d : BitVec 64), s.liveChute t q = some (c, d) → s.Inv →
    let after (r : State) : Chute := (r.team t).chute q
    (∀ p more, c.arriving = p :: more → descPend d = 1 → p.bytes ≠ [] → p.from_ ≤ s.cycle → s.released (p.lane / 32) p.serial = true →
        c.elems.length < descCap d →
        ∃ r, exec (.chuteRemotePushArrive t q) s = .next r ∧ (after r).arriving = more ∧ (after r).elems.length = c.elems.length + 1
          ∧ (∀ i (h : i < p.bytes.length), slotPhys (s.team t) c d c.elems.length + i < 2 ^ 64 →
              r.mem.read (slotPhys (s.team t) c d c.elems.length + i) = p.bytes[i])
          ∧ ∀ a, a < 2 ^ 64 → (a < slotPhys (s.team t) c d c.elems.length ∨ slotPhys (s.team t) c d c.elems.length + p.bytes.length ≤ a) →
              r.mem.read a = s.mem.read a)
    ∧ (c.notices ≠ 0 → ∃ r, exec (.chuteFreeNotice t q) s = .next r ∧ after r = { c with notices := c.notices - 1, free := c.free + 1 } ∧ r.mem = s.mem)
    ∧ (∀ k e, c.nextForward = some (k, e) → remoteConsumer d = true → c.window.length < 16 → s.poppable e = true →
        (c.withdrawn = false ∨ k + s.producerWants t q d < c.elems.length) →
        ∃ r, exec (.chuteForward t q) s = .next r ∧ r.mem = s.mem
          ∧ after r = { c with
              window := c.window ++ [s.mem.readBytes (slotPhys (s.team t) c d k) (elemBytes (descWidth d))],
              elems := c.elems.set k { e with forwarded := true } })
    ∧ (c.popped ≠ 0 → ∃ r, exec (.chutePopNotice t q) s = .next r ∧ (after r).popped = c.popped - 1 ∧ (after r).elems = c.elems.drop 1
        ∧ (after r).head = (c.head + 1) % descCap d ∧ r.mem = s.mem)
    ∧ (s.wantsForwarded t q c d = false → exec (.chuteWithdraw t q) s = .next s)
    ∧ (s.wantsForwarded t q c d = true →
        (c.window ≠ [] → ∃ r, exec (.chuteWithdraw t q) s = .next r ∧ r.mem = s.mem ∧ (after r).window = c.window.dropLast
            ∧ (after r).elems = c.elems.modify (c.ahead - 1) (fun e => { e with forwarded := false }) ∧ (after r).withdrawn = true)
          ∧ (c.window = [] → c.poppedAt ≠ some s.cycle → ∃ r, exec (.chuteWithdraw t q) s = .next r ∧ r.mem = s.mem
              ∧ (after r).elems = c.elems.drop 1 ∧ (after r).window = [])
          ∧ (c.window = [] → c.poppedAt = some s.cycle → exec (.chuteWithdraw t q) s = .next s))
    ∧ (remoteConsumer d = true → s.closedHere c = true → c.closedThere = false → (∀ e ∈ c.elems, e.forwarded = true) →
        ∃ r, exec (.chuteCloseNotice t q) s = .next r ∧ after r = { c with closedThere := true } ∧ r.mem = s.mem)

/-! ## Events: issue (06 R104, 07 R115 to R120) -/

/-- CLAUSE_FETCH_COMPLETE and ISSUE_OPPORTUNITY. A clause that the core's instruction cache holds is entered from it; one that has arrived whole counts as a
miss, is entered where it is valid, and is in the instruction cache of the core from then on; a port
serves the first slot after its pointer whose group may be served, and the class that the census chooses becomes the issue step in progress, with one word for
each of its lanes. -/
def Obligations.IssueEventsRun : Prop :=
  (∀ (s : State) (gk lane : Nat) (c : Clause) (t0 : State),
      let lk := laneKey gk lane
      (s.groups.get? gk).isSome = true → (s.group gk).retired = false → (s.team (teamOf gk)).residency = .resident → lane < 32 →
      (s.lane lk).fetching = true →
      (s.cached gk (s.lane lk).pc.toNat = some c → c.valid (s.team (teamOf gk)).kernel.codeSize = true → ∃ t, exec (.clauseFetchComplete gk lane) s = .next t
          ∧ (t.lane lk).clause = some c ∧ (t.lane lk).badClause = false ∧ (t.lane lk).pc = (s.lane lk).pc ∧ ValuesKept (s.lane lk) (t.lane lk)
          ∧ (t.group gk).perf = (s.group gk).perf ∧ t.mem = s.mem)
      ∧ (s.cached gk (s.lane lk).pc.toNat = none → s.fetchClause gk (s.lane lk).pc.toNat = (some c, t0) →
        (c.valid (s.team (teamOf gk)).kernel.codeSize = true → ∃ t, exec (.clauseFetchComplete gk lane) s = .next t
            ∧ (t.lane lk).clause = some c ∧ (t.lane lk).badClause = false ∧ (t.lane lk).pc = (s.lane lk).pc ∧ ValuesKept (s.lane lk) (t.lane lk)
            ∧ t.cached gk c.at_ = some c ∧ (t.group gk).perf.getD 6 0 = (s.group gk).perf.getD 6 0 + 1)
          ∧ (c.valid (s.team (teamOf gk)).kernel.codeSize = false → ∃ t, exec (.clauseFetchComplete gk lane) s = .next t
            ∧ (t.lane lk).badClause = true ∧ (t.lane lk).clause = none ∧ (t.lane lk).pc = (s.lane lk).pc ∧ ValuesKept (s.lane lk) (t.lane lk))))
  ∧ (∀ (s : State) (core port slot gk cls : Nat), s.turn = .idle → core < 256 → port < 4 → (s.core core).served.get? port ≠ some s.cycle →
      let r := (s.refresh core port).noteWhy
      r.nextSlot core port = some (slot, gk) → (r.group gk).core = core → r.badLanes gk = [] →
      let r1 := (r.updCore core (fun c => { c with ptr := c.ptr.put port slot, served := c.served.put port r.cycle })).updGroup gk
        (fun g => { g with opps := g.opps + 1 })
      let xs := r.stepLanes gk (classLanes (r.readyLanes gk) cls)
      let st : IssueStep :=
        { group := gk, cls := cls, todo := xs, all := xs, checked := true, ready := r.readyLanes gk, serial := r.serial, oc0 := (r.group gk).oc,
          skips0 := (r.group gk).skips, tt0 := (r.team (teamOf gk)).tt, reads := r1.sysReads gk xs, pend := [] }
      r1.census gk (r.readyLanes gk) = some cls → r1.breakHit gk xs = none → trapOfStep (r1.failing st) = none →
        ∃ t : State, exec (.issueOpportunity core port) s = .next (t.stepTaken gk) ∧ (s.dbg.stepping ≠ some gk → t.stepTaken gk = t)
          ∧ t.turn = .issue st ∧ (t.core core).ptr.get? port = some slot ∧ (t.core core).served.get? port = some r.cycle
          ∧ (t.group gk).opps = (r.group gk).opps + 1 ∧ t.mem = r.mem ∧ t.lanes = r.lanes)

/-! ## Events: completions (12 R188, 15 R213 to R227, 18 R274 to R276) -/

/-- XTLD_COMPLETE, WAITS_WAKE, FENCEI_COMPLETE and SEAL_COMPLETE: a copy of a context is loading first and then takes the condition that the image gives it; a WAITS whose word differs from its comparand writes the
word and its lane goes on; a FENCEI goes on when the caches of the team's cores hold no clause of its image; a seal is ready when every earlier write into its range has
been performed, and an unsealed entry is empty. That a copy takes two steps, the first of which sets it loading, is the model's choice (log 41). -/
def Obligations.OperationsComplete : Prop :=
  ∀ (s : State) (gk id : Nat) (o : LaneOp), (s.group gk).op? id = some o →
    let tk := teamOf gk
    let passed (t : State) : Prop := (t.lane o.lane).block = .free ∧ (t.lane o.lane).pc = BitVec.ofNat 32 ((s.lane o.lane).nextAt + 8)
    (∀ a xc img stop left core found, o.kind = .xtld a xc img stop left found → core ∈ left → s.mayPerform gk o = true →
        ((s.team tk).contexts.getD (core * 8 + xc) Context.empty).cond ≠ 1 →
        exec (.xtldComplete gk id core) s = .next (s.setContext tk core xc { Context.empty with cond := 1 }))
    ∧ (∀ a xc img stop left core, o.kind = .xtld a xc img stop left none → core ∈ left → s.mayPerform gk o = true → s.Inv →
        ((s.team tk).contexts.getD (core * 8 + xc) Context.empty).cond = 1 →
        ∃ t, exec (.xtldComplete gk id core) s = .next t
          ∧ ((t.team tk).contexts.getD (core * 8 + xc) Context.empty).cond = (s.readImage gk o xc img stop).cond
          ∧ ((t.team tk).contexts.getD (core * 8 + xc) Context.empty).image = (s.readImage gk o xc img stop).image
          ∧ ((∀ c ∈ left, c = core) → (t.group gk).op? id = none) ∧ MemoryKept s t ∧ ∀ j, ValuesKept (s.lane j) (t.lane j))
    ∧ (∀ a cmp dst drop, o.kind = .waits a cmp dst drop → s.Inv → leNat (s.mem.readBytes a 4) ≠ cmp.toNat → s.groupHalted gk = false → s.mayPerform gk o = true →
        s.storesTo gk o.id a 4 = false → (s.team tk).residency = .resident → ∃ t, exec (.waitsWake gk id) s = .next t
          ∧ Landed (regWrites dst 1 (leNat (s.mem.readBytes a 4))) (s.lane o.lane) (t.lane o.lane) ∧ passed t
          ∧ (t.group gk).op? id = none ∧ MemoryKept s t)
    ∧ (o.kind = .fencei → ∃ t, exec (.fenceiComplete gk id) s = .next t ∧ passed t ∧ (t.group gk).op? id = none ∧ t.mem = s.mem
        ∧ (∀ c ∈ (s.team tk).cores, ∀ e ∈ (t.core c).icache, e.1 ≠ (s.team tk).kernel.image) ∧ ValuesKept (s.lane o.lane) (t.lane o.lane))
    ∧ (∀ e dst key x, o.kind = .sealing e true dst →
        List.find? (fun y => y.2.by_ == o.id) (s.sealTables.getD (s.partitionOf tk) []) = some (key, x) → x.heard s = true →
        s.writesPending (s.partitionOf tk) o.id x = false → ∃ t, exec (.sealComplete gk id) s = .next t
          ∧ (t.sealTables.getD (s.partitionOf tk) []).get? key = some { x with ready := true }
          ∧ Landed (regWrites dst 1 e) (s.lane o.lane) (t.lane o.lane) ∧ (t.group gk).op? id = none ∧ t.mem = s.mem)
    ∧ (∀ e dst x, o.kind = .sealing e false dst → (s.sealTables.getD (s.partitionOf tk) []).get? e = some x → x.heard s = true → x.ready = true →
        ∃ t, exec (.sealComplete gk id) s = .next t ∧ (t.sealTables.getD (s.partitionOf tk) []).get? e = none
          ∧ Landed (regWrites dst 1 0) (s.lane o.lane) (t.lane o.lane) ∧ (t.group gk).op? id = none ∧ t.mem = s.mem
          ∧ (x.space ≠ 3 → t.replicas = s.replicas))

/-- ENGINE_REQUEST_RESPONSE, REQUEST_TIMEOUT, SIGNAL_UPDATE and COLL_CONTRIBUTION (14 R209, 15 R213 to R227, 21 R291): the next access of an element is made at its owner, with the
elements below it started; a request to another part leaves on its link first, is answered over it while it runs, and takes fault 8 after a millisecond without an answer; a SWAIT
whose signal has reached its value completes; a SIG changes its signal where it lies; a CSTAT answers its collective's state, and a CCAN of a collective that is not open does nothing. -/
def Obligations.EngineEventsRun : Prop :=
  ∀ (s : State) (k : Nat) (c : Command) (ans : Answer), s.cmds.get? k = some c → s.mayStart k c = true →
    (∀ u a, c.op ≠ 0x14F → isSignal c.op = false → ¬ (0x150 ≤ c.op ∧ c.op ≤ 0x152) → u < c.units → c.performed.contains u = false →
        s.frontRoom c u = true → s.actOf c u = some a →
        let c1 := c.begin_.start (c.starting u)
        let s1 := s.setCmd k c1
        let back (l part : Nat) : State := (s1.answered l part).updCmd k (fun c => { c with sent := c.sent.del u })
        (s1.farAct c1 u a = none → exec (.engineRequestResponse k u ans) s = .next ((s1.engineAct k u c1 a (s1.ownAnswer c1 a ans)).closeUnit k u))
        ∧ (∀ va act, s1.farAct c1 u a = some (va, act) → c.sent.get? u = none →
            (∀ l, s.linkFor (vaDev va) = some l → ∃ t d, exec (.engineRequestResponse k u ans) s = .next t
                ∧ t.cmds.get? k = some d ∧ d.sent.get? u = some (l, s.cycle, vaDev va) ∧ t.mem = s.mem
                ∧ (t.link l).outstanding.getD (vaDev va) 0 = (s.link l).outstanding.getD (vaDev va) 0 + 1)
              ∧ (s.linkFor (vaDev va) = none → exec (.engineRequestResponse k u ans) s = .next s))
        ∧ (∀ va act l since part, s1.farAct c1 u a = some (va, act) → c.sent.get? u = some (l, since, part) →
            (since + cyclesOf 1000000 ≤ s.cycle →
                exec (.requestTimeout k u) s = .next (((back l part).engineAct k u c1 a (.fault 8)).closeUnit k u))
              ∧ (s.cycle < since + cyclesOf 1000000 → exec (.requestTimeout k u) s = .next s)
              ∧ ((s.link l).running = true → ∀ b, ans = .data b →
                  exec (.engineRequestResponse k u ans) s = .next (((back l part).engineAct k u c1 a ans).closeUnit k u))
              ∧ ((s.link l).running = false → exec (.engineRequestResponse k u ans) s = .next s)))
    ∧ (∀ b t, c.op = 0x14F → s.foreignAt c 0 c.sd (idx32 c.aux) false = none → c.cnt ≤ leNat b →
        let s1 := s.updCmd k (fun c => c.begin_)
        s1.engineElem c.group c.pc c.sd (idx32 c.aux) none (s1.ownAnswer c (.read c.sd c.sdN (idx32 c.aux) 0) ans) = (.bytes b, t) →
        exec (.engineRequestResponse k 0 ans) s = .next (t.finish k))
    ∧ (∀ j t, isSignal c.op = true → s.allBefore c k = true → boundsOf (recBounds c.sd) (recExtent c.sd) 8 0 8 (idx32 c.aux) = .at_ j →
        let va := ((recBase c.sd : Int) + j * 8).toNat
        vaReserved va = false → s.ownAddr va = true → (∀ f, ans ≠ .fault f) →
        s.signalAt (.die ((s.group c.group).core / 64)) (s.partitionOf (teamOf c.group)) va
          (fun x => if c.op = 0x14D then (x + c.cnt) % 2 ^ 64 else c.cnt) = (none, t) →
        exec (.signalUpdate k ans) s = .next ((t.moved k 8).finish k))
    ∧ (c.op = 0x152 → s.inFrame c = false → vaReserved (recBase c.sx) = false → s.ownAddr (recBase c.sx) = true → ∃ t, exec (.collContribution k ans) s = .next t
        ∧ Landed (regWrites c.dst 2 (match s.colls.get? (s.collKey (s.partitionOf (teamOf c.group)) (recBase c.sx)) with
            | some x => 5 + 2 ^ 32 * x.mask
            | none => 0)) (s.lane (laneKey c.group c.lane)) (t.lane (laneKey c.group c.lane)))
    ∧ (c.op = 0x151 → vaReserved (recBase c.sx) = false → s.ownAddr (recBase c.sx) = true →
        s.colls.get? (s.collKey (s.partitionOf (teamOf c.group)) (recBase c.sx)) = none →
        exec (.collContribution k ans) s = .next ((s.updCmd k (fun c => c.begin_)).finish k))

/-! ## Events: owners, the pager and the links (14 R199 to R210) -/

/-- OWNER_TRANSLATE, PAGE_UNMAP, PURGE, PURGE_COMPLETE and PART_REPORTED_ABSENT (14 R199, R203, R209, 15 R225): a request is served at its owner and its answer goes back, that of a SWAIT when its
signal has reached its value; an unmapping writes the leaf's word, drops its cached translation and waits for the receivers of its purge, each of which discards its replicas; another
part's first goes out over a link, and one that comes from another part has the reads on their way to its page asked afresh; when every answer is in the companion word is cleared; an
absent part counts as having answered. FLIT_RECEIVE, REPLAY_REQUEST, LINK_DOWN and
LINK_RETRAIN_COMPLETE (14 R207 to R209): a lost flit is counted, and a replay that is due is asked for again; a data flit that follows on is delivered; one behind a gap is held and the first
missing number is asked for once; a packet is sent while fewer than 1024 flits stand unacknowledged, and waits otherwise; a flit asked for is sent again, and when its eighth replay has failed the link
retrains; a link that goes down sends what waits when it has retrained. -/
def Obligations.OwnerAndLinkEventsRun : Prop :=
  (∀ (s : State) (r : OwnerReq) (n : Nat), r.src = .part n → s.linked r.link = false → exec (.ownerTranslate r) s = .next s)
  ∧ (∀ (s : State) (r : OwnerReq), s.held = false → r.owner < 5 → (∀ n, r.src = .part n → s.linked r.link = true) →
    (s.serveReq r = none → exec (.ownerTranslate r) s = .next s)
    ∧ (∀ t, s.serveReq r = some (none, t) → exec (.ownerTranslate r) s = .next t)
    ∧ (∀ f t, s.serveReq r = some (some (.error f), t) → exec (.ownerTranslate r) s = .next (t.answerTo r.src r.link [f]))
    ∧ (∀ b t, s.serveReq r = some (some (.ok b), t) → exec (.ownerTranslate r) s = .next (t.answerTo r.src r.link (0 :: b.map (fun x => x.toNat))))
    ∧ (∀ n b t, r.act = .read n → r.poisoned = false → s.serve r.src r.owner r.part r.off n none = (.ok b, t) → s.serveReq r = some (some (.ok b), t))
    ∧ (∀ bs b t, r.act = .write bs → s.serve r.src r.owner r.part r.off bs.length (some bs) = (.ok b, t) → s.serveReq r = some (some (.ok b), t))
    ∧ (∀ x a t u, r.act = .add x → s.look r = (.ok a, u) → s.signalAt r.src r.part (ownerVa r) (fun y => (y + x) % 2 ^ 64) = (none, t) →
        s.serveReq r = some (some (.ok (s.mem.readBytes a 8)), t))
    ∧ (∀ v a t, r.act = .wait v → s.look r = (.ok a, t) →
        (v ≤ leNat (t.mem.readBytes a 8) → s.serveReq r = some (some (.ok []), t))
          ∧ (leNat (t.mem.readBytes a 8) < v →
              s.serveReq r = some (none, { t with farWaits := t.farWaits ++ [⟨r.src, r.link, r.part, r.owner, r.off, v⟩] }))))
  ∧ (∀ (s : State), s.Inv →
    (∀ die part off pte l, s.fwHalted = false → s.walk die part off = .ok l →
        (s.pinnedPage part (die * 2 ^ 50 + off / 2 ^ l.page * 2 ^ l.page) (2 ^ l.page) = true → exec (.pageUnmap die part off pte) s = .next s)
        ∧ (s.pinnedPage part (die * 2 ^ 50 + off / 2 ^ l.page * 2 ^ l.page) (2 ^ l.page) = false →
          ∃ t p, exec (.pageUnmap die part off pte) s = .next t ∧ t.purges.get? s.serial = some p ∧ p.owner = die ∧ p.partition = part ∧ p.leaf = l.entry
            ∧ p.waiting = s.receivers (leNat (s.mem.readBytes (tableAddr (l.entry + 8)) 8)) ∧ p.untold = p.waiting.filter (fun r => 8 ≤ r)
            ∧ t.mem = s.mem.writeBytes (tableAddr l.entry) (leBytes 8 pte.toNat)
            ∧ (∀ c ∈ t.tcache, c ∈ s.tcache) ∧ t.teams = s.teams ∧ t.lanes = s.lanes ∧ t.replicas = s.replicas))
    ∧ (∀ id p receiver, s.purges.get? id = some p → receiver ∈ p.waiting → p.untold.contains receiver = false →
        ∃ t, exec (.purge (.own id) receiver) s = .next t
        ∧ t = { s with purges := t.purges, replicas := t.replicas } ∧ t.purges.get? id = some { p with waiting := p.waiting.erase receiver }
        ∧ (∀ r ∈ t.replicas, r ∈ s.replicas ∧ ¬ (r.die = receiver ∧ r.partition = p.partition ∧ p.page ≤ r.page ∧ r.page < p.page + p.span))
        ∧ (∀ r ∈ s.replicas, ¬ (r.die = receiver ∧ r.partition = p.partition ∧ p.page ≤ r.page ∧ r.page < p.page + p.span) → r ∈ t.replicas))
    ∧ (∀ id p receiver, s.purges.get? id = some p → receiver ∈ p.waiting → p.untold.contains receiver = true →
        (s.linkFor (receiver - 8) = none → exec (.purge (.own id) receiver) s = .next s)
          ∧ ((s.linkFor (receiver - 8)).isSome = true → ∃ t, exec (.purge (.own id) receiver) s = .next t
            ∧ t.purges.get? id = some { p with untold := p.untold.erase receiver } ∧ t.replicas = s.replicas ∧ t.mem = s.mem))
    ∧ (∀ link from_ part page span,
        ((s.held = true ∨ s.linked link = false) → exec (.purge (.far link from_ part page span) (8 + s.device)) s = .next s)
          ∧ (s.held = false → s.linked link = true → ∃ t, exec (.purge (.far link from_ part page span) (8 + s.device)) s = .next t
            ∧ t.mem = s.mem ∧ t.purges = s.purges
            ∧ (∀ k c x l since dev, s.cmds.get? k = some c → c.sent.get? x = some (l, since, dev) → s.partitionOf (teamOf c.group) = part →
                ((s.discardReplicas (fun _ => true) part (from_ * 2 ^ 37 + page) span).readAsked c x).any (fun va => from_ * 2 ^ 37 + page ≤ s.pageOf va && s.pageOf va < from_ * 2 ^ 37 + page + span) = true →
                ∃ d, t.cmds.get? k = some d ∧ d.sent.get? x = none)
            ∧ ∀ r, r ∈ t.replicas ↔ (r ∈ s.replicas
                ∧ ¬ (r.partition = part ∧ from_ * 2 ^ 37 + page ≤ r.page ∧ r.page < from_ * 2 ^ 37 + page + span))))
    ∧ (∀ id p, s.purges.get? id = some p → s.fwHalted = true → exec (.purgeComplete id) s = .next s)
    ∧ (∀ id p, s.purges.get? id = some p → p.waiting = [] → s.fwHalted = false → ∃ t, exec (.purgeComplete id) s = .next t ∧ t.purges.get? id = none
        ∧ t = { s with purges := t.purges, mem := t.mem } ∧ (∀ i, i < 8 → t.mem.read (tableAddr (p.leaf + 8) + i) = 0)
        ∧ ∀ a, (a < tableAddr (p.leaf + 8) ∨ tableAddr (p.leaf + 8) + 8 ≤ a) → t.mem.read a = s.mem.read a)
    ∧ (∀ n, ∃ t, exec (.partReportedAbsent n) s = .next t ∧ n ∈ t.absent ∧ t = { s with absent := t.absent, purges := t.purges }
        ∧ ∀ id p, t.purges.get? id = some p → 8 + n ∉ p.waiting))
  ∧ (∀ (s : State) (n : Nat),
    let l := s.link n
    let others (t : State) : Prop := t = { s with links := t.links, netOut := t.netOut } ∧ ∀ m, m ≠ n → t.link m = s.link m
    let wire (p : List Byte) (seq : Nat) : List Nat := [5, n] ++ (flitBytes p 0 seq l.ackNumber).map (fun b => b.toNat)
    let request : List Nat := [5, n] ++ (flitBytes (leBytes 64 (Config.beats [l.rxNext]).toNat) 2 0 l.ackNumber).map (fun b => b.toNat)
    (∀ f, l.enabled = true → flitLost f = true → ∃ t, exec (.flitReceive n f) s = .next t
        ∧ (t.dieHealth (linkDie n)).flit = satInc (s.dieHealth (linkDie n)).flit
        ∧ (l.asked = false → t = { s with health := t.health })
        ∧ (l.asked = true → t = { s with health := t.health, links := t.links, netOut := t.netOut } ∧ (t.link n).requests = [l.rxNext]
            ∧ (∀ m, m ≠ n → t.link m = s.link m) ∧ t.netOut = s.netOut ++ (if l.running then [request] else [])))
    ∧ (∀ f, l.enabled = true → flitLost f = false → flitType f ≠ 0 →
        exec (.flitReceive n f) s = .next ((s.setLink n (l.acked (flitAck f))).pump n))
    ∧ (∀ f, l.enabled = true → flitLost f = false → flitType f = 0 →
        let k := seqAhead l.rxNext (flitSeq f)
        (k = 0 → ∃ t more, exec (.flitReceive n f) s = .next t ∧ others t ∧ (t.link n).delivered = l.delivered ++ [f.take 64] ++ more)
          ∧ (0 < k → k < 1024 → ∃ t, exec (.flitReceive n f) s = .next t ∧ others t ∧ (t.link n).delivered = l.delivered
            ∧ (t.link n).held.get? (flitSeq f) = some (f.take 64) ∧ (t.link n).rxNext = l.rxNext
            ∧ (l.asked = true → (t.link n).requests = l.requests)
            ∧ (l.asked = false → (t.link n).requests = [l.rxNext] ∧ (l.running = true → request ∈ t.netOut)))
          ∧ (1024 ≤ k → ∃ t, exec (.flitReceive n f) s = .next t ∧ others t ∧ (t.link n).delivered = l.delivered ∧ (t.link n).held = l.held
            ∧ (t.link n).rxNext = l.rxNext))
    ∧ (∀ seq, l.enabled = true → (∃ r ∈ l.retry, r.1 = seq) →
        (l.failures.getD seq 0 = 8 → ∃ t, exec (.replayRequest n seq) s = .next t ∧ others t ∧ (t.link n).retraining = true
            ∧ (t.link n).resend = l.resend ++ [seq])
          ∧ (l.failures.getD seq 0 ≠ 8 → ∃ t, exec (.replayRequest n seq) s = .next t ∧ others t
            ∧ (t.link n).failures.getD seq 0 = l.failures.getD seq 0 + 1 ∧ (t.link n).retraining = l.retraining
            ∧ (l.running = true → ∀ p, (seq, p) ∈ l.retry → wire p seq ∈ t.netOut)
            ∧ (l.running = false → (t.link n).resend = l.resend ++ [seq] ∧ t.netOut = s.netOut)))
    ∧ (∀ packet, l.running = true → l.resend = [] →
        let p := leBytes 64 (Config.beats packet).toNat
        let t := s.sendPacket n packet
        (l.queue = [] → l.retry.length < 1024 → t.netOut = s.netOut ++ [wire p l.txNext] ∧ (t.link n).retry = l.retry ++ [(l.txNext, p)]
            ∧ (t.link n).txNext = (l.txNext + 1) % 4096 ∧ (t.link n).queue = [])
          ∧ (1024 ≤ l.retry.length → t.netOut = s.netOut ∧ (t.link n).queue = l.queue ++ [p] ∧ (t.link n).retry = l.retry))
    ∧ (l.enabled = true → l.up = true → ∃ t, exec (.linkDown n) s = .next t ∧ others t ∧ t.link n = { l with up := false })
    ∧ (l.enabled = true → (l.up = false ∨ l.retraining = true) →
        (exec (.linkRetrainComplete n none) s = .next ((s.setLink n { l with up := true, retraining := false }).pump n))
        ∧ ∀ k, ∃ t, exec (.linkRetrainComplete n (some k)) s = .next t ∧ (t.link n).up = true ∧ (t.link n).retraining = false ∧ k ∈ (t.link n).lanes
            ∧ t.healthWord = s.healthWord ||| 3 ∧ ∀ m, m ≠ n → t.link m = s.link m))


/-! ## Events: halts, handlers, page waiters and pre-emption (21 R283 to R297) -/

/-- HALT_RECEIVE and HANDLER_START (21 R283, R287), and the end of a handler's step of RETH (21 R289). A grant that can be made when the halt arrives is made first (05 R101). The handler takes the trapping group's slot: 32 live lanes at the handler's entry (read from the entry table at HANDLER_START: the model's choice, logs 46,
37), the record in v0 to v15, one granule, a cleared spill stack; the group's state stands in the trap frame. RETH of mode 0 brings it back; mode 1 moves the lanes of the mask past
their word; mode 2 ends the launch. -/
def Obligations.HandlersRun : Prop :=
  (∀ (s : State) (gk : Nat), (s.groups.get? gk).isSome = true → (s.team (teamOf gk)).trigger ≠ none → (s.group gk).halted = false →
      ∃ t, exec (.haltReceive gk) s = .next t ∧ (t.group gk).halted = true ∧ t.mem = s.mem ∧ t.teams = s.teams
        ∧ ((∀ n, s.headGrant (s.group gk).core ≠ some (gk, n)) → ∀ k, ValuesKept (s.lane k) (t.lane k) ∧ (t.lane k).pc = (s.lane k).pc)
        ∧ ∀ n, s.headGrant (s.group gk).core = some (gk, n) → t = (s.serveGrant (s.group gk).core gk n).haltGroup gk)
  ∧ (∀ (s : State) (tk : Nat) (r : TrapRecord) (e : List Byte),
      let x := s.team tk
      let gk := groupKey tk r.group
      s.Inv → x.record = some r → x.residency = .resident → x.handling = false → r.inhdl = false → x.stops = [] → x.kernel.handler ≠ 0 → x.frameHeld = true →
      (s.grid x.grid).status = 0 → s.allStopped tk = true → s.allLanded tk = true → x.saveFor = none →
      (∀ k ∈ s.teamGroups tk, k ∉ (s.core (s.group k).core).grants) →
      (s.readVa (s.partitionOf tk) (x.kernel.image + 16 + 4 * x.kernel.handler) 4).1 = some e →
      ∃ t f, exec (.handlerStart tk) s = .next t ∧ (t.team tk).frame = some f ∧ (t.team tk).handling = true ∧ (t.team tk).record = some r
        ∧ f.gi = r.group ∧ f.group.granules = (s.group gk).granules ∧ f.group.core = (s.group gk).core
        ∧ (∀ p, p < 32 → ValuesKept (s.lane (laneKey gk p)) (f.lanes.getD p Lane.fresh) ∧ (f.lanes.getD p Lane.fresh).pc = (s.lane (laneKey gk p)).pc)
        ∧ (t.group gk).handler = true ∧ (t.group gk).granules = (s.group gk).granules.take 1 ∧ (t.group gk).core = (s.group gk).core
        ∧ (t.group gk).port = (s.group gk).port ∧ (t.group gk).slot = (s.group gk).slot
        ∧ (∀ p, p < 32 → (t.lane (laneKey gk p)).live = true ∧ (t.lane (laneKey gk p)).pc = BitVec.ofNat 32 (leNat e)
            ∧ (t.lane (laneKey gk p)).p = Lane.fresh.p ∧ (∀ n, n < 16 → (t.lane (laneKey gk p)).reg n = BitVec.ofNat 32 (leNat ((r.bytes.drop (4 * n)).take 4)))
            ∧ ∀ n, 16 ≤ n → (t.lane (laneKey gk p)).reg n = 0)
        ∧ (∀ a, (s.group gk).spillPhys 0 ≤ a → a < (s.group gk).spillPhys 0 + x.spillSize → t.mem.read a = unlistedByte))
  ∧ (∀ (s : State) (gk : Nat) (f : Frame) (r : TrapRecord),
      let tk := teamOf gk
      let hk := groupKey tk f.gi
      (s.team tk).frame = some f → (s.team tk).record = some r → f.gi < 128 → ∀ skip : Bool,
      let t := s.endHandler gk (if skip then 1 else 0)
      (t.team tk).frame = none ∧ (t.team tk).handling = false ∧ (t.team tk).record = none ∧ (t.team tk).trigger = (s.team tk).trigger ∧ t.turn = .idle
        ∧ (t.group hk).granules = f.group.granules ∧ (t.group hk).handler = f.group.handler
        ∧ ∀ p, p < 32 →
            ValuesKept (f.lanes.getD p Lane.fresh) (t.lane (laneKey hk p)) ∧ (t.lane (laneKey hk p)).live = (f.lanes.getD p Lane.fresh).live
              ∧ ((skip = false ∨ r.cause = 32 ∨ r.mask.getLsbD p = false) → (t.lane (laneKey hk p)).pc = (f.lanes.getD p Lane.fresh).pc)
              ∧ (skip = true → r.cause ≠ 32 → r.mask.getLsbD p = true →
                  (t.lane (laneKey hk p)).pc = BitVec.ofNat 32 ((f.lanes.getD p Lane.fresh).nextAt + 8)))
  ∧ (∀ (s : State) (gk : Nat), (s.grid (s.team (teamOf gk)).grid).status = 0 → (s.grid (s.team (teamOf gk)).grid).complete = false →
      ((s.endHandler gk 2).grid (s.team (teamOf gk)).grid).status = 3
        ∧ ((s.endHandler gk 2).grid (s.team (teamOf gk)).grid).record = (s.team (teamOf gk)).record)

/-- TEAM_SAVE, TEAM_RESTORE, PAGE_MAPPED, TIME_SLICE_EXPIRE, SPATIAL_PREEMPT and SPATIAL_WINDOW_EXPIRE (21 R290 to R296): a team that rests is saved and gives up its place; an image that fits returns to
it with its registers, program counters and scratch bytes; a slice that ends with others waiting selects every resident team of its grid, and begins again otherwise; a
spatial request stops dispatch to its cores at once and selects the teams that hold slots on them after 55,000 cycles. That a further request adds its
cores and one for no cores gives back those vacated is the model's choice (log 17), and so are the address of an image and the record it is restored from
(logs 7, 50). -/
def Obligations.PreemptionRuns : Prop :=
  ∀ (s : State),
    (∀ tk why page, s.Inv → (s.team tk).saveFor = some (why, page) → s.canSave tk = true →
        (∀ k ∈ s.teamGroups tk, k ∉ (s.core (s.group k).core).grants) →
        let oldest := s.cmds.find? (fun c => teamOf c.2.group == tk && c.2.st == .parked)
        ∃ t, exec (.teamSave tk) s = .next t
        ∧ (why ≠ 3 → (t.team tk).residency = .saved why 0 true s.imageAddr)
        ∧ (why = 3 → ∀ c, oldest = some c → (t.team tk).residency = .saved 3 c.2.page false s.imageAddr)
        ∧ (why = 3 → oldest = none → (t.team tk).residency = .saved 3 0 true s.imageAddr)
        ∧ (t.team tk).saveFor = none ∧ (t.team tk).trigger = none ∧ t.mem = s.mem
        ∧ (t.team tk).savedAt = s.now ∧ (t.team tk).savedHalted = !(s.team tk).stops.isEmpty ∧ (t.team tk).savedHandling = (s.team tk).handling
        ∧ (t.team tk).image = (s.scratchOf tk).map (fun r => (r.1, s.mem.readBytes r.1 r.2))
        ∧ (∀ k, ValuesKept (s.lane k) (t.lane k) ∧ (t.lane k).pc = (s.lane k).pc))
    ∧ (∀ tk, s.fwHalted = false → (s.team tk).kernel.coop = false → s.fitsBack tk = true → ∃ t, exec (.teamRestore tk) s = .next t
        ∧ (t.team tk).residency = .resident ∧ (t.team tk).image = []
        ∧ (∀ k, ValuesKept (s.lane k) (t.lane k) ∧ (t.lane k).pc = (s.lane k).pc ∧ (t.lane k).live = (s.lane k).live)
        ∧ (s.Inv → (s.team tk).image.Pairwise (fun x y => overlaps x.1 x.2.length y.1 y.2.length = false) →
            (∀ r ∈ (s.team tk).image, t.mem.readBytes r.1 r.2.length = r.2)
              ∧ ∀ a, (∀ r ∈ (s.team tk).image, a < r.1 ∨ r.1 + r.2.length ≤ a) → t.mem.read a = s.mem.read a))
    ∧ (∀ page served,
        (s.fwHalted = true → exec (.pageMapped page served) s = .next s)
        ∧ (s.fwHalted = false → ∃ t, exec (.pageMapped page served) s = .next t ∧ (∀ k, ValuesKept (s.lane k) (t.lane k)) ∧ t.mem = s.mem
          ∧ (∀ k c, s.cmds.get? k = some c → c.st = .parked → c.page = page → c.frozen = true →
              ∃ d, t.cmds.get? k = some d ∧ d.mapped = true ∧ d.unserved = !served)))
    ∧ (∀ grid,
        let x := s.grid grid
        let here := s.teams.filter (fun t => t.2.grid == grid && t.2.residency == .resident && !t.2.cores.any s.askedNow)
        s.fwHalted = false → here ≠ [] → x.status = 0 →
        x.sliceAt + (match s.config with | some r => cyclesOf r.sliceNs | none => cyclesOf 2000000) ≤ s.cycle →
        (((∃ t ∈ here, t.2.stops ≠ []) ∨ s.coresWanted x.partition x.prio grid = false) →
            exec (.timeSliceExpire grid) s = .next (s.updGrid grid (fun g => { g with sliceAt := s.cycle })))
        ∧ ((∀ t ∈ here, t.2.stops = []) → s.coresWanted x.partition x.prio grid = true → ∃ t, exec (.timeSliceExpire grid) s = .next t
            ∧ (t.grid grid).sliceAt = s.cycle ∧ t.mem = s.mem
            ∧ ∀ p ∈ here, (t.team p.1).trigger ≠ none ∧ (t.team p.1).saveFor ≠ none))
    ∧ (s.fwHalted = false → exec (.spatialPreempt []) s = .next { s with vacating := [], vacateAt := [] })
    ∧ (∀ cores, s.fwHalted = false → cores ≠ [] → ∃ t, exec (.spatialPreempt cores) s = .next t
        ∧ (∀ c, c ∈ t.vacating ↔ c ∈ s.vacating ∨ c ∈ cores) ∧ t.mem = s.mem
        ∧ (∀ c ∈ cores, s.vacateAt.get? c = none → t.vacateAt.get? c = some (s.cycle + 55000))
        ∧ ∀ c at_, s.vacateAt.get? c = some at_ → t.vacateAt.get? c = some at_)
    ∧ (s.windowOver = [] → exec .spatialWindowExpire s = .next s)
    ∧ (s.fwHalted = false → s.windowOver ≠ [] → ∃ t, exec .spatialWindowExpire s = .next t
        ∧ t.vacateAt = s.vacateAt.filter (fun v => !(v.2 ≤ s.cycle)) ∧ t.vacating = s.vacating ∧ t.mem = s.mem
        ∧ ∀ p ∈ s.teams, s.team p.1 = p.2 → p.2.residency = .resident → (∃ c ∈ p.2.cores, c ∈ s.windowOver ∧ s.holdsSlot p.1 c = true) →
            (t.team p.1).trigger ≠ none ∧ (t.team p.1).saveFor ≠ none)

/-! ## Events: the debugger, traces, dumps and the barker (22 R301 to R310, 25 R323, R324) -/

/-- The stop and resume requests (22 R301, R302, R307). A request without its authority or attachment, or malformed, is answered by an error and does nothing else, and so is a stop without its
target; a team stop halts the selected team; a wider stop halts every team in its scope and keeps others off its cores; a resume of a team's only stop gives back the record that the stop displaced and, where no
trap waits, releases the team; one without a stop that matches is an error. A resume with fw lets the Fiaris complex run whether or not a stop matches, and a
request accepted clears the error (the model's choice, log 53); a cluster stop that names a cluster of another partition reaches nothing and stands for its
resume (the model's choice, log 35). -/
def Obligations.StopsAndResumesRun : Prop :=
  ∀ (s : State) (w : W64) (scope : Nat) (stop resume : Instr),
    (scope, stop, resume) ∈ ([(0, .dbgStopTeam w, .dbgResumeTeam w), (1, .dbgStopCluster w, .dbgResumeCluster w),
      (2, .dbgStopDie w, .dbgResumeDie w), (3, .dbgStopDevice w, .dbgResumeDevice w)] : List (Nat × Instr × Instr)) →
    let runsOn (e : Nat) : State :=
      { s with fwHalted := s.fwHalted && !(w.getLsbD 3 || scope == 3), dbg := { s.dbg with error := e } }
    (wScope w.toNat = scope ∨ 4 ≤ wScope w.toNat) →
      (∀ e, s.refusal w.toNat = some e →
        exec stop s = .next { s with dbg := { s.dbg with error := e } } ∧ exec resume s = .next { s with dbg := { s.dbg with error := e } })
      ∧ (s.refusal w.toNat = none → scope = 0 → s.selected = none →
        exec stop s = .next { s with dbg := { s.dbg with error := 3 } } ∧ exec resume s = .next (runsOn 3))
      ∧ (s.refusal w.toNat = none → scope = 0 → ∀ tk, s.selected = some tk → ∃ t, exec stop s = .next t
          ∧ (t.team tk).stops = (s.team tk).stops ++ [⟨0, tk⟩] ∧ t.dbg.error = 0 ∧ t.fwHalted = (s.fwHalted || w.getLsbD 3) ∧ MemoryKept s t
          ∧ ((s.team tk).residency = .resident → (t.team tk).trigger ≠ none) ∧ (s.expiredNow tk = false → ∀ k, k ≠ tk → t.team k = s.team k)
          ∧ (∀ k, ValuesKept (s.lane k) (t.lane k) ∧ (t.lane k).pc = (s.lane k).pc)
          ∧ ((s.team tk).stops.contains ⟨0, tk⟩ = false → exec resume s = .next (runsOn 2))
          ∧ ((s.team tk).stops = [⟨0, tk⟩] →
              let left := if (s.team tk).stopRecord then (s.team tk).frame.map (fun f => f.record) else (s.team tk).record
              ∃ r, exec resume s = .next r ∧ (r.team tk).stops = [] ∧ r.dbg.error = 0 ∧ r.mem = s.mem
              ∧ r.fwHalted = (s.fwHalted && !w.getLsbD 3)
              ∧ (∀ gk ∈ s.teamGroups tk, (r.group gk).skipBreak = true ∧ ((s.team tk).brkOf gk = true → (r.group gk).passBrk = true))
              ∧ (r.team tk).record = left
              ∧ (left = none → (s.team tk).saveFor = none → (s.team tk).residency = .resident →
                  (r.team tk).trigger = none ∧ ∀ gk ∈ s.teamGroups tk, (s.team tk).handling = false → (r.group gk).halted = false)
              ∧ (∀ x, (s.team tk).record = some x → (s.team tk).stopRecord = false → (s.team tk).handling = false →
                  (r.team tk).trigger = (s.team tk).trigger ∧ (r.team tk).record = some x)))
      ∧ (s.refusal w.toNat = none → 1 ≤ scope →
          (∃ t, exec stop s = .next t ∧ t.dbg.error = 0 ∧ MemoryKept s t
            ∧ (scope = 3 → t.fwHalted = true) ∧ (w.getLsbD 3 = true → t.fwHalted = true)
            ∧ (scope = 1 → s.partCluster s.dbg.part (wTarget w.toNat) = false →
                (scope, wTarget w.toNat) ∈ t.dbg.idleStops ∧ t.teams = s.teams ∧ t.stoppedCores = s.stoppedCores)
            ∧ (scope ≠ 1 ∨ s.partCluster s.dbg.part (wTarget w.toNat) = true →
                (∀ c ∈ scopeCores scope (wTarget w.toNat), c ∈ t.stoppedCores) ∧ (scope, wTarget w.toNat) ∈ t.dbg.stops
                  ∧ ∀ p ∈ s.teamsIn scope (wTarget w.toNat), (s.team p.1).residency = .resident →
                      (t.team p.1).trigger ≠ none ∧ (t.team p.1).stops ≠ []))
          ∧ (s.dbg.stops.contains (scope, wTarget w.toNat) = false → s.dbg.idleStops.contains (scope, wTarget w.toNat) = false →
              exec resume s = .next (runsOn 2))
          ∧ (s.dbg.stops.contains (scope, wTarget w.toNat) = false → s.dbg.idleStops.contains (scope, wTarget w.toNat) = true →
              ∃ t, exec resume s = .next t ∧ t.dbg.idleStops = s.dbg.idleStops.erase (scope, wTarget w.toNat) ∧ t.dbg.error = 0 ∧ t.mem = s.mem
                ∧ t.teams = s.teams ∧ ((scope = 3 ∨ w.getLsbD 3 = true) → t.fwHalted = false))
          ∧ (s.dbg.stops.contains (scope, wTarget w.toNat) = true → ∃ t, exec resume s = .next t
              ∧ t.dbg.stops = s.dbg.stops.erase (scope, wTarget w.toNat) ∧ t.dbg.error = 0 ∧ t.mem = s.mem
              ∧ ((scope = 3 ∨ w.getLsbD 3 = true) → t.fwHalted = false)))

/-- The debugger's registers (22 Table 22.2, R301, R303, R304, R308, R310). DBG_ATTACH_WRITE takes attachment, partition and brk, and disarms the debugger's
watchpoints where it detaches or moves to another partition. DBG_STEP of 1 to 255 steps is refused without attachment (error 5), without a selected team or
group (3) or where the team is not stopped (2), and else notes the steps and the group, with its parks counting on; DBG_STEP_CANCEL drops the steps still
owed. BREAKPOINT_SET writes the image address, or the offset with enable and scope for the selected team; enabling one needs attachment. WATCHPOINT_SET arms a
watchpoint at its core for every team of the partition, answers error 4 and leaves it unarmed where a field is out of range, needs attachment (5) and for actions 3
and 4 authority (1), and disarms where the enable bit is clear. DBG_TRC_WRITE turns tracing on or off, and sets the sample interval while it is off. That a
step accepted clears the error is the model's choice (log 53). -/
def Obligations.DebugRegistersRun : Prop :=
  ∀ (s : State) (val : Nat),
    let err (e : Nat) : State := { s with dbg := { s.dbg with error := e } }
    (∃ t, exec (.dbgAttachWrite val) s = .next t ∧ t.dbg.att = val.testBit 8 ∧ t.dbg.part = bits val 7 0
        ∧ t.dbg.brk = (val.testBit 8 && val.testBit 10) ∧ t.mem = s.mem ∧ t.teams = s.teams ∧ t.lanes = s.lanes
        ∧ ((val.testBit 8 = false ∨ bits val 7 0 ≠ s.dbg.part) → ∀ c, ∀ w ∈ (t.core c).watches, w.2.team ≠ none))
    ∧ (∀ n, 0 < n → n ≤ 255 →
        (s.dbg.att = false → exec (.dbgStep n) s = .next (err 5))
        ∧ (s.dbg.att = true → s.selected = none → exec (.dbgStep n) s = .next (err 3))
        ∧ (s.dbg.att = true → ∀ tk, s.selected = some tk → s.stopped tk = false → exec (.dbgStep n) s = .next (err 2))
        ∧ (s.dbg.att = true → ∀ tk, s.selected = some tk → s.stopped tk = true →
            let gk := groupKey tk s.dbg.group
            (gk ∉ s.teamGroups tk → exec (.dbgStep n) s = .next (err 3))
            ∧ (gk ∈ s.teamGroups tk → ∃ t, exec (.dbgStep n) s = .next t ∧ t.dbg.left = n ∧ t.dbg.stepping = some gk ∧ t.dbg.stepFirst = true
                ∧ t.dbg.error = 0 ∧ t.mem = s.mem ∧ t.teams = s.teams ∧ (∀ k, ValuesKept (s.lane k) (t.lane k) ∧ (t.lane k).pc = (s.lane k).pc)
                ∧ ∀ p since owed, p < 32 → s.dbg.stepping = none → (s.lane (laneKey gk p)).block = .park since owed →
                    (t.lane (laneKey gk p)).block = .park s.cycle owed)))
    ∧ (s.dbg.att = false → exec .dbgStepCancel s = .next (err 5))
    ∧ (s.dbg.att = true → ∃ t, exec .dbgStepCancel s = .next t ∧ t.dbg = { s.dbg with left := 0, why := 0, stepping := none } ∧ t.mem = s.mem
        ∧ t.teams = s.teams ∧ ∀ k, ValuesKept (s.lane k) (t.lane k) ∧ (t.lane k).pc = (s.lane k).pc)
    ∧ (∀ k, k < 4 →
        (∃ t b, exec (.breakpointSet k 0 val) s = .next t ∧ t.dbg.bp.get? k = some b ∧ b.image = BitVec.ofNat 64 val ∧ t.mem = s.mem ∧ t.teams = s.teams)
        ∧ (val.testBit 32 = true → s.dbg.att = false → exec (.breakpointSet k 1 val) s = .next (err 5))
        ∧ (val.testBit 32 = true → s.dbg.att = true → bits val 35 33 ≤ 1 → ∃ t b, exec (.breakpointSet k 1 val) s = .next t
            ∧ t.dbg.bp.get? k = some b ∧ b.pc = BitVec.ofNat 32 val ∧ b.enable = true ∧ b.scope = bits val 35 33 ∧ b.launch = s.dbg.sel
            ∧ b.team = s.dbg.team ∧ t.mem = s.mem ∧ t.teams = s.teams)
        ∧ (val.testBit 34 = true → s.dbg.att = false → exec (.watchpointSet k val) s = .next (err 5))
        ∧ (val.testBit 34 = true → s.dbg.att = true → 3 ≤ bits val 32 30 → bits val 32 30 ≤ 4 → s.authority = false →
            exec (.watchpointSet k val) s = .next (err 1))
        ∧ (val.testBit 34 = true → s.dbg.att = true → (bits val 32 30 ≤ 2 ∨ 4 < bits val 32 30 ∨ s.authority = true) →
            (bits val 32 30 ≤ 4 → bits val 19 0 % 8 = 0 → bits val 29 28 ≠ 0 → s.corePart (bits val 27 20) = some s.dbg.part →
              (∀ w ∈ (s.core (bits val 27 20)).watches, w.1 = k → w.2.team = none) →
              ∃ t w, exec (.watchpointSet k val) s = .next t ∧ (t.core (bits val 27 20)).watches.get? k = some w ∧ w.off = bits val 19 0
                ∧ w.kind = bits val 29 28 ∧ w.action = bits val 32 30 ∧ w.team = none ∧ t.mem = s.mem ∧ t.teams = s.teams)
            ∧ ((4 < bits val 32 30 ∨ bits val 19 0 % 8 ≠ 0 ∨ bits val 29 28 = 0 ∨ s.corePart (bits val 27 20) ≠ some s.dbg.part) →
              ∃ t, exec (.watchpointSet k val) s = .next t ∧ t.dbg.error = 4 ∧ t.mem = s.mem ∧ t.teams = s.teams
                ∧ ∀ c, ∀ w ∈ (t.core c).watches, ¬ (w.1 = k ∧ w.2.team = none)))
        ∧ (val.testBit 34 = false → ∃ t, exec (.watchpointSet k val) s = .next t ∧ t.dbg.error = s.dbg.error
            ∧ ∀ c, ∀ w ∈ (t.core c).watches, ¬ (w.1 = k ∧ w.2.team = none)))
    ∧ (exec (.dbgTrcWrite val) s = .next { s with dbg := { s.dbg with
        trace := val.testBit 0, k := if s.dbg.trace = false ∧ 10 ≤ bits val 12 8 ∧ bits val 12 8 ≤ 24 then bits val 12 8 else s.dbg.k } })

/-- TRACE_SAMPLE, DBG_DUMP, DUMP_COMPLETE and the barker (22 R307, R309, R310, Table 22.4, 25 R323, R324): a sample goes to the ring of the die; a capture begins for a stopped team and ends with its
bytes in host memory or as a failure; while the Fiaris complex is halted the barker answers, and touches nothing else. That a dump accepted clears the error
is the model's choice (log 53), and so is when a dump's bytes are formed and stamped (log 54). -/
def Obligations.TracesAndDumpsRun : Prop :=
  ∀ (s : State), s.Inv →
    (∀ core port x, (s.core core).samples.get? port = some x → s.dbg.trace = true → s.watched (teamOf x.group) = true → s.cycle % 2 ^ s.dbg.k = 0 →
        (s.core core).served.get? port = some s.cycle → ∃ t, exec (.traceSample core port) s = .next t ∧ (t.core core).samples.get? port = none
          ∧ t.teams = s.teams ∧ t.lanes = s.lanes ∧ MemoryKept s t)
    ∧ (∀ core port, s.sampleDue core port = none → exec (.traceSample core port) s = .next s)
    ∧ (∀ addr,
        (s.dbg.att = false → exec (.dbgDump addr) s = .next { s with dbg := { s.dbg with error := 5 } })
        ∧ (s.dbg.att = true → ∀ tk, s.selected = some tk → s.stopped tk = true → s.dbg.dumpBusy = false →
            exec (.dbgDump addr) s = .next { s with dbg := { s.dbg with
              dump := BitVec.ofNat 64 addr, dumpBusy := true, dumpFail := false, dumpTeam := tk, error := 0 } })
        ∧ (s.dbg.att = true → (s.selected = none ∨ s.dbg.dumpBusy = true ∨ ∃ tk, s.selected = some tk ∧ s.stopped tk = false) → exec (.dbgDump addr) s = .next { s with dbg := { s.dbg with error := 2 } }))
    ∧ (s.dbg.dumpBusy = true → s.dbg.dumpAt = none →
        (∀ c ∈ s.cmds, teamOf c.2.group = s.dbg.dumpTeam → c.2.op = 0x14F ∨ s.startedDone c.2 = true) →
        s.takeDump = { s with dbg := { s.dbg with
          dumpAt := some s.cycle, dumpStamp := s.now, dumpImage := s.dumpBytes s.dbg.dumpTeam s.now } })
    ∧ (∀ ok, (s.dbg.dumpBusy = false ∨ s.dbg.dumpAt = none) → exec (.dumpComplete ok) s = .next s)
    ∧ (∀ ok, s.dbg.dumpBusy = true → s.dbg.dumpAt ≠ none → ∃ t, exec (.dumpComplete ok) s = .next t
        ∧ t = { s with dbg := { s.dbg with dumpBusy := false, dumpFail := !ok, dumpAt := none, dumpImage := [] }, mem := t.mem }
        ∧ (ok = false → t.mem = s.mem)
        ∧ (ok = true → t.mem = s.mem.writeBytes (hostAddr s.dbg.dump.toNat) s.dbg.dumpImage) ∧ MemoryKept s t)
    ∧ (∀ n, s.fwHalted = true →
        exec (.roceRequestWhileHalted n) s = .next { s with netOut := s.netOut ++ [[1, n]] }
          ∧ exec (.nvmeofKeepAlive n) s = .next { s with netOut := s.netOut ++ [[2, n]] }
          ∧ exec (.mailboxWhileHalted n) s = .next { s with netOut := s.netOut ++ [[3, n]] })

/-! ## Encodings and decoding (02 R43 to R49) -/

/-- Decode and encode agree (02 R43 to R46): the word of every well-formed word instruction decodes to it with every field and operand, and every
64-bit word that decodes is the word of the well-formed instruction it decodes to. -/
def Obligations.EncodingRoundTrips : Prop :=
  (∀ i : Instr, i.isWord = true → i.wf = true → encode i < 2 ^ 64 ∧ decodeWord (encode i) = .ok i)
    ∧ ∀ (w : Nat) (i : Instr), w < 2 ^ 64 → decodeWord w = .ok i → i.isWord = true ∧ i.wf = true ∧ encode i = w

/-- Words written out from the encoding tables decode to the instructions they stand for (02 Tables 2.4 to 2.13). -/
def Obligations.WordsDecode : Prop :=
  -- ADD v6, v5, v3: d 6, a 5, b 3, unguarded p7
  decodeWord 0x000000018140CE20 = .ok (.add ⟨⟨7, false⟩, .v 6, .v 5, .v 3, .v 0, 0, 0, false, 0, 0⟩)
    -- DIV.s v5, v1, v2 with flag select 1
    ∧ decodeWord 0x000200010040AE60 = .ok (.divS ⟨⟨7, false⟩, .v 5, .v 1, .v 2, .v 0, 1, 0, false, 0, 0⟩)
    -- BRR.nz v8, eight words back
    ∧ decodeWord 0x023FFFFFFE000E04 = .ok (.brrNz ⟨⟨7, false⟩, -8, .v 8, false⟩)
    -- TRAP #0x2A
    ∧ decodeWord 0x02A0000000000FA2 = .ok (.trap ⟨⟨7, false⟩, .v 0, 0, .v 0, .v 0, 0x2A⟩)

/-- Reserved cells (02 R49): classes 14 and 15 and every cell without a point are refused as illegal instructions, and fail the entry of a clause as its
class or as the class of a word in it; each class has as many assigned cells as Table 2.14 says (SYNC index 11, counted there, is a reserved cell
here); PSWR and PCTX raise the illegal-instruction trap in a team that Fiaris did not place. -/
def Obligations.ReservedCellsRefused : Prop :=
  (∀ w, 14 ≤ bits w 8 5 → decodeWord w = .error .illegalInstruction)
    ∧ (∀ w, Sys2Proof.rowOf w = none → decodeWord w = .error .illegalInstruction)
    ∧ (List.range 14).map (fun c => ((List.range 32).filter (fun n => (Sys2Proof.rowOf (32 * c + n)).isSome || 32 * c + n == 0x18B)).length)
        = [16, 32, 14, 8, 16, 32, 28, 12, 28, 26, 24, 20, 12, 20]
    ∧ (∀ w, bits w 8 0 = 0x18B → decodeWord w = .error .illegalInstruction)
    ∧ (∀ (c : Clause) (size : Nat), 14 ≤ c.cls → c.valid size = false)
    ∧ (∀ (c : Clause) (size w : Nat), w ∈ c.words → 14 ≤ bits w 8 5 → c.valid size = false)
    ∧ ∀ (f : SF) (s : State) (st : IssueStep) (x : StepLane) (rest : List StepLane), s.turn = .issue st → st.todo = x :: rest → st.checked = false →
        (s.team (teamOf st.group)).kind ≠ .service → ∀ i ∈ [Instr.pswr f, .pctx f],
          exec i s = .next (takeTrap s st.group ⟨2, 2, 0⟩ (1#32 <<< x.pos) (BitVec.ofNat 32 x.pc) false)

/-- The operand space (02 R44): what each of the 512 values of a 9-bit field names, what reading and writing each operand does, and that a reserved
value of an operand position of any format raises the illegal-operand trap where the fields are otherwise defined. -/
def Obligations.OperandSpace : Prop :=
  let names (sl : Slot) : Prop := (∃ w d c z, sl = .reg w d c z) ∨ (∃ d, sl = .lax d) ∨ sl = .mult32
  let refused (w : Nat) (ps : List (Slot × Nat)) : Prop := ∀ p ∈ ps, names p.1 → 265 ≤ p.2 → decodeWord w = .error .illegalOperand
  (∀ (n : Nat), n < 512 →
      (∀ h : n < 256, Operand.ofCode n = .v ⟨n, h⟩) ∧ (∀ k, k < 8 → n = 256 + k → ∃ q : Fin 8, q.val = k ∧ Operand.ofCode n = .q q)
        ∧ (n = 264 → Operand.ofCode n = .z)
        ∧ (265 ≤ n → ∀ (sl : Slot), names sl → sl.ok3 n = false))
    ∧ (∀ w r, Sys2Proof.rowOf w = some (.rrr r) → r.ok2 w = true →
        refused w [(r.d, bits w 21 13), (r.a, bits w 30 22), (r.b, bits w 39 31), (r.c, bits w 48 40)])
    ∧ (∀ w r, Sys2Proof.rowOf w = some (.ri r) → r.ok2 w = true → refused w [(r.d, bits w 21 13), (r.a, bits w 30 22)])
    ∧ (∀ w r, Sys2Proof.rowOf w = some (.m r) → r.ok2 w = true → refused w [(r.d, bits w 21 13), (r.idx, bits w 36 28)])
    ∧ (∀ w r, Sys2Proof.rowOf w = some (.a r) → r.ok2 w = true →
        refused w [(r.d, bits w 21 13), (idxSlot, bits w 36 28), (r.a, bits w 45 37)])
    ∧ (∀ w r, Sys2Proof.rowOf w = some (.b r) → r.ok2 w = true → refused w [(r.reg, bits w 62 54)])
    ∧ (∀ w r, Sys2Proof.rowOf w = some (.e r) → r.ok2 w = true →
        refused w [(r.d, bits w 21 13), (r.cnt, bits w 48 40), (r.aux, bits w 57 49)])
    ∧ (∀ w r, Sys2Proof.rowOf w = some (.g r) → r.ok2 w = true →
        refused w [(r.d, bits w 21 13), (r.a, bits w 36 28), (r.b, bits w 45 37), (r.c, bits w 54 46)])
    ∧ (∀ w r, Sys2Proof.rowOf w = some (.x r) → r.ok2 w = true → refused w [(r.d, bits w 21 13), (r.a, bits w 33 25), (r.b, bits w 42 34)])
    ∧ (∀ w r, Sys2Proof.rowOf w = some (.s r) → r.ok2 w = true → refused w [(r.d, bits w 21 13), (r.a, bits w 42 34), (r.b, bits w 51 43)])
    ∧ ∀ (s : State) (lk w y : Nat),
        (∀ n, s.readOp lk (.v n) w = ((s.lane lk).regsVal n.val w, s) ∧ Written (.v n) w y (s.lane lk) ((s.writeOp lk (.v n) w y).lane lk))
          ∧ (∀ q : Fin 8, s.readOp lk (.q q) w = (leNat (s.pop lk q.val).1, (s.pop lk q.val).2)
              ∧ s.writeOp lk (.q q) w y = s.push lk q.val (leBytes (4 * w) y))
          ∧ s.readOp lk .z w = (0, s) ∧ s.writeOp lk .z w y = s

/-- Division (08 R136): the operands are read at issue and nothing is written then; the quotient, the remainder or the rounded quotient, with the two
special cases and their flags, is what the operation in flight lands, result and flags together, at its completion. -/
def Obligations.DivisionRule : Prop :=
  (∀ (f : RRR) (s : State) (st : IssueStep) (x : StepLane) (rest : List StepLane), AtWord s st x rest →
    let l := s.lane (stepLane st x)
    let k := stepLane st x
    let value (w : Nat) (signed : Bool) (v : Nat) : Int := if signed then toSigned w v else (v : Int)
    let rounds (mode : Nat) (a b q : Int) : Prop :=
      (mode = 1 → 2 * (a - q * b).natAbs ≤ b.natAbs ∧ (2 * (a - q * b).natAbs = b.natAbs → q % 2 = 0))
        ∧ (mode = 5 → 2 * (a - q * b).natAbs ≤ b.natAbs ∧ (2 * (a - q * b).natAbs = b.natAbs → a.natAbs < (q * b).natAbs))
        ∧ (mode = 2 → q = Int.tdiv a b) ∧ (mode = 3 → q = Int.fdiv a b) ∧ (mode = 4 → q = -Int.fdiv (-a) b)
    let x0 (w : Nat) : Nat × State := (movedOn st x rest s).readOp k f.a (w / 32)
    ∀ w ∈ [(Instr.divS f, 32, true, 0), (.divN f, 32, false, 0), (.remS f, 32, true, 1), (.remN f, 32, false, 1), (.divrS f, 32, true, 2),
        (.divrN f, 32, false, 2), (.div64S f, 64, true, 0), (.div64N f, 64, false, 0)],
      let a := value w.2.1 w.2.2.1 (x0 w.2.1).1
      let b := value w.2.1 w.2.2.1 ((x0 w.2.1).2.readOp k f.b (w.2.1 / 32)).1
      (¬ GuardHolds w.1 s k → ∃ t, exec w.1 s = .next t ∧ PassedOver st x rest s t)
      ∧ (GuardHolds w.1 s k → ∃ (t : State) (o : LaneOp) (q : Int) (fl : BitVec 9), exec w.1 s = .next t
          ∧ (t.group st.group).ops = (s.group st.group).ops ++ [o] ∧ o.lane = k
          ∧ o.kind = .value (regWrites f.d (w.2.1 / 32) (ofSigned w.2.1 q)) fl true
          ∧ (∀ n, (t.lane k).reg n = l.reg n) ∧ (t.lane k).fpflags = l.fpflags
          ∧ (b = 0 → fl = flagIDZ ∧ q = (if w.2.2.2 = 1 then a else -1))
          ∧ (w.2.2.1 = true → a = minS w.2.1 → b = -1 → fl = flagIOV ∧ q = (if w.2.2.2 = 1 then 0 else a))
          ∧ (b ≠ 0 → ¬ (w.2.2.1 = true ∧ a = minS w.2.1 ∧ b = -1) → fl = 0
              ∧ (w.2.2.2 = 0 → q = Int.tdiv a b) ∧ (w.2.2.2 = 1 → q = a - Int.tdiv a b * b)
              ∧ (w.2.2.2 = 2 → rounds (if f.rm.val = 0 then l.fprm.toNat else f.rm.val) a b q))))
  ∧ ∀ (s : State) (gk id : Nat) (o : LaneOp) (ws : List (Nat × W32)) (fl : BitVec 9), (s.group gk).op? id = some o → o.kind = .value ws fl true →
      ∃ t, exec (.divideComplete gk id) s = .next t ∧ Landed ws (s.lane o.lane) (t.lane o.lane)
        ∧ (t.lane o.lane).fpflags = (s.lane o.lane).fpflags ||| fl

/-- The exact accumulator at its bounds (17 R243): an addition that would leave them pins V at the bound it passes and sets ovf, and any other one adds
exactly; while ovf is set finite products leave V as it is; and no product clears a state bit. -/
def Obligations.AccumulatorPins : Prop :=
  ∀ (c : Cell) (scale : Int) (a b : TVal) (p q y : Int) (u v : Nat),
    (c.ovf = false → -(2 ^ 575) ≤ c.v + y → c.v + y ≤ 2 ^ 575 - 1 → c.addExact y = { c with v := c.v + y })
      ∧ (c.ovf = false → 2 ^ 575 - 1 < c.v + y → c.addExact y = { c with v := 2 ^ 575 - 1, ovf := true })
      ∧ (c.ovf = false → c.v + y < -(2 ^ 575) → c.addExact y = { c with v := -(2 ^ 575), ovf := true })
      ∧ (c.ovf = true → c.product scale (.fin p u) (.fin q v) = (c, false))
      ∧ (c.pinf = true → (c.product scale a b).1.pinf = true) ∧ (c.ninf = true → (c.product scale a b).1.ninf = true)
      ∧ (c.nan = true → (c.product scale a b).1.nan = true) ∧ (c.ovf = true → (c.product scale a b).1.ovf = true ∧ (c.product scale a b).1.v = c.v)

/-- The time stamp as the host reads it (04 R71): a 64-bit read returns the counter; a read of the low half returns its low 32 bits and latches the high
ones, which a read of the high half returns; a write is ignored. -/
def Obligations.TimeStampReads : Prop :=
  ∀ (s : State) (val : Nat),
    (∃ t, exec (.gtsRead 0) s = .next t ∧ t = { s with netOut := s.netOut ++ [[0x10, s.now % 2 ^ 64]] })
      ∧ (∃ t u, exec (.gtsRead 1) s = .next t ∧ t = { s with gtsHigh := t.gtsHigh, netOut := s.netOut ++ [[0x10, s.now % 2 ^ 32]] }
          ∧ exec (.gtsRead 2) t = .next u ∧ u = { t with netOut := t.netOut ++ [[0x14, s.now / 2 ^ 32 % 2 ^ 32]] })
      ∧ ∀ p ∈ [(0x10, 8), (0x10, 4), (0x14, 4)], exec (.registerWrite p.1 p.2 val) s = .next s

/-! ## The step and its invariant -/

/-- A step runs the decoded instruction (02 R51, 07 R118, 17 R247): of an issue step in progress, the next lane's word, and after the last the end of the step;
of a stream, the sequencer's next word; in between, the next entry of the schedule; and a word that does not decode takes its decode trap. The end of an issue
step brings about what its words left for it, in a fixed order, then a return from a handler, or the rendezvous, barriers, fences and waits of the group (07 R123, 18 R272). -/
def Obligations.StepRunsTheDecoded : Prop :=
  ∀ (s : State),
    (∀ st x rest, s.turn = .issue st → st.todo = x :: rest →
        (∀ i, decodeWord x.word = .ok i → step s = exec i s)
          ∧ (∀ e, decodeWord x.word = .error e → st.checked = false → step s = .next (s.undecodedTrap st x e)))
      ∧ (∀ st, s.turn = .issue st → st.todo = [] → step s = .next (endIssueStep st s))
      ∧ (∀ tk, s.turn = .stream tk → (∀ w i, s.streamAt tk = some w → decodeWord w = .ok i → isStreamWord w = true → step s = exec i s)
          ∧ (∀ w, s.streamAt tk = some w → isStreamWord w = false → step s = .next (s.streamIllegal tk)))
      ∧ (∀ i r, s.turn = .idle → s.schedule = .ev i :: r → step s = exec i { s with schedule := r })
      ∧ (∀ tk r, s.turn = .idle → s.schedule = .seq tk :: r → s.streamReady tk = true → step s = .next ({ s with schedule := r }.setTurn (.stream tk)))
      ∧ (∀ n r, s.turn = .idle → s.schedule = .tick n :: r → step s = .next (State.tick n { s with schedule := r }))
      ∧ (∀ st : IssueStep,
          let leave (op : Nat) : List Pend := st.pend.filter (fun p => p.op == op)
          let e := ((((s.countStep st).updGroup st.group (fun g => g.censused st.ready st.cls)).applyPends st).setTurn .idle)
          (∀ p, (leave 0x1A4).getLast? = some p → endIssueStep st s = e.endHandler st.group p.x)
            ∧ (leave 0x1A4 = [] → endIssueStep st s =
                (((((e.endRendezvous st.group).endSeals st.group st.serial).updateBarriers (teamOf st.group) true).pruneFences st.group).checkWaits
                  st.group).enterCached st.group)
            ∧ (let a := (st.pend.foldl (fun s p => s.applyPend st.group p) s).endContexts st
              let b := ((a.endWpset st.group (leave 0x1AF)).endPswr (leave 0x1B2)).endPctx (leave 0x1B3)
              let c := ((leave 0x1A6).foldl (fun s p => s.closeWindowsOf p.x) b).wakeLaunchers
              s.applyPends st = (c.traceMark st 0x1AE 2).traceMark st 0x1B1 3))

/-- The memory of the part after reset is in its canonical form. -/
def Obligations.ResetKeepsInvariant : Prop := State.reset.Inv

/-- Every step keeps the invariant: the memory of the part stays in its canonical form, so that equal memories are equal data. -/
def Obligations.StepKeepsInvariant : Prop := ∀ (s t : State), s.Inv → step s = .next t → t.Inv
end

