-- ==== Sys2Proof/Laws/Maps.lean ====
section
/-! SUPPORT. What the sparse maps and the byte memory do: a read after a write, and that every operation of memory keeps its canonical form. -/

namespace Sys2Proof.Machine

/-! ## Maps -/

theorem AList.get?_put_self {α : Type} (m : AList α) (k : Nat) (x : α) : AList.get? (AList.put m k x) k = some x := by
  induction m with
  | nil => simp [AList.put, AList.get?]
  | cons p r ih =>
    obtain ⟨j, y⟩ := p
    simp only [AList.put]
    split
    · simp [AList.get?]
    · split
      · simp [AList.get?]
      · have : j ≠ k := by omega
        simp [AList.get?, this, ih]

theorem AList.get?_put_ne {α : Type} (m : AList α) (k k' : Nat) (x : α) (h : k' ≠ k) :
    AList.get? (AList.put m k x) k' = AList.get? m k' := by
  induction m with
  | nil => simp [AList.put, AList.get?, Ne.symm h]
  | cons p r ih =>
    obtain ⟨j, y⟩ := p
    simp only [AList.put]
    split
    · simp [AList.get?, Ne.symm h]
    · split
      · rename_i e; subst e; simp [AList.get?, Ne.symm h]
      · simp [AList.get?, ih]

@[simp] theorem AList.getD_put_self {α : Type} (m : AList α) (k : Nat) (x d : α) : AList.getD (AList.put m k x) k d = x := by
  simp [AList.getD, AList.get?_put_self]

theorem AList.getD_put_ne {α : Type} (m : AList α) (k k' : Nat) (x d : α) (h : k' ≠ k) :
    AList.getD (AList.put m k x) k' d = AList.getD m k' d := by
  simp [AList.getD, AList.get?_put_ne m k k' x h]

theorem AList.getD_put {α : Type} (m : AList α) (k k' : Nat) (x d : α) :
    AList.getD (AList.put m k x) k' d = if k' = k then x else AList.getD m k' d := by
  split
  · rename_i h; subst h; simp
  · rename_i h; exact AList.getD_put_ne m k k' x d h

@[simp] theorem AList.put_put_self {α : Type} (m : AList α) (k : Nat) (x y : α) :
    AList.put (AList.put m k x) k y = AList.put m k y := by
  induction m with
  | nil => simp [AList.put]
  | cons p r ih =>
    obtain ⟨j, z⟩ := p
    by_cases h1 : k < j
    · simp [AList.put, h1]
    · by_cases h2 : k = j
      · subst h2; simp [AList.put]
      · simp [AList.put, h1, h2, ih]

/-! ## The canonical form of memory -/

theorem Memory.wfFrom_mono {lo lo' : Nat} {m : Memory} (h : Memory.wfFrom lo m = true) (hl : lo' ≤ lo) : Memory.wfFrom lo' m = true := by
  cases m with
  | nil => rfl
  | cons c r => obtain ⟨j, b⟩ := c; simp only [Memory.wfFrom, Bool.and_eq_true, decide_eq_true_eq] at h ⊢; exact ⟨⟨by omega, h.1.2⟩, h.2⟩

theorem Memory.write_wfFrom {lo : Nat} {m : Memory} (h : Memory.wfFrom lo m = true) (a : Nat) (b : Byte) (ha : lo ≤ a) :
    Memory.wfFrom lo (m.write a b) = true := by
  induction m generalizing lo with
  | nil =>
    simp only [Memory.write]
    split
    · rfl
    · simp_all [Memory.wfFrom]
  | cons c r ih =>
    obtain ⟨j, x⟩ := c
    simp only [Memory.wfFrom, Bool.and_eq_true, decide_eq_true_eq] at h
    obtain ⟨⟨h1, h2⟩, h3⟩ := h
    simp only [Memory.write]
    split
    · split
      · simp only [Memory.wfFrom, Bool.and_eq_true, decide_eq_true_eq]; exact ⟨⟨h1, h2⟩, h3⟩
      · rename_i hb
        simp only [Memory.wfFrom, Bool.and_eq_true, decide_eq_true_eq, bne_iff_ne]
        exact ⟨⟨ha, hb⟩, ⟨by omega, by simpa using h2⟩, h3⟩
    · split
      · split
        · exact Memory.wfFrom_mono h3 (by omega)
        · rename_i e hb; subst e; simp [Memory.wfFrom, ha, hb, h3]
      · have : j + 1 ≤ a := by omega
        simp only [Memory.wfFrom, Bool.and_eq_true, decide_eq_true_eq]
        exact ⟨⟨h1, h2⟩, ih h3 this⟩

/-- A write of one byte keeps the canonical form. -/
theorem Memory.write_wf {m : Memory} (h : m.wf = true) (a : Nat) (b : Byte) : (m.write a b).wf = true :=
  Memory.write_wfFrom h a b (Nat.zero_le a)

/-- A write of a run of bytes keeps the canonical form. -/
theorem Memory.writeBytes_wf {m : Memory} (h : m.wf = true) (a : Nat) (bs : List Byte) : (m.writeBytes a bs).wf = true := by
  induction bs generalizing m a with
  | nil => exact h
  | cons b bs ih => exact ih (Memory.write_wf h a b) (a + 1)

theorem Memory.filter_wfFrom {lo : Nat} {m : Memory} (h : Memory.wfFrom lo m = true) (p : Host.Cell → Bool) :
    Memory.wfFrom lo (m.filter p) = true := by
  induction m generalizing lo with
  | nil => rfl
  | cons c r ih =>
    obtain ⟨j, x⟩ := c
    simp only [Memory.wfFrom, Bool.and_eq_true, decide_eq_true_eq] at h
    simp only [List.filter_cons]
    split
    · simp only [Memory.wfFrom, Bool.and_eq_true, decide_eq_true_eq]; exact ⟨h.1, ih h.2⟩
    · exact Memory.wfFrom_mono (ih h.2) (by omega)

/-- Clearing a run of bytes keeps the canonical form. -/
theorem Memory.clear_wf {m : Memory} (h : m.wf = true) (a n : Nat) : (m.clear a n).wf = true := Memory.filter_wfFrom h _

/-! ## Reading after a write -/

theorem Memory.read_below {lo : Nat} {m : Memory} (h : Memory.wfFrom lo m = true) {a : Nat} (ha : a < lo) : m.read a = unlistedByte := by
  induction m generalizing lo with
  | nil => rfl
  | cons c r ih =>
    obtain ⟨j, x⟩ := c
    simp only [Memory.wfFrom, Bool.and_eq_true, decide_eq_true_eq] at h
    have : j ≠ a := by omega
    simp only [Memory.read, this, if_false]
    exact ih h.2 (by omega)

theorem Memory.read_write_from {lo : Nat} {m : Memory} (h : Memory.wfFrom lo m = true) (a a' : Nat) (b : Byte) :
    (m.write a b).read a' = if a' = a then b else m.read a' := by
  induction m generalizing lo with
  | nil =>
    simp only [Memory.write]
    by_cases e : a' = a
    · subst e; split <;> simp_all [Memory.read]
    · split <;> simp [Memory.read, Ne.symm e]
  | cons c r ih =>
    obtain ⟨j, x⟩ := c
    simp only [Memory.wfFrom, Bool.and_eq_true, decide_eq_true_eq] at h
    obtain ⟨⟨h1, h2⟩, h3⟩ := h
    simp only [Memory.write]
    by_cases c1 : a < j
    · simp only [c1, if_true]
      by_cases hb : b = unlistedByte
      · simp only [hb, if_true]
        by_cases e : a' = a
        · subst e
          have n1 : j ≠ a' := by omega
          simp [Memory.read, n1, Memory.read_below h3 (show a' < j + 1 by omega)]
        · simp [e]
      · simp only [hb, if_false]
        by_cases e : a' = a
        · subst e; simp [Memory.read]
        · simp [Memory.read, e, Ne.symm e]
    · simp only [c1, if_false]
      by_cases c2 : a = j
      · subst c2
        simp only [if_true]
        by_cases hb : b = unlistedByte
        · simp only [hb, if_true]
          by_cases e : a' = a
          · subst e; simp [Memory.read_below h3 (show a' < a' + 1 by omega)]
          · simp [Memory.read, e, Ne.symm e]
        · simp only [hb, if_false]
          by_cases e : a' = a
          · subst e; simp [Memory.read]
          · simp [Memory.read, e, Ne.symm e]
      · simp only [c2, if_false]
        by_cases e : j = a'
        · subst e
          have : j ≠ a := by omega
          simp [Memory.read, this]
        · simp only [Memory.read, e, if_false]
          exact ih h3

/-- A byte read after a write of one byte. -/
theorem Memory.read_write {m : Memory} (h : m.wf = true) (a a' : Nat) (b : Byte) : (m.write a b).read a' = if a' = a then b else m.read a' :=
  Memory.read_write_from h a a' b

/-- A write of a run of bytes leaves every other byte alone. -/
theorem Memory.read_writeBytes_out {m : Memory} (h : m.wf = true) (a : Nat) (bs : List Byte) (x : Nat) (hx : x < a ∨ a + bs.length ≤ x) :
    (m.writeBytes a bs).read x = m.read x := by
  induction bs generalizing m a with
  | nil => rfl
  | cons b bs ih =>
    simp only [Memory.writeBytes, List.length_cons] at *
    rw [ih (Memory.write_wf h a b) (a + 1) (by omega), Memory.read_write h]
    simp [show x ≠ a by omega]

/-- A byte written in a run reads back. -/
theorem Memory.read_writeBytes_in {m : Memory} (h : m.wf = true) (a : Nat) (bs : List Byte) (i : Nat) (hi : i < bs.length) :
    (m.writeBytes a bs).read (a + i) = bs[i] := by
  induction bs generalizing m a i with
  | nil => simp at hi
  | cons b bs ih =>
    simp only [Memory.writeBytes]
    cases i with
    | zero =>
      rw [Memory.read_writeBytes_out (Memory.write_wf h a b) (a + 1) bs (a + 0) (by omega), Memory.read_write h]
      simp
    | succ i =>
      have := ih (Memory.write_wf h a b) (a + 1) i (by simpa using hi)
      rw [show a + (i + 1) = a + 1 + i by omega]
      simpa using this

end Sys2Proof.Machine
end

