-- ==== Sys2Proof/Laws/Canon.lean ====
section
/-! SUPPORT. The memory operations of Machine/Fabric.lean keep the canonical form of memory. -/

namespace Sys2Proof.Machine

/-- Any run of byte writes keeps the form. -/
theorem Memory.foldl_write_wf (l : List Host.Cell) (f : Host.Cell → Nat) {m : Memory} (h : m.wf = true) :
    (l.foldl (fun acc c => acc.write (f c) c.2) m).wf = true := by
  induction l generalizing m with
  | nil => exact h
  | cons c r ih => exact ih (Memory.write_wf h _ _)

/-- A copied range keeps the form. -/
theorem Memory.copyRange_wf {m : Memory} (h : m.wf = true) (src dst n : Nat) : (m.copyRange src dst n).wf = true :=
  Memory.foldl_write_wf _ _ (Memory.clear_wf h dst n)
end Sys2Proof.Machine
end

