-- ==== Sys2Proof/Laws/State.lean ====
section
/-! SUPPORT. What each update of the state does to each field and to each reader: no later proof unfolds a record update. -/

namespace Sys2Proof.Machine

/-! ## Every change of an entry is one of the puts below -/

@[simp] theorem State.updLane_eq (s : State) (k : Nat) (f : Lane → Lane) : s.updLane k f = s.setLane k (f (s.lane k)) := rfl
@[simp] theorem State.updGroup_eq (s : State) (k : Nat) (f : Group → Group) : s.updGroup k f = s.setGroup k (f (s.group k)) := rfl
@[simp] theorem State.updTeam_eq (s : State) (k : Nat) (f : Team → Team) : s.updTeam k f = s.setTeam k (f (s.team k)) := rfl
@[simp] theorem State.updGrid_eq (s : State) (k : Nat) (f : Grid → Grid) : s.updGrid k f = s.setGrid k (f (s.grid k)) := rfl
@[simp] theorem State.updCore_eq (s : State) (k : Nat) (f : Core → Core) : s.updCore k f = s.setCore k (f (s.core k)) := rfl
@[simp] theorem State.updFeed_eq (s : State) (k : Nat) (f : Feed → Feed) : s.updFeed k f = s.setFeed k (f (s.feed k)) := rfl
@[simp] theorem State.updHealth_eq (s : State) (k : Nat) (f : Health → Health) : s.updHealth k f =
    s.setHealth k { f (s.dieHealth k) with stamp := if s.fwHalted then (s.dieHealth k).stamp else s.now } := rfl

/-! ## setLane -/

@[simp] theorem State.setLane_turn (s : State) (k : Nat) (x : Lane) : (s.setLane k x).turn = s.turn := rfl
@[simp] theorem State.setLane_schedule (s : State) (k : Nat) (x : Lane) : (s.setLane k x).schedule = s.schedule := rfl
@[simp] theorem State.setLane_cycle (s : State) (k : Nat) (x : Lane) : (s.setLane k x).cycle = s.cycle := rfl
@[simp] theorem State.setLane_clockBase (s : State) (k : Nat) (x : Lane) : (s.setLane k x).clockBase = s.clockBase := rfl
@[simp] theorem State.setLane_gtsHigh (s : State) (k : Nat) (x : Lane) : (s.setLane k x).gtsHigh = s.gtsHigh := rfl
@[simp] theorem State.setLane_serial (s : State) (k : Nat) (x : Lane) : (s.setLane k x).serial = s.serial := rfl
@[simp] theorem State.setLane_freeN (s : State) (k : Nat) (x : Lane) : (s.setLane k x).freeN = s.freeN := rfl
@[simp] theorem State.setLane_mem (s : State) (k : Nat) (x : Lane) : (s.setLane k x).mem = s.mem := rfl
@[simp] theorem State.setLane_lanes (s : State) (k : Nat) (x : Lane) : (s.setLane k x).lanes = s.lanes.put k x := rfl
@[simp] theorem State.setLane_groups (s : State) (k : Nat) (x : Lane) : (s.setLane k x).groups = s.groups := rfl
@[simp] theorem State.setLane_teams (s : State) (k : Nat) (x : Lane) : (s.setLane k x).teams = s.teams := rfl
@[simp] theorem State.setLane_grids (s : State) (k : Nat) (x : Lane) : (s.setLane k x).grids = s.grids := rfl
@[simp] theorem State.setLane_cores (s : State) (k : Nat) (x : Lane) : (s.setLane k x).cores = s.cores := rfl
@[simp] theorem State.setLane_cmds (s : State) (k : Nat) (x : Lane) : (s.setLane k x).cmds = s.cmds := rfl
@[simp] theorem State.setLane_windows (s : State) (k : Nat) (x : Lane) : (s.setLane k x).windows = s.windows := rfl
@[simp] theorem State.setLane_launchQueue (s : State) (k : Nat) (x : Lane) : (s.setLane k x).launchQueue = s.launchQueue := rfl
@[simp] theorem State.setLane_colls (s : State) (k : Nat) (x : Lane) : (s.setLane k x).colls = s.colls := rfl
@[simp] theorem State.setLane_feeds (s : State) (k : Nat) (x : Lane) : (s.setLane k x).feeds = s.feeds := rfl
@[simp] theorem State.setLane_sealTables (s : State) (k : Nat) (x : Lane) : (s.setLane k x).sealTables = s.sealTables := rfl
@[simp] theorem State.setLane_replicas (s : State) (k : Nat) (x : Lane) : (s.setLane k x).replicas = s.replicas := rfl
@[simp] theorem State.setLane_roots (s : State) (k : Nat) (x : Lane) : (s.setLane k x).roots = s.roots := rfl
@[simp] theorem State.setLane_tcache (s : State) (k : Nat) (x : Lane) : (s.setLane k x).tcache = s.tcache := rfl
@[simp] theorem State.setLane_purges (s : State) (k : Nat) (x : Lane) : (s.setLane k x).purges = s.purges := rfl
@[simp] theorem State.setLane_move (s : State) (k : Nat) (x : Lane) : (s.setLane k x).move = s.move := rfl
@[simp] theorem State.setLane_farSeals (s : State) (k : Nat) (x : Lane) : (s.setLane k x).farSeals = s.farSeals := rfl
@[simp] theorem State.setLane_farWaits (s : State) (k : Nat) (x : Lane) : (s.setLane k x).farWaits = s.farWaits := rfl
@[simp] theorem State.setLane_links (s : State) (k : Nat) (x : Lane) : (s.setLane k x).links = s.links := rfl
@[simp] theorem State.setLane_absent (s : State) (k : Nat) (x : Lane) : (s.setLane k x).absent = s.absent := rfl
@[simp] theorem State.setLane_cmdLinks (s : State) (k : Nat) (x : Lane) : (s.setLane k x).cmdLinks = s.cmdLinks := rfl
@[simp] theorem State.setLane_fw (s : State) (k : Nat) (x : Lane) : (s.setLane k x).fw = s.fw := rfl
@[simp] theorem State.setLane_fwHalted (s : State) (k : Nat) (x : Lane) : (s.setLane k x).fwHalted = s.fwHalted := rfl
@[simp] theorem State.setLane_stoppedCores (s : State) (k : Nat) (x : Lane) : (s.setLane k x).stoppedCores = s.stoppedCores := rfl
@[simp] theorem State.setLane_vacating (s : State) (k : Nat) (x : Lane) : (s.setLane k x).vacating = s.vacating := rfl
@[simp] theorem State.setLane_vacateAt (s : State) (k : Nat) (x : Lane) : (s.setLane k x).vacateAt = s.vacateAt := rfl
@[simp] theorem State.setLane_dbg (s : State) (k : Nat) (x : Lane) : (s.setLane k x).dbg = s.dbg := rfl
@[simp] theorem State.setLane_report (s : State) (k : Nat) (x : Lane) : (s.setLane k x).report = s.report := rfl
@[simp] theorem State.setLane_health (s : State) (k : Nat) (x : Lane) : (s.setLane k x).health = s.health := rfl
@[simp] theorem State.setLane_eccLog (s : State) (k : Nat) (x : Lane) : (s.setLane k x).eccLog = s.eccLog := rfl
@[simp] theorem State.setLane_healthWord (s : State) (k : Nat) (x : Lane) : (s.setLane k x).healthWord = s.healthWord := rfl
@[simp] theorem State.setLane_bootStage (s : State) (k : Nat) (x : Lane) : (s.setLane k x).bootStage = s.bootStage := rfl
@[simp] theorem State.setLane_bootError (s : State) (k : Nat) (x : Lane) : (s.setLane k x).bootError = s.bootError := rfl
@[simp] theorem State.setLane_held (s : State) (k : Nat) (x : Lane) : (s.setLane k x).held = s.held := rfl
@[simp] theorem State.setLane_flash (s : State) (k : Nat) (x : Lane) : (s.setLane k x).flash = s.flash := rfl
@[simp] theorem State.setLane_config (s : State) (k : Nat) (x : Lane) : (s.setLane k x).config = s.config := rfl
@[simp] theorem State.setLane_netOut (s : State) (k : Nat) (x : Lane) : (s.setLane k x).netOut = s.netOut := rfl

/-! ## setGroup -/

@[simp] theorem State.setGroup_turn (s : State) (k : Nat) (x : Group) : (s.setGroup k x).turn = s.turn := rfl
@[simp] theorem State.setGroup_schedule (s : State) (k : Nat) (x : Group) : (s.setGroup k x).schedule = s.schedule := rfl
@[simp] theorem State.setGroup_cycle (s : State) (k : Nat) (x : Group) : (s.setGroup k x).cycle = s.cycle := rfl
@[simp] theorem State.setGroup_clockBase (s : State) (k : Nat) (x : Group) : (s.setGroup k x).clockBase = s.clockBase := rfl
@[simp] theorem State.setGroup_gtsHigh (s : State) (k : Nat) (x : Group) : (s.setGroup k x).gtsHigh = s.gtsHigh := rfl
@[simp] theorem State.setGroup_serial (s : State) (k : Nat) (x : Group) : (s.setGroup k x).serial = s.serial := rfl
@[simp] theorem State.setGroup_freeN (s : State) (k : Nat) (x : Group) : (s.setGroup k x).freeN = s.freeN := rfl
@[simp] theorem State.setGroup_mem (s : State) (k : Nat) (x : Group) : (s.setGroup k x).mem = s.mem := rfl
@[simp] theorem State.setGroup_lanes (s : State) (k : Nat) (x : Group) : (s.setGroup k x).lanes = s.lanes := rfl
@[simp] theorem State.setGroup_groups (s : State) (k : Nat) (x : Group) : (s.setGroup k x).groups = s.groups.put k x := rfl
@[simp] theorem State.setGroup_teams (s : State) (k : Nat) (x : Group) : (s.setGroup k x).teams = s.teams := rfl
@[simp] theorem State.setGroup_grids (s : State) (k : Nat) (x : Group) : (s.setGroup k x).grids = s.grids := rfl
@[simp] theorem State.setGroup_cores (s : State) (k : Nat) (x : Group) : (s.setGroup k x).cores = s.cores := rfl
@[simp] theorem State.setGroup_cmds (s : State) (k : Nat) (x : Group) : (s.setGroup k x).cmds = s.cmds := rfl
@[simp] theorem State.setGroup_windows (s : State) (k : Nat) (x : Group) : (s.setGroup k x).windows = s.windows := rfl
@[simp] theorem State.setGroup_launchQueue (s : State) (k : Nat) (x : Group) : (s.setGroup k x).launchQueue = s.launchQueue := rfl
@[simp] theorem State.setGroup_colls (s : State) (k : Nat) (x : Group) : (s.setGroup k x).colls = s.colls := rfl
@[simp] theorem State.setGroup_feeds (s : State) (k : Nat) (x : Group) : (s.setGroup k x).feeds = s.feeds := rfl
@[simp] theorem State.setGroup_sealTables (s : State) (k : Nat) (x : Group) : (s.setGroup k x).sealTables = s.sealTables := rfl
@[simp] theorem State.setGroup_replicas (s : State) (k : Nat) (x : Group) : (s.setGroup k x).replicas = s.replicas := rfl
@[simp] theorem State.setGroup_roots (s : State) (k : Nat) (x : Group) : (s.setGroup k x).roots = s.roots := rfl
@[simp] theorem State.setGroup_tcache (s : State) (k : Nat) (x : Group) : (s.setGroup k x).tcache = s.tcache := rfl
@[simp] theorem State.setGroup_purges (s : State) (k : Nat) (x : Group) : (s.setGroup k x).purges = s.purges := rfl
@[simp] theorem State.setGroup_move (s : State) (k : Nat) (x : Group) : (s.setGroup k x).move = s.move := rfl
@[simp] theorem State.setGroup_farSeals (s : State) (k : Nat) (x : Group) : (s.setGroup k x).farSeals = s.farSeals := rfl
@[simp] theorem State.setGroup_farWaits (s : State) (k : Nat) (x : Group) : (s.setGroup k x).farWaits = s.farWaits := rfl
@[simp] theorem State.setGroup_links (s : State) (k : Nat) (x : Group) : (s.setGroup k x).links = s.links := rfl
@[simp] theorem State.setGroup_absent (s : State) (k : Nat) (x : Group) : (s.setGroup k x).absent = s.absent := rfl
@[simp] theorem State.setGroup_cmdLinks (s : State) (k : Nat) (x : Group) : (s.setGroup k x).cmdLinks = s.cmdLinks := rfl
@[simp] theorem State.setGroup_fw (s : State) (k : Nat) (x : Group) : (s.setGroup k x).fw = s.fw := rfl
@[simp] theorem State.setGroup_fwHalted (s : State) (k : Nat) (x : Group) : (s.setGroup k x).fwHalted = s.fwHalted := rfl
@[simp] theorem State.setGroup_stoppedCores (s : State) (k : Nat) (x : Group) : (s.setGroup k x).stoppedCores = s.stoppedCores := rfl
@[simp] theorem State.setGroup_vacating (s : State) (k : Nat) (x : Group) : (s.setGroup k x).vacating = s.vacating := rfl
@[simp] theorem State.setGroup_vacateAt (s : State) (k : Nat) (x : Group) : (s.setGroup k x).vacateAt = s.vacateAt := rfl
@[simp] theorem State.setGroup_dbg (s : State) (k : Nat) (x : Group) : (s.setGroup k x).dbg = s.dbg := rfl
@[simp] theorem State.setGroup_report (s : State) (k : Nat) (x : Group) : (s.setGroup k x).report = s.report := rfl
@[simp] theorem State.setGroup_health (s : State) (k : Nat) (x : Group) : (s.setGroup k x).health = s.health := rfl
@[simp] theorem State.setGroup_eccLog (s : State) (k : Nat) (x : Group) : (s.setGroup k x).eccLog = s.eccLog := rfl
@[simp] theorem State.setGroup_healthWord (s : State) (k : Nat) (x : Group) : (s.setGroup k x).healthWord = s.healthWord := rfl
@[simp] theorem State.setGroup_bootStage (s : State) (k : Nat) (x : Group) : (s.setGroup k x).bootStage = s.bootStage := rfl
@[simp] theorem State.setGroup_bootError (s : State) (k : Nat) (x : Group) : (s.setGroup k x).bootError = s.bootError := rfl
@[simp] theorem State.setGroup_held (s : State) (k : Nat) (x : Group) : (s.setGroup k x).held = s.held := rfl
@[simp] theorem State.setGroup_flash (s : State) (k : Nat) (x : Group) : (s.setGroup k x).flash = s.flash := rfl
@[simp] theorem State.setGroup_config (s : State) (k : Nat) (x : Group) : (s.setGroup k x).config = s.config := rfl
@[simp] theorem State.setGroup_netOut (s : State) (k : Nat) (x : Group) : (s.setGroup k x).netOut = s.netOut := rfl

/-! ## setTeam -/

@[simp] theorem State.setTeam_turn (s : State) (k : Nat) (x : Team) : (s.setTeam k x).turn = s.turn := rfl
@[simp] theorem State.setTeam_schedule (s : State) (k : Nat) (x : Team) : (s.setTeam k x).schedule = s.schedule := rfl
@[simp] theorem State.setTeam_cycle (s : State) (k : Nat) (x : Team) : (s.setTeam k x).cycle = s.cycle := rfl
@[simp] theorem State.setTeam_clockBase (s : State) (k : Nat) (x : Team) : (s.setTeam k x).clockBase = s.clockBase := rfl
@[simp] theorem State.setTeam_gtsHigh (s : State) (k : Nat) (x : Team) : (s.setTeam k x).gtsHigh = s.gtsHigh := rfl
@[simp] theorem State.setTeam_serial (s : State) (k : Nat) (x : Team) : (s.setTeam k x).serial = s.serial := rfl
@[simp] theorem State.setTeam_freeN (s : State) (k : Nat) (x : Team) : (s.setTeam k x).freeN = s.freeN := rfl
@[simp] theorem State.setTeam_mem (s : State) (k : Nat) (x : Team) : (s.setTeam k x).mem = s.mem := rfl
@[simp] theorem State.setTeam_lanes (s : State) (k : Nat) (x : Team) : (s.setTeam k x).lanes = s.lanes := rfl
@[simp] theorem State.setTeam_groups (s : State) (k : Nat) (x : Team) : (s.setTeam k x).groups = s.groups := rfl
@[simp] theorem State.setTeam_teams (s : State) (k : Nat) (x : Team) : (s.setTeam k x).teams = s.teams.put k x := rfl
@[simp] theorem State.setTeam_grids (s : State) (k : Nat) (x : Team) : (s.setTeam k x).grids = s.grids := rfl
@[simp] theorem State.setTeam_cores (s : State) (k : Nat) (x : Team) : (s.setTeam k x).cores = s.cores := rfl
@[simp] theorem State.setTeam_cmds (s : State) (k : Nat) (x : Team) : (s.setTeam k x).cmds = s.cmds := rfl
@[simp] theorem State.setTeam_windows (s : State) (k : Nat) (x : Team) : (s.setTeam k x).windows = s.windows := rfl
@[simp] theorem State.setTeam_launchQueue (s : State) (k : Nat) (x : Team) : (s.setTeam k x).launchQueue = s.launchQueue := rfl
@[simp] theorem State.setTeam_colls (s : State) (k : Nat) (x : Team) : (s.setTeam k x).colls = s.colls := rfl
@[simp] theorem State.setTeam_feeds (s : State) (k : Nat) (x : Team) : (s.setTeam k x).feeds = s.feeds := rfl
@[simp] theorem State.setTeam_sealTables (s : State) (k : Nat) (x : Team) : (s.setTeam k x).sealTables = s.sealTables := rfl
@[simp] theorem State.setTeam_replicas (s : State) (k : Nat) (x : Team) : (s.setTeam k x).replicas = s.replicas := rfl
@[simp] theorem State.setTeam_roots (s : State) (k : Nat) (x : Team) : (s.setTeam k x).roots = s.roots := rfl
@[simp] theorem State.setTeam_tcache (s : State) (k : Nat) (x : Team) : (s.setTeam k x).tcache = s.tcache := rfl
@[simp] theorem State.setTeam_purges (s : State) (k : Nat) (x : Team) : (s.setTeam k x).purges = s.purges := rfl
@[simp] theorem State.setTeam_move (s : State) (k : Nat) (x : Team) : (s.setTeam k x).move = s.move := rfl
@[simp] theorem State.setTeam_farSeals (s : State) (k : Nat) (x : Team) : (s.setTeam k x).farSeals = s.farSeals := rfl
@[simp] theorem State.setTeam_farWaits (s : State) (k : Nat) (x : Team) : (s.setTeam k x).farWaits = s.farWaits := rfl
@[simp] theorem State.setTeam_links (s : State) (k : Nat) (x : Team) : (s.setTeam k x).links = s.links := rfl
@[simp] theorem State.setTeam_absent (s : State) (k : Nat) (x : Team) : (s.setTeam k x).absent = s.absent := rfl
@[simp] theorem State.setTeam_cmdLinks (s : State) (k : Nat) (x : Team) : (s.setTeam k x).cmdLinks = s.cmdLinks := rfl
@[simp] theorem State.setTeam_fw (s : State) (k : Nat) (x : Team) : (s.setTeam k x).fw = s.fw := rfl
@[simp] theorem State.setTeam_fwHalted (s : State) (k : Nat) (x : Team) : (s.setTeam k x).fwHalted = s.fwHalted := rfl
@[simp] theorem State.setTeam_stoppedCores (s : State) (k : Nat) (x : Team) : (s.setTeam k x).stoppedCores = s.stoppedCores := rfl
@[simp] theorem State.setTeam_vacating (s : State) (k : Nat) (x : Team) : (s.setTeam k x).vacating = s.vacating := rfl
@[simp] theorem State.setTeam_vacateAt (s : State) (k : Nat) (x : Team) : (s.setTeam k x).vacateAt = s.vacateAt := rfl
@[simp] theorem State.setTeam_dbg (s : State) (k : Nat) (x : Team) : (s.setTeam k x).dbg = s.dbg := rfl
@[simp] theorem State.setTeam_report (s : State) (k : Nat) (x : Team) : (s.setTeam k x).report = s.report := rfl
@[simp] theorem State.setTeam_health (s : State) (k : Nat) (x : Team) : (s.setTeam k x).health = s.health := rfl
@[simp] theorem State.setTeam_eccLog (s : State) (k : Nat) (x : Team) : (s.setTeam k x).eccLog = s.eccLog := rfl
@[simp] theorem State.setTeam_healthWord (s : State) (k : Nat) (x : Team) : (s.setTeam k x).healthWord = s.healthWord := rfl
@[simp] theorem State.setTeam_bootStage (s : State) (k : Nat) (x : Team) : (s.setTeam k x).bootStage = s.bootStage := rfl
@[simp] theorem State.setTeam_bootError (s : State) (k : Nat) (x : Team) : (s.setTeam k x).bootError = s.bootError := rfl
@[simp] theorem State.setTeam_held (s : State) (k : Nat) (x : Team) : (s.setTeam k x).held = s.held := rfl
@[simp] theorem State.setTeam_flash (s : State) (k : Nat) (x : Team) : (s.setTeam k x).flash = s.flash := rfl
@[simp] theorem State.setTeam_config (s : State) (k : Nat) (x : Team) : (s.setTeam k x).config = s.config := rfl
@[simp] theorem State.setTeam_netOut (s : State) (k : Nat) (x : Team) : (s.setTeam k x).netOut = s.netOut := rfl

/-! ## setGrid -/

@[simp] theorem State.setGrid_turn (s : State) (k : Nat) (x : Grid) : (s.setGrid k x).turn = s.turn := rfl
@[simp] theorem State.setGrid_schedule (s : State) (k : Nat) (x : Grid) : (s.setGrid k x).schedule = s.schedule := rfl
@[simp] theorem State.setGrid_cycle (s : State) (k : Nat) (x : Grid) : (s.setGrid k x).cycle = s.cycle := rfl
@[simp] theorem State.setGrid_clockBase (s : State) (k : Nat) (x : Grid) : (s.setGrid k x).clockBase = s.clockBase := rfl
@[simp] theorem State.setGrid_gtsHigh (s : State) (k : Nat) (x : Grid) : (s.setGrid k x).gtsHigh = s.gtsHigh := rfl
@[simp] theorem State.setGrid_serial (s : State) (k : Nat) (x : Grid) : (s.setGrid k x).serial = s.serial := rfl
@[simp] theorem State.setGrid_freeN (s : State) (k : Nat) (x : Grid) : (s.setGrid k x).freeN = s.freeN := rfl
@[simp] theorem State.setGrid_mem (s : State) (k : Nat) (x : Grid) : (s.setGrid k x).mem = s.mem := rfl
@[simp] theorem State.setGrid_lanes (s : State) (k : Nat) (x : Grid) : (s.setGrid k x).lanes = s.lanes := rfl
@[simp] theorem State.setGrid_groups (s : State) (k : Nat) (x : Grid) : (s.setGrid k x).groups = s.groups := rfl
@[simp] theorem State.setGrid_teams (s : State) (k : Nat) (x : Grid) : (s.setGrid k x).teams = s.teams := rfl
@[simp] theorem State.setGrid_grids (s : State) (k : Nat) (x : Grid) : (s.setGrid k x).grids = s.grids.put k x := rfl
@[simp] theorem State.setGrid_cores (s : State) (k : Nat) (x : Grid) : (s.setGrid k x).cores = s.cores := rfl
@[simp] theorem State.setGrid_cmds (s : State) (k : Nat) (x : Grid) : (s.setGrid k x).cmds = s.cmds := rfl
@[simp] theorem State.setGrid_windows (s : State) (k : Nat) (x : Grid) : (s.setGrid k x).windows = s.windows := rfl
@[simp] theorem State.setGrid_launchQueue (s : State) (k : Nat) (x : Grid) : (s.setGrid k x).launchQueue = s.launchQueue := rfl
@[simp] theorem State.setGrid_colls (s : State) (k : Nat) (x : Grid) : (s.setGrid k x).colls = s.colls := rfl
@[simp] theorem State.setGrid_feeds (s : State) (k : Nat) (x : Grid) : (s.setGrid k x).feeds = s.feeds := rfl
@[simp] theorem State.setGrid_sealTables (s : State) (k : Nat) (x : Grid) : (s.setGrid k x).sealTables = s.sealTables := rfl
@[simp] theorem State.setGrid_replicas (s : State) (k : Nat) (x : Grid) : (s.setGrid k x).replicas = s.replicas := rfl
@[simp] theorem State.setGrid_roots (s : State) (k : Nat) (x : Grid) : (s.setGrid k x).roots = s.roots := rfl
@[simp] theorem State.setGrid_tcache (s : State) (k : Nat) (x : Grid) : (s.setGrid k x).tcache = s.tcache := rfl
@[simp] theorem State.setGrid_purges (s : State) (k : Nat) (x : Grid) : (s.setGrid k x).purges = s.purges := rfl
@[simp] theorem State.setGrid_move (s : State) (k : Nat) (x : Grid) : (s.setGrid k x).move = s.move := rfl
@[simp] theorem State.setGrid_farSeals (s : State) (k : Nat) (x : Grid) : (s.setGrid k x).farSeals = s.farSeals := rfl
@[simp] theorem State.setGrid_farWaits (s : State) (k : Nat) (x : Grid) : (s.setGrid k x).farWaits = s.farWaits := rfl
@[simp] theorem State.setGrid_links (s : State) (k : Nat) (x : Grid) : (s.setGrid k x).links = s.links := rfl
@[simp] theorem State.setGrid_absent (s : State) (k : Nat) (x : Grid) : (s.setGrid k x).absent = s.absent := rfl
@[simp] theorem State.setGrid_cmdLinks (s : State) (k : Nat) (x : Grid) : (s.setGrid k x).cmdLinks = s.cmdLinks := rfl
@[simp] theorem State.setGrid_fw (s : State) (k : Nat) (x : Grid) : (s.setGrid k x).fw = s.fw := rfl
@[simp] theorem State.setGrid_fwHalted (s : State) (k : Nat) (x : Grid) : (s.setGrid k x).fwHalted = s.fwHalted := rfl
@[simp] theorem State.setGrid_stoppedCores (s : State) (k : Nat) (x : Grid) : (s.setGrid k x).stoppedCores = s.stoppedCores := rfl
@[simp] theorem State.setGrid_vacating (s : State) (k : Nat) (x : Grid) : (s.setGrid k x).vacating = s.vacating := rfl
@[simp] theorem State.setGrid_vacateAt (s : State) (k : Nat) (x : Grid) : (s.setGrid k x).vacateAt = s.vacateAt := rfl
@[simp] theorem State.setGrid_dbg (s : State) (k : Nat) (x : Grid) : (s.setGrid k x).dbg = s.dbg := rfl
@[simp] theorem State.setGrid_report (s : State) (k : Nat) (x : Grid) : (s.setGrid k x).report = s.report := rfl
@[simp] theorem State.setGrid_health (s : State) (k : Nat) (x : Grid) : (s.setGrid k x).health = s.health := rfl
@[simp] theorem State.setGrid_eccLog (s : State) (k : Nat) (x : Grid) : (s.setGrid k x).eccLog = s.eccLog := rfl
@[simp] theorem State.setGrid_healthWord (s : State) (k : Nat) (x : Grid) : (s.setGrid k x).healthWord = s.healthWord := rfl
@[simp] theorem State.setGrid_bootStage (s : State) (k : Nat) (x : Grid) : (s.setGrid k x).bootStage = s.bootStage := rfl
@[simp] theorem State.setGrid_bootError (s : State) (k : Nat) (x : Grid) : (s.setGrid k x).bootError = s.bootError := rfl
@[simp] theorem State.setGrid_held (s : State) (k : Nat) (x : Grid) : (s.setGrid k x).held = s.held := rfl
@[simp] theorem State.setGrid_flash (s : State) (k : Nat) (x : Grid) : (s.setGrid k x).flash = s.flash := rfl
@[simp] theorem State.setGrid_config (s : State) (k : Nat) (x : Grid) : (s.setGrid k x).config = s.config := rfl
@[simp] theorem State.setGrid_netOut (s : State) (k : Nat) (x : Grid) : (s.setGrid k x).netOut = s.netOut := rfl

/-! ## setCore -/

@[simp] theorem State.setCore_turn (s : State) (k : Nat) (x : Core) : (s.setCore k x).turn = s.turn := rfl
@[simp] theorem State.setCore_schedule (s : State) (k : Nat) (x : Core) : (s.setCore k x).schedule = s.schedule := rfl
@[simp] theorem State.setCore_cycle (s : State) (k : Nat) (x : Core) : (s.setCore k x).cycle = s.cycle := rfl
@[simp] theorem State.setCore_clockBase (s : State) (k : Nat) (x : Core) : (s.setCore k x).clockBase = s.clockBase := rfl
@[simp] theorem State.setCore_gtsHigh (s : State) (k : Nat) (x : Core) : (s.setCore k x).gtsHigh = s.gtsHigh := rfl
@[simp] theorem State.setCore_serial (s : State) (k : Nat) (x : Core) : (s.setCore k x).serial = s.serial := rfl
@[simp] theorem State.setCore_freeN (s : State) (k : Nat) (x : Core) : (s.setCore k x).freeN = s.freeN := rfl
@[simp] theorem State.setCore_mem (s : State) (k : Nat) (x : Core) : (s.setCore k x).mem = s.mem := rfl
@[simp] theorem State.setCore_lanes (s : State) (k : Nat) (x : Core) : (s.setCore k x).lanes = s.lanes := rfl
@[simp] theorem State.setCore_groups (s : State) (k : Nat) (x : Core) : (s.setCore k x).groups = s.groups := rfl
@[simp] theorem State.setCore_teams (s : State) (k : Nat) (x : Core) : (s.setCore k x).teams = s.teams := rfl
@[simp] theorem State.setCore_grids (s : State) (k : Nat) (x : Core) : (s.setCore k x).grids = s.grids := rfl
@[simp] theorem State.setCore_cores (s : State) (k : Nat) (x : Core) : (s.setCore k x).cores = s.cores.put k x := rfl
@[simp] theorem State.setCore_cmds (s : State) (k : Nat) (x : Core) : (s.setCore k x).cmds = s.cmds := rfl
@[simp] theorem State.setCore_windows (s : State) (k : Nat) (x : Core) : (s.setCore k x).windows = s.windows := rfl
@[simp] theorem State.setCore_launchQueue (s : State) (k : Nat) (x : Core) : (s.setCore k x).launchQueue = s.launchQueue := rfl
@[simp] theorem State.setCore_colls (s : State) (k : Nat) (x : Core) : (s.setCore k x).colls = s.colls := rfl
@[simp] theorem State.setCore_feeds (s : State) (k : Nat) (x : Core) : (s.setCore k x).feeds = s.feeds := rfl
@[simp] theorem State.setCore_sealTables (s : State) (k : Nat) (x : Core) : (s.setCore k x).sealTables = s.sealTables := rfl
@[simp] theorem State.setCore_replicas (s : State) (k : Nat) (x : Core) : (s.setCore k x).replicas = s.replicas := rfl
@[simp] theorem State.setCore_roots (s : State) (k : Nat) (x : Core) : (s.setCore k x).roots = s.roots := rfl
@[simp] theorem State.setCore_tcache (s : State) (k : Nat) (x : Core) : (s.setCore k x).tcache = s.tcache := rfl
@[simp] theorem State.setCore_purges (s : State) (k : Nat) (x : Core) : (s.setCore k x).purges = s.purges := rfl
@[simp] theorem State.setCore_move (s : State) (k : Nat) (x : Core) : (s.setCore k x).move = s.move := rfl
@[simp] theorem State.setCore_farSeals (s : State) (k : Nat) (x : Core) : (s.setCore k x).farSeals = s.farSeals := rfl
@[simp] theorem State.setCore_farWaits (s : State) (k : Nat) (x : Core) : (s.setCore k x).farWaits = s.farWaits := rfl
@[simp] theorem State.setCore_links (s : State) (k : Nat) (x : Core) : (s.setCore k x).links = s.links := rfl
@[simp] theorem State.setCore_absent (s : State) (k : Nat) (x : Core) : (s.setCore k x).absent = s.absent := rfl
@[simp] theorem State.setCore_cmdLinks (s : State) (k : Nat) (x : Core) : (s.setCore k x).cmdLinks = s.cmdLinks := rfl
@[simp] theorem State.setCore_fw (s : State) (k : Nat) (x : Core) : (s.setCore k x).fw = s.fw := rfl
@[simp] theorem State.setCore_fwHalted (s : State) (k : Nat) (x : Core) : (s.setCore k x).fwHalted = s.fwHalted := rfl
@[simp] theorem State.setCore_stoppedCores (s : State) (k : Nat) (x : Core) : (s.setCore k x).stoppedCores = s.stoppedCores := rfl
@[simp] theorem State.setCore_vacating (s : State) (k : Nat) (x : Core) : (s.setCore k x).vacating = s.vacating := rfl
@[simp] theorem State.setCore_vacateAt (s : State) (k : Nat) (x : Core) : (s.setCore k x).vacateAt = s.vacateAt := rfl
@[simp] theorem State.setCore_dbg (s : State) (k : Nat) (x : Core) : (s.setCore k x).dbg = s.dbg := rfl
@[simp] theorem State.setCore_report (s : State) (k : Nat) (x : Core) : (s.setCore k x).report = s.report := rfl
@[simp] theorem State.setCore_health (s : State) (k : Nat) (x : Core) : (s.setCore k x).health = s.health := rfl
@[simp] theorem State.setCore_eccLog (s : State) (k : Nat) (x : Core) : (s.setCore k x).eccLog = s.eccLog := rfl
@[simp] theorem State.setCore_healthWord (s : State) (k : Nat) (x : Core) : (s.setCore k x).healthWord = s.healthWord := rfl
@[simp] theorem State.setCore_bootStage (s : State) (k : Nat) (x : Core) : (s.setCore k x).bootStage = s.bootStage := rfl
@[simp] theorem State.setCore_bootError (s : State) (k : Nat) (x : Core) : (s.setCore k x).bootError = s.bootError := rfl
@[simp] theorem State.setCore_held (s : State) (k : Nat) (x : Core) : (s.setCore k x).held = s.held := rfl
@[simp] theorem State.setCore_flash (s : State) (k : Nat) (x : Core) : (s.setCore k x).flash = s.flash := rfl
@[simp] theorem State.setCore_config (s : State) (k : Nat) (x : Core) : (s.setCore k x).config = s.config := rfl
@[simp] theorem State.setCore_netOut (s : State) (k : Nat) (x : Core) : (s.setCore k x).netOut = s.netOut := rfl

/-! ## setFeed -/

@[simp] theorem State.setFeed_turn (s : State) (k : Nat) (x : Feed) : (s.setFeed k x).turn = s.turn := rfl
@[simp] theorem State.setFeed_schedule (s : State) (k : Nat) (x : Feed) : (s.setFeed k x).schedule = s.schedule := rfl
@[simp] theorem State.setFeed_cycle (s : State) (k : Nat) (x : Feed) : (s.setFeed k x).cycle = s.cycle := rfl
@[simp] theorem State.setFeed_clockBase (s : State) (k : Nat) (x : Feed) : (s.setFeed k x).clockBase = s.clockBase := rfl
@[simp] theorem State.setFeed_gtsHigh (s : State) (k : Nat) (x : Feed) : (s.setFeed k x).gtsHigh = s.gtsHigh := rfl
@[simp] theorem State.setFeed_serial (s : State) (k : Nat) (x : Feed) : (s.setFeed k x).serial = s.serial := rfl
@[simp] theorem State.setFeed_freeN (s : State) (k : Nat) (x : Feed) : (s.setFeed k x).freeN = s.freeN := rfl
@[simp] theorem State.setFeed_mem (s : State) (k : Nat) (x : Feed) : (s.setFeed k x).mem = s.mem := rfl
@[simp] theorem State.setFeed_lanes (s : State) (k : Nat) (x : Feed) : (s.setFeed k x).lanes = s.lanes := rfl
@[simp] theorem State.setFeed_groups (s : State) (k : Nat) (x : Feed) : (s.setFeed k x).groups = s.groups := rfl
@[simp] theorem State.setFeed_teams (s : State) (k : Nat) (x : Feed) : (s.setFeed k x).teams = s.teams := rfl
@[simp] theorem State.setFeed_grids (s : State) (k : Nat) (x : Feed) : (s.setFeed k x).grids = s.grids := rfl
@[simp] theorem State.setFeed_cores (s : State) (k : Nat) (x : Feed) : (s.setFeed k x).cores = s.cores := rfl
@[simp] theorem State.setFeed_cmds (s : State) (k : Nat) (x : Feed) : (s.setFeed k x).cmds = s.cmds := rfl
@[simp] theorem State.setFeed_windows (s : State) (k : Nat) (x : Feed) : (s.setFeed k x).windows = s.windows := rfl
@[simp] theorem State.setFeed_launchQueue (s : State) (k : Nat) (x : Feed) : (s.setFeed k x).launchQueue = s.launchQueue := rfl
@[simp] theorem State.setFeed_colls (s : State) (k : Nat) (x : Feed) : (s.setFeed k x).colls = s.colls := rfl
@[simp] theorem State.setFeed_feeds (s : State) (k : Nat) (x : Feed) : (s.setFeed k x).feeds = s.feeds.put k x := rfl
@[simp] theorem State.setFeed_sealTables (s : State) (k : Nat) (x : Feed) : (s.setFeed k x).sealTables = s.sealTables := rfl
@[simp] theorem State.setFeed_replicas (s : State) (k : Nat) (x : Feed) : (s.setFeed k x).replicas = s.replicas := rfl
@[simp] theorem State.setFeed_roots (s : State) (k : Nat) (x : Feed) : (s.setFeed k x).roots = s.roots := rfl
@[simp] theorem State.setFeed_tcache (s : State) (k : Nat) (x : Feed) : (s.setFeed k x).tcache = s.tcache := rfl
@[simp] theorem State.setFeed_purges (s : State) (k : Nat) (x : Feed) : (s.setFeed k x).purges = s.purges := rfl
@[simp] theorem State.setFeed_move (s : State) (k : Nat) (x : Feed) : (s.setFeed k x).move = s.move := rfl
@[simp] theorem State.setFeed_farSeals (s : State) (k : Nat) (x : Feed) : (s.setFeed k x).farSeals = s.farSeals := rfl
@[simp] theorem State.setFeed_farWaits (s : State) (k : Nat) (x : Feed) : (s.setFeed k x).farWaits = s.farWaits := rfl
@[simp] theorem State.setFeed_links (s : State) (k : Nat) (x : Feed) : (s.setFeed k x).links = s.links := rfl
@[simp] theorem State.setFeed_absent (s : State) (k : Nat) (x : Feed) : (s.setFeed k x).absent = s.absent := rfl
@[simp] theorem State.setFeed_cmdLinks (s : State) (k : Nat) (x : Feed) : (s.setFeed k x).cmdLinks = s.cmdLinks := rfl
@[simp] theorem State.setFeed_fw (s : State) (k : Nat) (x : Feed) : (s.setFeed k x).fw = s.fw := rfl
@[simp] theorem State.setFeed_fwHalted (s : State) (k : Nat) (x : Feed) : (s.setFeed k x).fwHalted = s.fwHalted := rfl
@[simp] theorem State.setFeed_stoppedCores (s : State) (k : Nat) (x : Feed) : (s.setFeed k x).stoppedCores = s.stoppedCores := rfl
@[simp] theorem State.setFeed_vacating (s : State) (k : Nat) (x : Feed) : (s.setFeed k x).vacating = s.vacating := rfl
@[simp] theorem State.setFeed_vacateAt (s : State) (k : Nat) (x : Feed) : (s.setFeed k x).vacateAt = s.vacateAt := rfl
@[simp] theorem State.setFeed_dbg (s : State) (k : Nat) (x : Feed) : (s.setFeed k x).dbg = s.dbg := rfl
@[simp] theorem State.setFeed_report (s : State) (k : Nat) (x : Feed) : (s.setFeed k x).report = s.report := rfl
@[simp] theorem State.setFeed_health (s : State) (k : Nat) (x : Feed) : (s.setFeed k x).health = s.health := rfl
@[simp] theorem State.setFeed_eccLog (s : State) (k : Nat) (x : Feed) : (s.setFeed k x).eccLog = s.eccLog := rfl
@[simp] theorem State.setFeed_healthWord (s : State) (k : Nat) (x : Feed) : (s.setFeed k x).healthWord = s.healthWord := rfl
@[simp] theorem State.setFeed_bootStage (s : State) (k : Nat) (x : Feed) : (s.setFeed k x).bootStage = s.bootStage := rfl
@[simp] theorem State.setFeed_bootError (s : State) (k : Nat) (x : Feed) : (s.setFeed k x).bootError = s.bootError := rfl
@[simp] theorem State.setFeed_held (s : State) (k : Nat) (x : Feed) : (s.setFeed k x).held = s.held := rfl
@[simp] theorem State.setFeed_flash (s : State) (k : Nat) (x : Feed) : (s.setFeed k x).flash = s.flash := rfl
@[simp] theorem State.setFeed_config (s : State) (k : Nat) (x : Feed) : (s.setFeed k x).config = s.config := rfl
@[simp] theorem State.setFeed_netOut (s : State) (k : Nat) (x : Feed) : (s.setFeed k x).netOut = s.netOut := rfl

/-! ## setLink -/

@[simp] theorem State.setLink_turn (s : State) (k : Nat) (x : Link) : (s.setLink k x).turn = s.turn := rfl
@[simp] theorem State.setLink_schedule (s : State) (k : Nat) (x : Link) : (s.setLink k x).schedule = s.schedule := rfl
@[simp] theorem State.setLink_cycle (s : State) (k : Nat) (x : Link) : (s.setLink k x).cycle = s.cycle := rfl
@[simp] theorem State.setLink_clockBase (s : State) (k : Nat) (x : Link) : (s.setLink k x).clockBase = s.clockBase := rfl
@[simp] theorem State.setLink_gtsHigh (s : State) (k : Nat) (x : Link) : (s.setLink k x).gtsHigh = s.gtsHigh := rfl
@[simp] theorem State.setLink_serial (s : State) (k : Nat) (x : Link) : (s.setLink k x).serial = s.serial := rfl
@[simp] theorem State.setLink_freeN (s : State) (k : Nat) (x : Link) : (s.setLink k x).freeN = s.freeN := rfl
@[simp] theorem State.setLink_mem (s : State) (k : Nat) (x : Link) : (s.setLink k x).mem = s.mem := rfl
@[simp] theorem State.setLink_lanes (s : State) (k : Nat) (x : Link) : (s.setLink k x).lanes = s.lanes := rfl
@[simp] theorem State.setLink_groups (s : State) (k : Nat) (x : Link) : (s.setLink k x).groups = s.groups := rfl
@[simp] theorem State.setLink_teams (s : State) (k : Nat) (x : Link) : (s.setLink k x).teams = s.teams := rfl
@[simp] theorem State.setLink_grids (s : State) (k : Nat) (x : Link) : (s.setLink k x).grids = s.grids := rfl
@[simp] theorem State.setLink_cores (s : State) (k : Nat) (x : Link) : (s.setLink k x).cores = s.cores := rfl
@[simp] theorem State.setLink_cmds (s : State) (k : Nat) (x : Link) : (s.setLink k x).cmds = s.cmds := rfl
@[simp] theorem State.setLink_windows (s : State) (k : Nat) (x : Link) : (s.setLink k x).windows = s.windows := rfl
@[simp] theorem State.setLink_launchQueue (s : State) (k : Nat) (x : Link) : (s.setLink k x).launchQueue = s.launchQueue := rfl
@[simp] theorem State.setLink_colls (s : State) (k : Nat) (x : Link) : (s.setLink k x).colls = s.colls := rfl
@[simp] theorem State.setLink_feeds (s : State) (k : Nat) (x : Link) : (s.setLink k x).feeds = s.feeds := rfl
@[simp] theorem State.setLink_sealTables (s : State) (k : Nat) (x : Link) : (s.setLink k x).sealTables = s.sealTables := rfl
@[simp] theorem State.setLink_replicas (s : State) (k : Nat) (x : Link) : (s.setLink k x).replicas = s.replicas := rfl
@[simp] theorem State.setLink_roots (s : State) (k : Nat) (x : Link) : (s.setLink k x).roots = s.roots := rfl
@[simp] theorem State.setLink_tcache (s : State) (k : Nat) (x : Link) : (s.setLink k x).tcache = s.tcache := rfl
@[simp] theorem State.setLink_purges (s : State) (k : Nat) (x : Link) : (s.setLink k x).purges = s.purges := rfl
@[simp] theorem State.setLink_move (s : State) (k : Nat) (x : Link) : (s.setLink k x).move = s.move := rfl
@[simp] theorem State.setLink_farSeals (s : State) (k : Nat) (x : Link) : (s.setLink k x).farSeals = s.farSeals := rfl
@[simp] theorem State.setLink_farWaits (s : State) (k : Nat) (x : Link) : (s.setLink k x).farWaits = s.farWaits := rfl
@[simp] theorem State.setLink_links (s : State) (k : Nat) (x : Link) : (s.setLink k x).links = s.links.put k x := rfl
@[simp] theorem State.setLink_absent (s : State) (k : Nat) (x : Link) : (s.setLink k x).absent = s.absent := rfl
@[simp] theorem State.setLink_cmdLinks (s : State) (k : Nat) (x : Link) : (s.setLink k x).cmdLinks = s.cmdLinks := rfl
@[simp] theorem State.setLink_fw (s : State) (k : Nat) (x : Link) : (s.setLink k x).fw = s.fw := rfl
@[simp] theorem State.setLink_fwHalted (s : State) (k : Nat) (x : Link) : (s.setLink k x).fwHalted = s.fwHalted := rfl
@[simp] theorem State.setLink_stoppedCores (s : State) (k : Nat) (x : Link) : (s.setLink k x).stoppedCores = s.stoppedCores := rfl
@[simp] theorem State.setLink_vacating (s : State) (k : Nat) (x : Link) : (s.setLink k x).vacating = s.vacating := rfl
@[simp] theorem State.setLink_vacateAt (s : State) (k : Nat) (x : Link) : (s.setLink k x).vacateAt = s.vacateAt := rfl
@[simp] theorem State.setLink_dbg (s : State) (k : Nat) (x : Link) : (s.setLink k x).dbg = s.dbg := rfl
@[simp] theorem State.setLink_report (s : State) (k : Nat) (x : Link) : (s.setLink k x).report = s.report := rfl
@[simp] theorem State.setLink_health (s : State) (k : Nat) (x : Link) : (s.setLink k x).health = s.health := rfl
@[simp] theorem State.setLink_eccLog (s : State) (k : Nat) (x : Link) : (s.setLink k x).eccLog = s.eccLog := rfl
@[simp] theorem State.setLink_healthWord (s : State) (k : Nat) (x : Link) : (s.setLink k x).healthWord = s.healthWord := rfl
@[simp] theorem State.setLink_bootStage (s : State) (k : Nat) (x : Link) : (s.setLink k x).bootStage = s.bootStage := rfl
@[simp] theorem State.setLink_bootError (s : State) (k : Nat) (x : Link) : (s.setLink k x).bootError = s.bootError := rfl
@[simp] theorem State.setLink_held (s : State) (k : Nat) (x : Link) : (s.setLink k x).held = s.held := rfl
@[simp] theorem State.setLink_flash (s : State) (k : Nat) (x : Link) : (s.setLink k x).flash = s.flash := rfl
@[simp] theorem State.setLink_config (s : State) (k : Nat) (x : Link) : (s.setLink k x).config = s.config := rfl
@[simp] theorem State.setLink_netOut (s : State) (k : Nat) (x : Link) : (s.setLink k x).netOut = s.netOut := rfl

/-! ## setHealth -/

@[simp] theorem State.setHealth_turn (s : State) (k : Nat) (x : Health) : (s.setHealth k x).turn = s.turn := rfl
@[simp] theorem State.setHealth_schedule (s : State) (k : Nat) (x : Health) : (s.setHealth k x).schedule = s.schedule := rfl
@[simp] theorem State.setHealth_cycle (s : State) (k : Nat) (x : Health) : (s.setHealth k x).cycle = s.cycle := rfl
@[simp] theorem State.setHealth_clockBase (s : State) (k : Nat) (x : Health) : (s.setHealth k x).clockBase = s.clockBase := rfl
@[simp] theorem State.setHealth_gtsHigh (s : State) (k : Nat) (x : Health) : (s.setHealth k x).gtsHigh = s.gtsHigh := rfl
@[simp] theorem State.setHealth_serial (s : State) (k : Nat) (x : Health) : (s.setHealth k x).serial = s.serial := rfl
@[simp] theorem State.setHealth_freeN (s : State) (k : Nat) (x : Health) : (s.setHealth k x).freeN = s.freeN := rfl
@[simp] theorem State.setHealth_mem (s : State) (k : Nat) (x : Health) : (s.setHealth k x).mem = s.mem := rfl
@[simp] theorem State.setHealth_lanes (s : State) (k : Nat) (x : Health) : (s.setHealth k x).lanes = s.lanes := rfl
@[simp] theorem State.setHealth_groups (s : State) (k : Nat) (x : Health) : (s.setHealth k x).groups = s.groups := rfl
@[simp] theorem State.setHealth_teams (s : State) (k : Nat) (x : Health) : (s.setHealth k x).teams = s.teams := rfl
@[simp] theorem State.setHealth_grids (s : State) (k : Nat) (x : Health) : (s.setHealth k x).grids = s.grids := rfl
@[simp] theorem State.setHealth_cores (s : State) (k : Nat) (x : Health) : (s.setHealth k x).cores = s.cores := rfl
@[simp] theorem State.setHealth_cmds (s : State) (k : Nat) (x : Health) : (s.setHealth k x).cmds = s.cmds := rfl
@[simp] theorem State.setHealth_windows (s : State) (k : Nat) (x : Health) : (s.setHealth k x).windows = s.windows := rfl
@[simp] theorem State.setHealth_launchQueue (s : State) (k : Nat) (x : Health) : (s.setHealth k x).launchQueue = s.launchQueue := rfl
@[simp] theorem State.setHealth_colls (s : State) (k : Nat) (x : Health) : (s.setHealth k x).colls = s.colls := rfl
@[simp] theorem State.setHealth_feeds (s : State) (k : Nat) (x : Health) : (s.setHealth k x).feeds = s.feeds := rfl
@[simp] theorem State.setHealth_sealTables (s : State) (k : Nat) (x : Health) : (s.setHealth k x).sealTables = s.sealTables := rfl
@[simp] theorem State.setHealth_replicas (s : State) (k : Nat) (x : Health) : (s.setHealth k x).replicas = s.replicas := rfl
@[simp] theorem State.setHealth_roots (s : State) (k : Nat) (x : Health) : (s.setHealth k x).roots = s.roots := rfl
@[simp] theorem State.setHealth_tcache (s : State) (k : Nat) (x : Health) : (s.setHealth k x).tcache = s.tcache := rfl
@[simp] theorem State.setHealth_purges (s : State) (k : Nat) (x : Health) : (s.setHealth k x).purges = s.purges := rfl
@[simp] theorem State.setHealth_move (s : State) (k : Nat) (x : Health) : (s.setHealth k x).move = s.move := rfl
@[simp] theorem State.setHealth_farSeals (s : State) (k : Nat) (x : Health) : (s.setHealth k x).farSeals = s.farSeals := rfl
@[simp] theorem State.setHealth_farWaits (s : State) (k : Nat) (x : Health) : (s.setHealth k x).farWaits = s.farWaits := rfl
@[simp] theorem State.setHealth_links (s : State) (k : Nat) (x : Health) : (s.setHealth k x).links = s.links := rfl
@[simp] theorem State.setHealth_absent (s : State) (k : Nat) (x : Health) : (s.setHealth k x).absent = s.absent := rfl
@[simp] theorem State.setHealth_cmdLinks (s : State) (k : Nat) (x : Health) : (s.setHealth k x).cmdLinks = s.cmdLinks := rfl
@[simp] theorem State.setHealth_fw (s : State) (k : Nat) (x : Health) : (s.setHealth k x).fw = s.fw := rfl
@[simp] theorem State.setHealth_fwHalted (s : State) (k : Nat) (x : Health) : (s.setHealth k x).fwHalted = s.fwHalted := rfl
@[simp] theorem State.setHealth_stoppedCores (s : State) (k : Nat) (x : Health) : (s.setHealth k x).stoppedCores = s.stoppedCores := rfl
@[simp] theorem State.setHealth_vacating (s : State) (k : Nat) (x : Health) : (s.setHealth k x).vacating = s.vacating := rfl
@[simp] theorem State.setHealth_vacateAt (s : State) (k : Nat) (x : Health) : (s.setHealth k x).vacateAt = s.vacateAt := rfl
@[simp] theorem State.setHealth_dbg (s : State) (k : Nat) (x : Health) : (s.setHealth k x).dbg = s.dbg := rfl
@[simp] theorem State.setHealth_report (s : State) (k : Nat) (x : Health) : (s.setHealth k x).report = s.report := rfl
@[simp] theorem State.setHealth_health (s : State) (k : Nat) (x : Health) : (s.setHealth k x).health = s.health.put k x := rfl
@[simp] theorem State.setHealth_eccLog (s : State) (k : Nat) (x : Health) : (s.setHealth k x).eccLog = s.eccLog := rfl
@[simp] theorem State.setHealth_healthWord (s : State) (k : Nat) (x : Health) : (s.setHealth k x).healthWord = s.healthWord := rfl
@[simp] theorem State.setHealth_bootStage (s : State) (k : Nat) (x : Health) : (s.setHealth k x).bootStage = s.bootStage := rfl
@[simp] theorem State.setHealth_bootError (s : State) (k : Nat) (x : Health) : (s.setHealth k x).bootError = s.bootError := rfl
@[simp] theorem State.setHealth_held (s : State) (k : Nat) (x : Health) : (s.setHealth k x).held = s.held := rfl
@[simp] theorem State.setHealth_flash (s : State) (k : Nat) (x : Health) : (s.setHealth k x).flash = s.flash := rfl
@[simp] theorem State.setHealth_config (s : State) (k : Nat) (x : Health) : (s.setHealth k x).config = s.config := rfl
@[simp] theorem State.setHealth_netOut (s : State) (k : Nat) (x : Health) : (s.setHealth k x).netOut = s.netOut := rfl

/-! ## setCmd -/

@[simp] theorem State.setCmd_turn (s : State) (k : Nat) (x : Command) : (s.setCmd k x).turn = s.turn := rfl
@[simp] theorem State.setCmd_schedule (s : State) (k : Nat) (x : Command) : (s.setCmd k x).schedule = s.schedule := rfl
@[simp] theorem State.setCmd_cycle (s : State) (k : Nat) (x : Command) : (s.setCmd k x).cycle = s.cycle := rfl
@[simp] theorem State.setCmd_clockBase (s : State) (k : Nat) (x : Command) : (s.setCmd k x).clockBase = s.clockBase := rfl
@[simp] theorem State.setCmd_gtsHigh (s : State) (k : Nat) (x : Command) : (s.setCmd k x).gtsHigh = s.gtsHigh := rfl
@[simp] theorem State.setCmd_serial (s : State) (k : Nat) (x : Command) : (s.setCmd k x).serial = s.serial := rfl
@[simp] theorem State.setCmd_freeN (s : State) (k : Nat) (x : Command) : (s.setCmd k x).freeN = s.freeN := rfl
@[simp] theorem State.setCmd_mem (s : State) (k : Nat) (x : Command) : (s.setCmd k x).mem = s.mem := rfl
@[simp] theorem State.setCmd_lanes (s : State) (k : Nat) (x : Command) : (s.setCmd k x).lanes = s.lanes := rfl
@[simp] theorem State.setCmd_groups (s : State) (k : Nat) (x : Command) : (s.setCmd k x).groups = s.groups := rfl
@[simp] theorem State.setCmd_teams (s : State) (k : Nat) (x : Command) : (s.setCmd k x).teams = s.teams := rfl
@[simp] theorem State.setCmd_grids (s : State) (k : Nat) (x : Command) : (s.setCmd k x).grids = s.grids := rfl
@[simp] theorem State.setCmd_cores (s : State) (k : Nat) (x : Command) : (s.setCmd k x).cores = s.cores := rfl
@[simp] theorem State.setCmd_cmds (s : State) (k : Nat) (x : Command) : (s.setCmd k x).cmds = s.cmds.put k x := rfl
@[simp] theorem State.setCmd_windows (s : State) (k : Nat) (x : Command) : (s.setCmd k x).windows = s.windows := rfl
@[simp] theorem State.setCmd_launchQueue (s : State) (k : Nat) (x : Command) : (s.setCmd k x).launchQueue = s.launchQueue := rfl
@[simp] theorem State.setCmd_colls (s : State) (k : Nat) (x : Command) : (s.setCmd k x).colls = s.colls := rfl
@[simp] theorem State.setCmd_feeds (s : State) (k : Nat) (x : Command) : (s.setCmd k x).feeds = s.feeds := rfl
@[simp] theorem State.setCmd_sealTables (s : State) (k : Nat) (x : Command) : (s.setCmd k x).sealTables = s.sealTables := rfl
@[simp] theorem State.setCmd_replicas (s : State) (k : Nat) (x : Command) : (s.setCmd k x).replicas = s.replicas := rfl
@[simp] theorem State.setCmd_roots (s : State) (k : Nat) (x : Command) : (s.setCmd k x).roots = s.roots := rfl
@[simp] theorem State.setCmd_tcache (s : State) (k : Nat) (x : Command) : (s.setCmd k x).tcache = s.tcache := rfl
@[simp] theorem State.setCmd_purges (s : State) (k : Nat) (x : Command) : (s.setCmd k x).purges = s.purges := rfl
@[simp] theorem State.setCmd_move (s : State) (k : Nat) (x : Command) : (s.setCmd k x).move = s.move := rfl
@[simp] theorem State.setCmd_farSeals (s : State) (k : Nat) (x : Command) : (s.setCmd k x).farSeals = s.farSeals := rfl
@[simp] theorem State.setCmd_farWaits (s : State) (k : Nat) (x : Command) : (s.setCmd k x).farWaits = s.farWaits := rfl
@[simp] theorem State.setCmd_links (s : State) (k : Nat) (x : Command) : (s.setCmd k x).links = s.links := rfl
@[simp] theorem State.setCmd_absent (s : State) (k : Nat) (x : Command) : (s.setCmd k x).absent = s.absent := rfl
@[simp] theorem State.setCmd_cmdLinks (s : State) (k : Nat) (x : Command) : (s.setCmd k x).cmdLinks = s.cmdLinks := rfl
@[simp] theorem State.setCmd_fw (s : State) (k : Nat) (x : Command) : (s.setCmd k x).fw = s.fw := rfl
@[simp] theorem State.setCmd_fwHalted (s : State) (k : Nat) (x : Command) : (s.setCmd k x).fwHalted = s.fwHalted := rfl
@[simp] theorem State.setCmd_stoppedCores (s : State) (k : Nat) (x : Command) : (s.setCmd k x).stoppedCores = s.stoppedCores := rfl
@[simp] theorem State.setCmd_vacating (s : State) (k : Nat) (x : Command) : (s.setCmd k x).vacating = s.vacating := rfl
@[simp] theorem State.setCmd_vacateAt (s : State) (k : Nat) (x : Command) : (s.setCmd k x).vacateAt = s.vacateAt := rfl
@[simp] theorem State.setCmd_dbg (s : State) (k : Nat) (x : Command) : (s.setCmd k x).dbg = s.dbg := rfl
@[simp] theorem State.setCmd_report (s : State) (k : Nat) (x : Command) : (s.setCmd k x).report = s.report := rfl
@[simp] theorem State.setCmd_health (s : State) (k : Nat) (x : Command) : (s.setCmd k x).health = s.health := rfl
@[simp] theorem State.setCmd_eccLog (s : State) (k : Nat) (x : Command) : (s.setCmd k x).eccLog = s.eccLog := rfl
@[simp] theorem State.setCmd_healthWord (s : State) (k : Nat) (x : Command) : (s.setCmd k x).healthWord = s.healthWord := rfl
@[simp] theorem State.setCmd_bootStage (s : State) (k : Nat) (x : Command) : (s.setCmd k x).bootStage = s.bootStage := rfl
@[simp] theorem State.setCmd_bootError (s : State) (k : Nat) (x : Command) : (s.setCmd k x).bootError = s.bootError := rfl
@[simp] theorem State.setCmd_held (s : State) (k : Nat) (x : Command) : (s.setCmd k x).held = s.held := rfl
@[simp] theorem State.setCmd_flash (s : State) (k : Nat) (x : Command) : (s.setCmd k x).flash = s.flash := rfl
@[simp] theorem State.setCmd_config (s : State) (k : Nat) (x : Command) : (s.setCmd k x).config = s.config := rfl
@[simp] theorem State.setCmd_netOut (s : State) (k : Nat) (x : Command) : (s.setCmd k x).netOut = s.netOut := rfl

/-! ## setMem -/

@[simp] theorem State.setMem_turn (s : State) (m : Memory) : (s.setMem m).turn = s.turn := rfl
@[simp] theorem State.setMem_schedule (s : State) (m : Memory) : (s.setMem m).schedule = s.schedule := rfl
@[simp] theorem State.setMem_cycle (s : State) (m : Memory) : (s.setMem m).cycle = s.cycle := rfl
@[simp] theorem State.setMem_clockBase (s : State) (m : Memory) : (s.setMem m).clockBase = s.clockBase := rfl
@[simp] theorem State.setMem_gtsHigh (s : State) (m : Memory) : (s.setMem m).gtsHigh = s.gtsHigh := rfl
@[simp] theorem State.setMem_serial (s : State) (m : Memory) : (s.setMem m).serial = s.serial := rfl
@[simp] theorem State.setMem_freeN (s : State) (m : Memory) : (s.setMem m).freeN = s.freeN := rfl
@[simp] theorem State.setMem_mem (s : State) (m : Memory) : (s.setMem m).mem = m := rfl
@[simp] theorem State.setMem_lanes (s : State) (m : Memory) : (s.setMem m).lanes = s.lanes := rfl
@[simp] theorem State.setMem_groups (s : State) (m : Memory) : (s.setMem m).groups = s.groups := rfl
@[simp] theorem State.setMem_teams (s : State) (m : Memory) : (s.setMem m).teams = s.teams := rfl
@[simp] theorem State.setMem_grids (s : State) (m : Memory) : (s.setMem m).grids = s.grids := rfl
@[simp] theorem State.setMem_cores (s : State) (m : Memory) : (s.setMem m).cores = s.cores := rfl
@[simp] theorem State.setMem_cmds (s : State) (m : Memory) : (s.setMem m).cmds = s.cmds := rfl
@[simp] theorem State.setMem_windows (s : State) (m : Memory) : (s.setMem m).windows = s.windows := rfl
@[simp] theorem State.setMem_launchQueue (s : State) (m : Memory) : (s.setMem m).launchQueue = s.launchQueue := rfl
@[simp] theorem State.setMem_colls (s : State) (m : Memory) : (s.setMem m).colls = s.colls := rfl
@[simp] theorem State.setMem_feeds (s : State) (m : Memory) : (s.setMem m).feeds = s.feeds := rfl
@[simp] theorem State.setMem_sealTables (s : State) (m : Memory) : (s.setMem m).sealTables = s.sealTables := rfl
@[simp] theorem State.setMem_replicas (s : State) (m : Memory) : (s.setMem m).replicas = s.replicas := rfl
@[simp] theorem State.setMem_roots (s : State) (m : Memory) : (s.setMem m).roots = s.roots := rfl
@[simp] theorem State.setMem_tcache (s : State) (m : Memory) : (s.setMem m).tcache = s.tcache := rfl
@[simp] theorem State.setMem_purges (s : State) (m : Memory) : (s.setMem m).purges = s.purges := rfl
@[simp] theorem State.setMem_move (s : State) (m : Memory) : (s.setMem m).move = s.move := rfl
@[simp] theorem State.setMem_farSeals (s : State) (m : Memory) : (s.setMem m).farSeals = s.farSeals := rfl
@[simp] theorem State.setMem_farWaits (s : State) (m : Memory) : (s.setMem m).farWaits = s.farWaits := rfl
@[simp] theorem State.setMem_links (s : State) (m : Memory) : (s.setMem m).links = s.links := rfl
@[simp] theorem State.setMem_absent (s : State) (m : Memory) : (s.setMem m).absent = s.absent := rfl
@[simp] theorem State.setMem_cmdLinks (s : State) (m : Memory) : (s.setMem m).cmdLinks = s.cmdLinks := rfl
@[simp] theorem State.setMem_fw (s : State) (m : Memory) : (s.setMem m).fw = s.fw := rfl
@[simp] theorem State.setMem_fwHalted (s : State) (m : Memory) : (s.setMem m).fwHalted = s.fwHalted := rfl
@[simp] theorem State.setMem_stoppedCores (s : State) (m : Memory) : (s.setMem m).stoppedCores = s.stoppedCores := rfl
@[simp] theorem State.setMem_vacating (s : State) (m : Memory) : (s.setMem m).vacating = s.vacating := rfl
@[simp] theorem State.setMem_vacateAt (s : State) (m : Memory) : (s.setMem m).vacateAt = s.vacateAt := rfl
@[simp] theorem State.setMem_dbg (s : State) (m : Memory) : (s.setMem m).dbg = s.dbg := rfl
@[simp] theorem State.setMem_report (s : State) (m : Memory) : (s.setMem m).report = s.report := rfl
@[simp] theorem State.setMem_health (s : State) (m : Memory) : (s.setMem m).health = s.health := rfl
@[simp] theorem State.setMem_eccLog (s : State) (m : Memory) : (s.setMem m).eccLog = s.eccLog := rfl
@[simp] theorem State.setMem_healthWord (s : State) (m : Memory) : (s.setMem m).healthWord = s.healthWord := rfl
@[simp] theorem State.setMem_bootStage (s : State) (m : Memory) : (s.setMem m).bootStage = s.bootStage := rfl
@[simp] theorem State.setMem_bootError (s : State) (m : Memory) : (s.setMem m).bootError = s.bootError := rfl
@[simp] theorem State.setMem_held (s : State) (m : Memory) : (s.setMem m).held = s.held := rfl
@[simp] theorem State.setMem_flash (s : State) (m : Memory) : (s.setMem m).flash = s.flash := rfl
@[simp] theorem State.setMem_config (s : State) (m : Memory) : (s.setMem m).config = s.config := rfl
@[simp] theorem State.setMem_netOut (s : State) (m : Memory) : (s.setMem m).netOut = s.netOut := rfl

/-! ## setTurn -/

@[simp] theorem State.setTurn_turn (s : State) (u : Turn) : (s.setTurn u).turn = u := rfl
@[simp] theorem State.setTurn_schedule (s : State) (u : Turn) : (s.setTurn u).schedule = s.schedule := rfl
@[simp] theorem State.setTurn_cycle (s : State) (u : Turn) : (s.setTurn u).cycle = s.cycle := rfl
@[simp] theorem State.setTurn_clockBase (s : State) (u : Turn) : (s.setTurn u).clockBase = s.clockBase := rfl
@[simp] theorem State.setTurn_gtsHigh (s : State) (u : Turn) : (s.setTurn u).gtsHigh = s.gtsHigh := rfl
@[simp] theorem State.setTurn_serial (s : State) (u : Turn) : (s.setTurn u).serial = s.serial := rfl
@[simp] theorem State.setTurn_freeN (s : State) (u : Turn) : (s.setTurn u).freeN = s.freeN := rfl
@[simp] theorem State.setTurn_mem (s : State) (u : Turn) : (s.setTurn u).mem = s.mem := rfl
@[simp] theorem State.setTurn_lanes (s : State) (u : Turn) : (s.setTurn u).lanes = s.lanes := rfl
@[simp] theorem State.setTurn_groups (s : State) (u : Turn) : (s.setTurn u).groups = s.groups := rfl
@[simp] theorem State.setTurn_teams (s : State) (u : Turn) : (s.setTurn u).teams = s.teams := rfl
@[simp] theorem State.setTurn_grids (s : State) (u : Turn) : (s.setTurn u).grids = s.grids := rfl
@[simp] theorem State.setTurn_cores (s : State) (u : Turn) : (s.setTurn u).cores = s.cores := rfl
@[simp] theorem State.setTurn_cmds (s : State) (u : Turn) : (s.setTurn u).cmds = s.cmds := rfl
@[simp] theorem State.setTurn_windows (s : State) (u : Turn) : (s.setTurn u).windows = s.windows := rfl
@[simp] theorem State.setTurn_launchQueue (s : State) (u : Turn) : (s.setTurn u).launchQueue = s.launchQueue := rfl
@[simp] theorem State.setTurn_colls (s : State) (u : Turn) : (s.setTurn u).colls = s.colls := rfl
@[simp] theorem State.setTurn_feeds (s : State) (u : Turn) : (s.setTurn u).feeds = s.feeds := rfl
@[simp] theorem State.setTurn_sealTables (s : State) (u : Turn) : (s.setTurn u).sealTables = s.sealTables := rfl
@[simp] theorem State.setTurn_replicas (s : State) (u : Turn) : (s.setTurn u).replicas = s.replicas := rfl
@[simp] theorem State.setTurn_roots (s : State) (u : Turn) : (s.setTurn u).roots = s.roots := rfl
@[simp] theorem State.setTurn_tcache (s : State) (u : Turn) : (s.setTurn u).tcache = s.tcache := rfl
@[simp] theorem State.setTurn_purges (s : State) (u : Turn) : (s.setTurn u).purges = s.purges := rfl
@[simp] theorem State.setTurn_move (s : State) (u : Turn) : (s.setTurn u).move = s.move := rfl
@[simp] theorem State.setTurn_farSeals (s : State) (u : Turn) : (s.setTurn u).farSeals = s.farSeals := rfl
@[simp] theorem State.setTurn_farWaits (s : State) (u : Turn) : (s.setTurn u).farWaits = s.farWaits := rfl
@[simp] theorem State.setTurn_links (s : State) (u : Turn) : (s.setTurn u).links = s.links := rfl
@[simp] theorem State.setTurn_absent (s : State) (u : Turn) : (s.setTurn u).absent = s.absent := rfl
@[simp] theorem State.setTurn_cmdLinks (s : State) (u : Turn) : (s.setTurn u).cmdLinks = s.cmdLinks := rfl
@[simp] theorem State.setTurn_fw (s : State) (u : Turn) : (s.setTurn u).fw = s.fw := rfl
@[simp] theorem State.setTurn_fwHalted (s : State) (u : Turn) : (s.setTurn u).fwHalted = s.fwHalted := rfl
@[simp] theorem State.setTurn_stoppedCores (s : State) (u : Turn) : (s.setTurn u).stoppedCores = s.stoppedCores := rfl
@[simp] theorem State.setTurn_vacating (s : State) (u : Turn) : (s.setTurn u).vacating = s.vacating := rfl
@[simp] theorem State.setTurn_vacateAt (s : State) (u : Turn) : (s.setTurn u).vacateAt = s.vacateAt := rfl
@[simp] theorem State.setTurn_dbg (s : State) (u : Turn) : (s.setTurn u).dbg = s.dbg := rfl
@[simp] theorem State.setTurn_report (s : State) (u : Turn) : (s.setTurn u).report = s.report := rfl
@[simp] theorem State.setTurn_health (s : State) (u : Turn) : (s.setTurn u).health = s.health := rfl
@[simp] theorem State.setTurn_eccLog (s : State) (u : Turn) : (s.setTurn u).eccLog = s.eccLog := rfl
@[simp] theorem State.setTurn_healthWord (s : State) (u : Turn) : (s.setTurn u).healthWord = s.healthWord := rfl
@[simp] theorem State.setTurn_bootStage (s : State) (u : Turn) : (s.setTurn u).bootStage = s.bootStage := rfl
@[simp] theorem State.setTurn_bootError (s : State) (u : Turn) : (s.setTurn u).bootError = s.bootError := rfl
@[simp] theorem State.setTurn_held (s : State) (u : Turn) : (s.setTurn u).held = s.held := rfl
@[simp] theorem State.setTurn_flash (s : State) (u : Turn) : (s.setTurn u).flash = s.flash := rfl
@[simp] theorem State.setTurn_config (s : State) (u : Turn) : (s.setTurn u).config = s.config := rfl
@[simp] theorem State.setTurn_netOut (s : State) (u : Turn) : (s.setTurn u).netOut = s.netOut := rfl

/-! ## bump -/

@[simp] theorem State.bump_turn (s : State) : s.bump.turn = s.turn := rfl
@[simp] theorem State.bump_schedule (s : State) : s.bump.schedule = s.schedule := rfl
@[simp] theorem State.bump_cycle (s : State) : s.bump.cycle = s.cycle := rfl
@[simp] theorem State.bump_clockBase (s : State) : s.bump.clockBase = s.clockBase := rfl
@[simp] theorem State.bump_gtsHigh (s : State) : s.bump.gtsHigh = s.gtsHigh := rfl
@[simp] theorem State.bump_serial (s : State) : s.bump.serial = s.serial + 1 := rfl
@[simp] theorem State.bump_freeN (s : State) : s.bump.freeN = s.freeN := rfl
@[simp] theorem State.bump_mem (s : State) : s.bump.mem = s.mem := rfl
@[simp] theorem State.bump_lanes (s : State) : s.bump.lanes = s.lanes := rfl
@[simp] theorem State.bump_groups (s : State) : s.bump.groups = s.groups := rfl
@[simp] theorem State.bump_teams (s : State) : s.bump.teams = s.teams := rfl
@[simp] theorem State.bump_grids (s : State) : s.bump.grids = s.grids := rfl
@[simp] theorem State.bump_cores (s : State) : s.bump.cores = s.cores := rfl
@[simp] theorem State.bump_cmds (s : State) : s.bump.cmds = s.cmds := rfl
@[simp] theorem State.bump_windows (s : State) : s.bump.windows = s.windows := rfl
@[simp] theorem State.bump_launchQueue (s : State) : s.bump.launchQueue = s.launchQueue := rfl
@[simp] theorem State.bump_colls (s : State) : s.bump.colls = s.colls := rfl
@[simp] theorem State.bump_feeds (s : State) : s.bump.feeds = s.feeds := rfl
@[simp] theorem State.bump_sealTables (s : State) : s.bump.sealTables = s.sealTables := rfl
@[simp] theorem State.bump_replicas (s : State) : s.bump.replicas = s.replicas := rfl
@[simp] theorem State.bump_roots (s : State) : s.bump.roots = s.roots := rfl
@[simp] theorem State.bump_tcache (s : State) : s.bump.tcache = s.tcache := rfl
@[simp] theorem State.bump_purges (s : State) : s.bump.purges = s.purges := rfl
@[simp] theorem State.bump_move (s : State) : s.bump.move = s.move := rfl
@[simp] theorem State.bump_farSeals (s : State) : s.bump.farSeals = s.farSeals := rfl
@[simp] theorem State.bump_farWaits (s : State) : s.bump.farWaits = s.farWaits := rfl
@[simp] theorem State.bump_links (s : State) : s.bump.links = s.links := rfl
@[simp] theorem State.bump_absent (s : State) : s.bump.absent = s.absent := rfl
@[simp] theorem State.bump_cmdLinks (s : State) : s.bump.cmdLinks = s.cmdLinks := rfl
@[simp] theorem State.bump_fw (s : State) : s.bump.fw = s.fw := rfl
@[simp] theorem State.bump_fwHalted (s : State) : s.bump.fwHalted = s.fwHalted := rfl
@[simp] theorem State.bump_stoppedCores (s : State) : s.bump.stoppedCores = s.stoppedCores := rfl
@[simp] theorem State.bump_vacating (s : State) : s.bump.vacating = s.vacating := rfl
@[simp] theorem State.bump_vacateAt (s : State) : s.bump.vacateAt = s.vacateAt := rfl
@[simp] theorem State.bump_dbg (s : State) : s.bump.dbg = s.dbg := rfl
@[simp] theorem State.bump_report (s : State) : s.bump.report = s.report := rfl
@[simp] theorem State.bump_health (s : State) : s.bump.health = s.health := rfl
@[simp] theorem State.bump_eccLog (s : State) : s.bump.eccLog = s.eccLog := rfl
@[simp] theorem State.bump_healthWord (s : State) : s.bump.healthWord = s.healthWord := rfl
@[simp] theorem State.bump_bootStage (s : State) : s.bump.bootStage = s.bootStage := rfl
@[simp] theorem State.bump_bootError (s : State) : s.bump.bootError = s.bootError := rfl
@[simp] theorem State.bump_held (s : State) : s.bump.held = s.held := rfl
@[simp] theorem State.bump_flash (s : State) : s.bump.flash = s.flash := rfl
@[simp] theorem State.bump_config (s : State) : s.bump.config = s.config := rfl
@[simp] theorem State.bump_netOut (s : State) : s.bump.netOut = s.netOut := rfl

/-! ## Readers after a put -/

theorem State.setLane_lane (s : State) (k : Nat) (x : Lane) (j : Nat) : (s.setLane k x).lane j = if j = k then x else s.lane j := by simp [State.lane, AList.getD_put]
@[simp] theorem State.setLane_lane_self (s : State) (k : Nat) (x : Lane) : (s.setLane k x).lane k = x := by simp [State.lane]
theorem State.setLane_lane_ne (s : State) (k : Nat) (x : Lane) (j : Nat) (h : j ≠ k) : (s.setLane k x).lane j = s.lane j := by simp [State.lane, AList.getD_put_ne _ _ _ _ _ h]
@[simp] theorem State.setLane_group (s : State) (k : Nat) (x : Lane) (j : Nat) : (s.setLane k x).group j = s.group j := rfl
@[simp] theorem State.setLane_team (s : State) (k : Nat) (x : Lane) (j : Nat) : (s.setLane k x).team j = s.team j := rfl
@[simp] theorem State.setLane_grid (s : State) (k : Nat) (x : Lane) (j : Nat) : (s.setLane k x).grid j = s.grid j := rfl
@[simp] theorem State.setLane_core (s : State) (k : Nat) (x : Lane) (j : Nat) : (s.setLane k x).core j = s.core j := rfl
@[simp] theorem State.setLane_feed (s : State) (k : Nat) (x : Lane) (j : Nat) : (s.setLane k x).feed j = s.feed j := rfl
@[simp] theorem State.setLane_link (s : State) (k : Nat) (x : Lane) (j : Nat) : (s.setLane k x).link j = s.link j := rfl
@[simp] theorem State.setLane_dieHealth (s : State) (k : Nat) (x : Lane) (j : Nat) : (s.setLane k x).dieHealth j = s.dieHealth j := rfl
@[simp] theorem State.setGroup_lane (s : State) (k : Nat) (x : Group) (j : Nat) : (s.setGroup k x).lane j = s.lane j := rfl
theorem State.setGroup_group (s : State) (k : Nat) (x : Group) (j : Nat) : (s.setGroup k x).group j = if j = k then x else s.group j := by simp [State.group, AList.getD_put]
@[simp] theorem State.setGroup_group_self (s : State) (k : Nat) (x : Group) : (s.setGroup k x).group k = x := by simp [State.group]
theorem State.setGroup_group_ne (s : State) (k : Nat) (x : Group) (j : Nat) (h : j ≠ k) : (s.setGroup k x).group j = s.group j := by simp [State.group, AList.getD_put_ne _ _ _ _ _ h]
@[simp] theorem State.setGroup_team (s : State) (k : Nat) (x : Group) (j : Nat) : (s.setGroup k x).team j = s.team j := rfl
@[simp] theorem State.setGroup_grid (s : State) (k : Nat) (x : Group) (j : Nat) : (s.setGroup k x).grid j = s.grid j := rfl
@[simp] theorem State.setGroup_core (s : State) (k : Nat) (x : Group) (j : Nat) : (s.setGroup k x).core j = s.core j := rfl
@[simp] theorem State.setGroup_feed (s : State) (k : Nat) (x : Group) (j : Nat) : (s.setGroup k x).feed j = s.feed j := rfl
@[simp] theorem State.setGroup_link (s : State) (k : Nat) (x : Group) (j : Nat) : (s.setGroup k x).link j = s.link j := rfl
@[simp] theorem State.setGroup_dieHealth (s : State) (k : Nat) (x : Group) (j : Nat) : (s.setGroup k x).dieHealth j = s.dieHealth j := rfl
@[simp] theorem State.setTeam_lane (s : State) (k : Nat) (x : Team) (j : Nat) : (s.setTeam k x).lane j = s.lane j := rfl
@[simp] theorem State.setTeam_group (s : State) (k : Nat) (x : Team) (j : Nat) : (s.setTeam k x).group j = s.group j := rfl
theorem State.setTeam_team (s : State) (k : Nat) (x : Team) (j : Nat) : (s.setTeam k x).team j = if j = k then x else s.team j := by simp [State.team, AList.getD_put]
@[simp] theorem State.setTeam_team_self (s : State) (k : Nat) (x : Team) : (s.setTeam k x).team k = x := by simp [State.team]
theorem State.setTeam_team_ne (s : State) (k : Nat) (x : Team) (j : Nat) (h : j ≠ k) : (s.setTeam k x).team j = s.team j := by simp [State.team, AList.getD_put_ne _ _ _ _ _ h]
@[simp] theorem State.setTeam_grid (s : State) (k : Nat) (x : Team) (j : Nat) : (s.setTeam k x).grid j = s.grid j := rfl
@[simp] theorem State.setTeam_core (s : State) (k : Nat) (x : Team) (j : Nat) : (s.setTeam k x).core j = s.core j := rfl
@[simp] theorem State.setTeam_feed (s : State) (k : Nat) (x : Team) (j : Nat) : (s.setTeam k x).feed j = s.feed j := rfl
@[simp] theorem State.setTeam_link (s : State) (k : Nat) (x : Team) (j : Nat) : (s.setTeam k x).link j = s.link j := rfl
@[simp] theorem State.setTeam_dieHealth (s : State) (k : Nat) (x : Team) (j : Nat) : (s.setTeam k x).dieHealth j = s.dieHealth j := rfl
@[simp] theorem State.setGrid_lane (s : State) (k : Nat) (x : Grid) (j : Nat) : (s.setGrid k x).lane j = s.lane j := rfl
@[simp] theorem State.setGrid_group (s : State) (k : Nat) (x : Grid) (j : Nat) : (s.setGrid k x).group j = s.group j := rfl
@[simp] theorem State.setGrid_team (s : State) (k : Nat) (x : Grid) (j : Nat) : (s.setGrid k x).team j = s.team j := rfl
theorem State.setGrid_grid (s : State) (k : Nat) (x : Grid) (j : Nat) : (s.setGrid k x).grid j = if j = k then x else s.grid j := by simp [State.grid, AList.getD_put]
@[simp] theorem State.setGrid_grid_self (s : State) (k : Nat) (x : Grid) : (s.setGrid k x).grid k = x := by simp [State.grid]
theorem State.setGrid_grid_ne (s : State) (k : Nat) (x : Grid) (j : Nat) (h : j ≠ k) : (s.setGrid k x).grid j = s.grid j := by simp [State.grid, AList.getD_put_ne _ _ _ _ _ h]
@[simp] theorem State.setGrid_core (s : State) (k : Nat) (x : Grid) (j : Nat) : (s.setGrid k x).core j = s.core j := rfl
@[simp] theorem State.setGrid_feed (s : State) (k : Nat) (x : Grid) (j : Nat) : (s.setGrid k x).feed j = s.feed j := rfl
@[simp] theorem State.setGrid_link (s : State) (k : Nat) (x : Grid) (j : Nat) : (s.setGrid k x).link j = s.link j := rfl
@[simp] theorem State.setGrid_dieHealth (s : State) (k : Nat) (x : Grid) (j : Nat) : (s.setGrid k x).dieHealth j = s.dieHealth j := rfl
@[simp] theorem State.setCore_lane (s : State) (k : Nat) (x : Core) (j : Nat) : (s.setCore k x).lane j = s.lane j := rfl
@[simp] theorem State.setCore_group (s : State) (k : Nat) (x : Core) (j : Nat) : (s.setCore k x).group j = s.group j := rfl
@[simp] theorem State.setCore_team (s : State) (k : Nat) (x : Core) (j : Nat) : (s.setCore k x).team j = s.team j := rfl
@[simp] theorem State.setCore_grid (s : State) (k : Nat) (x : Core) (j : Nat) : (s.setCore k x).grid j = s.grid j := rfl
theorem State.setCore_core (s : State) (k : Nat) (x : Core) (j : Nat) : (s.setCore k x).core j = if j = k then x else s.core j := by simp [State.core, AList.getD_put]
@[simp] theorem State.setCore_core_self (s : State) (k : Nat) (x : Core) : (s.setCore k x).core k = x := by simp [State.core]
theorem State.setCore_core_ne (s : State) (k : Nat) (x : Core) (j : Nat) (h : j ≠ k) : (s.setCore k x).core j = s.core j := by simp [State.core, AList.getD_put_ne _ _ _ _ _ h]
@[simp] theorem State.setCore_feed (s : State) (k : Nat) (x : Core) (j : Nat) : (s.setCore k x).feed j = s.feed j := rfl
@[simp] theorem State.setCore_link (s : State) (k : Nat) (x : Core) (j : Nat) : (s.setCore k x).link j = s.link j := rfl
@[simp] theorem State.setCore_dieHealth (s : State) (k : Nat) (x : Core) (j : Nat) : (s.setCore k x).dieHealth j = s.dieHealth j := rfl
@[simp] theorem State.setFeed_lane (s : State) (k : Nat) (x : Feed) (j : Nat) : (s.setFeed k x).lane j = s.lane j := rfl
@[simp] theorem State.setFeed_group (s : State) (k : Nat) (x : Feed) (j : Nat) : (s.setFeed k x).group j = s.group j := rfl
@[simp] theorem State.setFeed_team (s : State) (k : Nat) (x : Feed) (j : Nat) : (s.setFeed k x).team j = s.team j := rfl
@[simp] theorem State.setFeed_grid (s : State) (k : Nat) (x : Feed) (j : Nat) : (s.setFeed k x).grid j = s.grid j := rfl
@[simp] theorem State.setFeed_core (s : State) (k : Nat) (x : Feed) (j : Nat) : (s.setFeed k x).core j = s.core j := rfl
theorem State.setFeed_feed (s : State) (k : Nat) (x : Feed) (j : Nat) : (s.setFeed k x).feed j = if j = k then x else s.feed j := by simp [State.feed, AList.getD_put]
@[simp] theorem State.setFeed_feed_self (s : State) (k : Nat) (x : Feed) : (s.setFeed k x).feed k = x := by simp [State.feed]
theorem State.setFeed_feed_ne (s : State) (k : Nat) (x : Feed) (j : Nat) (h : j ≠ k) : (s.setFeed k x).feed j = s.feed j := by simp [State.feed, AList.getD_put_ne _ _ _ _ _ h]
@[simp] theorem State.setFeed_link (s : State) (k : Nat) (x : Feed) (j : Nat) : (s.setFeed k x).link j = s.link j := rfl
@[simp] theorem State.setFeed_dieHealth (s : State) (k : Nat) (x : Feed) (j : Nat) : (s.setFeed k x).dieHealth j = s.dieHealth j := rfl
@[simp] theorem State.setLink_lane (s : State) (k : Nat) (x : Link) (j : Nat) : (s.setLink k x).lane j = s.lane j := rfl
@[simp] theorem State.setLink_group (s : State) (k : Nat) (x : Link) (j : Nat) : (s.setLink k x).group j = s.group j := rfl
@[simp] theorem State.setLink_team (s : State) (k : Nat) (x : Link) (j : Nat) : (s.setLink k x).team j = s.team j := rfl
@[simp] theorem State.setLink_grid (s : State) (k : Nat) (x : Link) (j : Nat) : (s.setLink k x).grid j = s.grid j := rfl
@[simp] theorem State.setLink_core (s : State) (k : Nat) (x : Link) (j : Nat) : (s.setLink k x).core j = s.core j := rfl
@[simp] theorem State.setLink_feed (s : State) (k : Nat) (x : Link) (j : Nat) : (s.setLink k x).feed j = s.feed j := rfl
theorem State.setLink_link (s : State) (k : Nat) (x : Link) (j : Nat) : (s.setLink k x).link j = if j = k then x else s.link j := by simp [State.link, AList.getD_put]
@[simp] theorem State.setLink_link_self (s : State) (k : Nat) (x : Link) : (s.setLink k x).link k = x := by simp [State.link]
theorem State.setLink_link_ne (s : State) (k : Nat) (x : Link) (j : Nat) (h : j ≠ k) : (s.setLink k x).link j = s.link j := by simp [State.link, AList.getD_put_ne _ _ _ _ _ h]
@[simp] theorem State.setLink_dieHealth (s : State) (k : Nat) (x : Link) (j : Nat) : (s.setLink k x).dieHealth j = s.dieHealth j := rfl
@[simp] theorem State.setHealth_lane (s : State) (k : Nat) (x : Health) (j : Nat) : (s.setHealth k x).lane j = s.lane j := rfl
@[simp] theorem State.setHealth_group (s : State) (k : Nat) (x : Health) (j : Nat) : (s.setHealth k x).group j = s.group j := rfl
@[simp] theorem State.setHealth_team (s : State) (k : Nat) (x : Health) (j : Nat) : (s.setHealth k x).team j = s.team j := rfl
@[simp] theorem State.setHealth_grid (s : State) (k : Nat) (x : Health) (j : Nat) : (s.setHealth k x).grid j = s.grid j := rfl
@[simp] theorem State.setHealth_core (s : State) (k : Nat) (x : Health) (j : Nat) : (s.setHealth k x).core j = s.core j := rfl
@[simp] theorem State.setHealth_feed (s : State) (k : Nat) (x : Health) (j : Nat) : (s.setHealth k x).feed j = s.feed j := rfl
@[simp] theorem State.setHealth_link (s : State) (k : Nat) (x : Health) (j : Nat) : (s.setHealth k x).link j = s.link j := rfl
theorem State.setHealth_dieHealth (s : State) (k : Nat) (x : Health) (j : Nat) : (s.setHealth k x).dieHealth j = if j = k then x else s.dieHealth j := by simp [State.dieHealth, AList.getD_put]
@[simp] theorem State.setHealth_dieHealth_self (s : State) (k : Nat) (x : Health) : (s.setHealth k x).dieHealth k = x := by simp [State.dieHealth]
theorem State.setHealth_dieHealth_ne (s : State) (k : Nat) (x : Health) (j : Nat) (h : j ≠ k) : (s.setHealth k x).dieHealth j = s.dieHealth j := by simp [State.dieHealth, AList.getD_put_ne _ _ _ _ _ h]
@[simp] theorem State.setCmd_lane (s : State) (k : Nat) (x : Command) (j : Nat) : (s.setCmd k x).lane j = s.lane j := rfl
@[simp] theorem State.setCmd_group (s : State) (k : Nat) (x : Command) (j : Nat) : (s.setCmd k x).group j = s.group j := rfl
@[simp] theorem State.setCmd_team (s : State) (k : Nat) (x : Command) (j : Nat) : (s.setCmd k x).team j = s.team j := rfl
@[simp] theorem State.setCmd_grid (s : State) (k : Nat) (x : Command) (j : Nat) : (s.setCmd k x).grid j = s.grid j := rfl
@[simp] theorem State.setCmd_core (s : State) (k : Nat) (x : Command) (j : Nat) : (s.setCmd k x).core j = s.core j := rfl
@[simp] theorem State.setCmd_feed (s : State) (k : Nat) (x : Command) (j : Nat) : (s.setCmd k x).feed j = s.feed j := rfl
@[simp] theorem State.setCmd_link (s : State) (k : Nat) (x : Command) (j : Nat) : (s.setCmd k x).link j = s.link j := rfl
@[simp] theorem State.setCmd_dieHealth (s : State) (k : Nat) (x : Command) (j : Nat) : (s.setCmd k x).dieHealth j = s.dieHealth j := rfl
@[simp] theorem State.setMem_lane (s : State) (m : Memory) (j : Nat) : (s.setMem m).lane j = s.lane j := rfl
@[simp] theorem State.setMem_group (s : State) (m : Memory) (j : Nat) : (s.setMem m).group j = s.group j := rfl
@[simp] theorem State.setMem_team (s : State) (m : Memory) (j : Nat) : (s.setMem m).team j = s.team j := rfl
@[simp] theorem State.setMem_grid (s : State) (m : Memory) (j : Nat) : (s.setMem m).grid j = s.grid j := rfl
@[simp] theorem State.setMem_core (s : State) (m : Memory) (j : Nat) : (s.setMem m).core j = s.core j := rfl
@[simp] theorem State.setMem_feed (s : State) (m : Memory) (j : Nat) : (s.setMem m).feed j = s.feed j := rfl
@[simp] theorem State.setMem_link (s : State) (m : Memory) (j : Nat) : (s.setMem m).link j = s.link j := rfl
@[simp] theorem State.setMem_dieHealth (s : State) (m : Memory) (j : Nat) : (s.setMem m).dieHealth j = s.dieHealth j := rfl
@[simp] theorem State.setTurn_lane (s : State) (u : Turn) (j : Nat) : (s.setTurn u).lane j = s.lane j := rfl
@[simp] theorem State.setTurn_group (s : State) (u : Turn) (j : Nat) : (s.setTurn u).group j = s.group j := rfl
@[simp] theorem State.setTurn_team (s : State) (u : Turn) (j : Nat) : (s.setTurn u).team j = s.team j := rfl
@[simp] theorem State.setTurn_grid (s : State) (u : Turn) (j : Nat) : (s.setTurn u).grid j = s.grid j := rfl
@[simp] theorem State.setTurn_core (s : State) (u : Turn) (j : Nat) : (s.setTurn u).core j = s.core j := rfl
@[simp] theorem State.setTurn_feed (s : State) (u : Turn) (j : Nat) : (s.setTurn u).feed j = s.feed j := rfl
@[simp] theorem State.setTurn_link (s : State) (u : Turn) (j : Nat) : (s.setTurn u).link j = s.link j := rfl
@[simp] theorem State.setTurn_dieHealth (s : State) (u : Turn) (j : Nat) : (s.setTurn u).dieHealth j = s.dieHealth j := rfl
@[simp] theorem State.bump_lane (s : State) (j : Nat) : s.bump.lane j = s.lane j := rfl
@[simp] theorem State.bump_group (s : State) (j : Nat) : s.bump.group j = s.group j := rfl
@[simp] theorem State.bump_team (s : State) (j : Nat) : s.bump.team j = s.team j := rfl
@[simp] theorem State.bump_grid (s : State) (j : Nat) : s.bump.grid j = s.grid j := rfl
@[simp] theorem State.bump_core (s : State) (j : Nat) : s.bump.core j = s.core j := rfl
@[simp] theorem State.bump_feed (s : State) (j : Nat) : s.bump.feed j = s.feed j := rfl
@[simp] theorem State.bump_link (s : State) (j : Nat) : s.bump.link j = s.link j := rfl
@[simp] theorem State.bump_dieHealth (s : State) (j : Nat) : s.bump.dieHealth j = s.dieHealth j := rfl

@[simp] theorem State.setLane_setLane (s : State) (k : Nat) (x y : Lane) : (s.setLane k x).setLane k y = s.setLane k y := by
  simp [State.setLane]
@[simp] theorem State.setGroup_setGroup (s : State) (k : Nat) (x y : Group) : (s.setGroup k x).setGroup k y = s.setGroup k y := by
  simp [State.setGroup]
@[simp] theorem State.setTeam_setTeam (s : State) (k : Nat) (x y : Team) : (s.setTeam k x).setTeam k y = s.setTeam k y := by
  simp [State.setTeam]
@[simp] theorem State.setTurn_setTurn (s : State) (x y : Turn) : (s.setTurn x).setTurn y = s.setTurn y := rfl

end Sys2Proof.Machine
end

