-- ==== Sys2Proof/Laws/Words.lean ====
section
/-! SUPPORT. What the execution of a lane word comes to, said once: the meaning of a checked word, the state in which its point acts, its operands, and
the registers and predicates that it writes. -/

namespace Sys2Proof.Machine

/-! ## The word of a lane -/

/-- A word of a step whose checks are made answers a next state: the lane's step. -/
theorem laneWord_checked {v : View} {p : Point} {s : State} {st : IssueStep} {x : StepLane} {rest : List StepLane} (h : AtWord s st x rest) :
    laneWord v p s = .next (laneStep v p st x rest s) := by
  obtain ⟨h1, h2, h3⟩ := h
  simp only [laneWord, h1, h2, h3, if_true]

/-- The context in which the point of a word acts. -/
def stepCtx (st : IssueStep) (x : StepLane) (s : State) : Ctx := { ctxOf st x with clause := (s.lane (stepLane st x)).clause }

@[simp] theorem stepCtx_lk (st : IssueStep) (x : StepLane) (s : State) : (stepCtx st x s).lk = stepLane st x := rfl
@[simp] theorem stepCtx_gk (st : IssueStep) (x : StepLane) (s : State) : (stepCtx st x s).gk = st.group := rfl
@[simp] theorem stepCtx_pos (st : IssueStep) (x : StepLane) (s : State) : (stepCtx st x s).pos = x.pos := rfl
@[simp] theorem stepCtx_at (st : IssueStep) (x : StepLane) (s : State) : (stepCtx st x s).at_ = x.pc := rfl
@[simp] theorem stepCtx_st (st : IssueStep) (x : StepLane) (s : State) : (stepCtx st x s).st = st := rfl

/-- A word whose guard is false in the lane, and whose point does not act regardless, only moves the lane on. -/
theorem laneStep_off {v : View} {p : Point} {st : IssueStep} {x : StepLane} {rest : List StepLane} {s : State}
    (ha : p.always = false) (hg : guardOn (s.lane (stepLane st x)) v = false) : laneStep v p st x rest s = movedOn st x rest s := by
  show (if (p.hold && (guardOn (s.lane (stepLane st x)) v || p.always)) = true then _
    else if (guardOn (s.lane (stepLane st x)) v || p.always) = true then _ else movedOn st x rest s) = _
  simp [hg, ha]

/-- A word whose guard is true acts in the state in which its lane has moved on, unless its point may hold the lane. -/
theorem laneStep_on {v : View} {p : Point} {st : IssueStep} {x : StepLane} {rest : List StepLane} {s : State}
    (hh : p.hold = false) (hg : guardOn (s.lane (stepLane st x)) v = true) :
    laneStep v p st x rest s = p.eff (stepCtx st x s) (movedOn st x rest s) := by
  show (if (p.hold && (guardOn (s.lane (stepLane st x)) v || p.always)) = true then _
    else if (guardOn (s.lane (stepLane st x)) v || p.always) = true then p.eff (stepCtx st x s) (movedOn st x rest s) else _) = _
  simp [hg, hh]

/-! ## The state in which a point acts -/

@[simp] theorem movedOn_turn (st : IssueStep) (x : StepLane) (rest : List StepLane) (s : State) :
    (movedOn st x rest s).turn = .issue { st with todo := rest } := rfl
@[simp] theorem movedOn_mem (st : IssueStep) (x : StepLane) (rest : List StepLane) (s : State) : (movedOn st x rest s).mem = s.mem := rfl
@[simp] theorem movedOn_teams (st : IssueStep) (x : StepLane) (rest : List StepLane) (s : State) : (movedOn st x rest s).teams = s.teams := rfl
@[simp] theorem movedOn_groups (st : IssueStep) (x : StepLane) (rest : List StepLane) (s : State) : (movedOn st x rest s).groups = s.groups := rfl
@[simp] theorem movedOn_cores (st : IssueStep) (x : StepLane) (rest : List StepLane) (s : State) : (movedOn st x rest s).cores = s.cores := rfl
@[simp] theorem movedOn_serial (st : IssueStep) (x : StepLane) (rest : List StepLane) (s : State) : (movedOn st x rest s).serial = s.serial := rfl

theorem movedOn_eq (st : IssueStep) (x : StepLane) (rest : List StepLane) (s : State) :
    movedOn st x rest s = { s with turn := .issue { st with todo := rest }, lanes := (movedOn st x rest s).lanes } := rfl

@[simp] theorem movedOn_lane_ne {st : IssueStep} {x : StepLane} {rest : List StepLane} {s : State} {k : Nat} (h : k ≠ stepLane st x) :
    (movedOn st x rest s).lane k = s.lane k := by
  simp [movedOn, State.retire, State.lane, State.setLane, State.setTurn, AList.getD_put_ne _ _ _ _ _ h]

/-- The lane as a word finds it: past the word, with no block. -/
theorem movedOn_lane (st : IssueStep) (x : StepLane) (rest : List StepLane) (s : State) :
    ∃ (k : BitVec 6) (c : Option Clause), (movedOn st x rest s).lane (stepLane st x) =
      { s.lane (stepLane st x) with block := .free, pc := BitVec.ofNat 32 (x.pc + 8), skid := k, clause := c } := by
  simp only [movedOn, State.retire, State.updLane_eq, State.lane, State.setLane, State.setTurn, AList.getD_put_self, Lane.advance]
  split
  · split
    · exact ⟨_, _, rfl⟩
    · exact ⟨_, _, rfl⟩
  · exact ⟨_, _, rfl⟩

theorem movedOn_values (st : IssueStep) (x : StepLane) (rest : List StepLane) (s : State) :
    ValuesKept (s.lane (stepLane st x)) ((movedOn st x rest s).lane (stepLane st x)) := by
  obtain ⟨k, c, h⟩ := movedOn_lane st x rest s
  rw [h]
  exact ⟨fun _ => rfl, rfl, rfl⟩

/-- A word that a false guard passes over. -/
theorem movedOn_passedOver (st : IssueStep) (x : StepLane) (rest : List StepLane) (s : State) : PassedOver st x rest s (movedOn st x rest s) := by
  refine ⟨⟨rfl, ⟨rfl, fun k h => movedOn_lane_ne h⟩, ?_⟩, movedOn_values st x rest s⟩
  obtain ⟨k, c, h⟩ := movedOn_lane st x rest s
  rw [h]
  exact ⟨⟨rfl, rfl, rfl, rfl, rfl, rfl, rfl, rfl⟩, rfl, rfl⟩

/-- A change of the values of its lane alone leaves a word passed. -/
theorem passed_of_setLane {st : IssueStep} {x : StepLane} {rest : List StepLane} {s : State} {l : Lane}
    (h : ∃ v p f, l = { (movedOn st x rest s).lane (stepLane st x) with v := v, p := p, fpflags := f }) :
    Passed st x rest s ((movedOn st x rest s).setLane (stepLane st x) l) := by
  obtain ⟨v, p, f, rfl⟩ := h
  have hl (y : Lane) : State.lane ((movedOn st x rest s).setLane (stepLane st x) y) (stepLane st x) = y := by simp [State.lane]
  refine ⟨rfl, ⟨rfl, fun k hk => ?_⟩, ?_⟩
  · have : State.lane ((movedOn st x rest s).setLane (stepLane st x)
        { (movedOn st x rest s).lane (stepLane st x) with v := v, p := p, fpflags := f }) k = (movedOn st x rest s).lane k := by
      simp only [State.lane, State.setLane]
      rw [AList.getD_put_ne _ _ _ _ _ hk]
    rw [this, movedOn_lane_ne hk]
  · rw [hl]
    obtain ⟨k, c, h⟩ := movedOn_lane st x rest s
    rw [h]
    exact ⟨⟨rfl, rfl, rfl, rfl, rfl, rfl, rfl, rfl⟩, rfl, rfl⟩

/-! ## Registers and predicates written -/

@[simp] theorem Lane.setReg_reg_self (l : Lane) (n : Nat) (x : W32) : (l.setReg n x).reg n = x := by simp [Lane.setReg, Lane.reg]
theorem Lane.setReg_reg_ne (l : Lane) {n k : Nat} (x : W32) (h : k ≠ n) : (l.setReg n x).reg k = l.reg k := by
  simp [Lane.setReg, Lane.reg, AList.getD_put_ne _ _ _ _ _ h]
theorem Lane.setRegs_same (l : Lane) (n : Nat) (ws : List W32) : ∃ v, l.setRegs n ws = { l with v := v } := by
  induction ws generalizing l n with
  | nil => exact ⟨l.v, rfl⟩
  | cons w ws ih =>
    obtain ⟨v, h⟩ := ih (l.setReg n w) (n + 1)
    exact ⟨v, h⟩

/-- Registers written run by run: the ones outside the run stay. -/
theorem Lane.setRegs_out (l : Lane) (n : Nat) (ws : List W32) (k : Nat) (h : k < n ∨ n + ws.length ≤ k) : (l.setRegs n ws).reg k = l.reg k := by
  induction ws generalizing l n with
  | nil => rfl
  | cons w ws ih =>
    simp only [List.length_cons] at h
    rw [Lane.setRegs, ih _ _ (by omega), Lane.setReg_reg_ne _ _ (by omega)]

/-- And the ones in it hold their words. -/
theorem Lane.setRegs_in (l : Lane) (n : Nat) (ws : List W32) (j : Nat) (h : j < ws.length) : (l.setRegs n ws).reg (n + j) = ws[j] := by
  induction ws generalizing l n j with
  | nil => simp at h
  | cons w ws ih =>
    cases j with
    | zero =>
      rw [Lane.setRegs, Nat.add_zero, Lane.setRegs_out _ _ _ _ (by omega)]
      simp
    | succ j =>
      have := ih (l.setReg n w) (n + 1) j (by simpa using h)
      simpa [Lane.setRegs, Nat.add_assoc, Nat.add_comm 1 j] using this

/-- What the write of a destination operand makes of a lane. -/
theorem Lane.write_written (l : Lane) (o : Operand) (w y : Nat) : Written o w y l (l.write o w y) := by
  cases o with
  | v n =>
    refine ⟨fun k hk => ?_, fun k hk => ?_⟩
    · have := l.setRegs_in n.val (regsOf w y) k (by simpa [regsOf] using hk)
      simpa [Lane.write, regsOf] using this
    · exact l.setRegs_out n.val (regsOf w y) k (by simpa [regsOf] using hk)
  | q n => intro k; rfl
  | z => intro k; rfl

theorem Lane.write_same (l : Lane) (o : Operand) (w y : Nat) : ∃ v, l.write o w y = { l with v := v } := by
  cases o with
  | v n => exact l.setRegs_same _ _
  | q n => exact ⟨l.v, rfl⟩
  | z => exact ⟨l.v, rfl⟩

/-- What the write of a predicate makes of a lane. -/
theorem Lane.setPred_written (l : Lane) (n : Nat) (b : Bool) : PredWritten n b l (l.setPred n b) := by
  refine ⟨fun h => ?_, fun k hk => ?_⟩
  · cases b <;> simp [Lane.setPred, h]
  · simp only [Lane.setPred]
    split
    · cases b <;> simp only [if_true, if_false, Bool.false_eq_true, BitVec.getLsbD_or, BitVec.getLsbD_and, BitVec.getLsbD_not, BitVec.getLsbD_shiftLeft]
      · by_cases hk7 : k < 7
        · have : (1#7).getLsbD (k - n) = false ∨ k < n := by
            by_cases k < n
            · exact .inr ‹_›
            · left
              have : k - n ≠ 0 := by omega
              simp [BitVec.getLsbD_one, this]
          rcases this with h | h <;> simp [h, hk7]
        · have := l.p.getLsbD_of_ge k (by omega)
          simp [this]
      · by_cases hk' : k < n
        · simp [hk']
        · have : k - n ≠ 0 := by omega
          simp [BitVec.getLsbD_one, this]
    · rfl
theorem Lane.setPred_same (l : Lane) (n : Nat) (b : Bool) : ∃ p, l.setPred n b = { l with p := p } := by
  simp only [Lane.setPred]
  split
  · exact ⟨_, rfl⟩
  · exact ⟨l.p, rfl⟩

/-! ## Operands -/

/-- Whether an operand is a chute. -/
def isChute (o : Operand) : Bool := match o with | .q _ => true | _ => false

theorem State.readOp_plain (s : State) (lk : Nat) {o : Operand} (w : Nat) (h : isChute o = false) :
    s.readOp lk o w = (operandVal (s.lane lk) o w, s) := by
  cases o with
  | q n => simp [isChute] at h
  | v n => rfl
  | z => rfl

theorem State.writeOp_plain (s : State) (lk : Nat) {o : Operand} (w y : Nat) (h : isChute o = false) :
    (∃ v, s.writeOp lk o w y = s.setLane lk { s.lane lk with v := v }
      ∧ Written o w y (s.lane lk) { s.lane lk with v := v }) ∨ (s.writeOp lk o w y = s ∧ o = .z) := by
  cases o with
  | q n => simp [isChute] at h
  | v n =>
    obtain ⟨v, hv⟩ := (s.lane lk).write_same (.v n) w y
    refine .inl ⟨v, ?_, ?_⟩
    · rw [← hv]
      rfl
    · rw [← hv]
      exact Lane.write_written _ _ _ _
  | z => exact .inr ⟨rfl, rfl⟩

theorem readSlot_plain (s : State) (lk : Nat) (r : Slot) {o : Operand} (h : isChute o = false) :
    readSlot r lk o s = (slotVal (s.lane lk) r o, s) := by
  cases r with
  | reg w d c z => exact s.readOp_plain lk w h
  | _ => rfl

theorem readRRR_plain (s : State) (lk : Nat) (row : RRRRow) (f : RRR) (ha : isChute f.a = false) (hb : isChute f.b = false)
    (hc : isChute f.c = false) :
    readRRR row f lk s = ((slotVal (s.lane lk) row.a f.a, slotVal (s.lane lk) row.b f.b, slotVal (s.lane lk) row.c f.c), s) := by
  simp only [readRRR, readSlot_plain s lk row.a ha, readSlot_plain s lk row.b hb, readSlot_plain s lk row.c hc]

end Sys2Proof.Machine
end

