-- ==== Sys2Proof/Laws/Frames.lean ====
section
/-! SUPPORT. Operations that leave the values, the places and the liveness of every lane and every byte below host memory alone: halts, triggers, stops,
trace records, watchpoints, traps, pops. -/

namespace Sys2Proof.Machine

/-- From `s` to `t` every lane keeps all but its block, its skid count and the clause it has entered, and every byte below host memory reads as before. -/
structure Calm (s t : State) : Prop where
  lanes : ∀ k, ∃ b n c x, t.lane k = { s.lane k with block := b, skid := n, clause := c, badClause := x }
  wf : s.mem.wf = true → t.mem.wf = true
  mem : s.mem.wf = true → ∀ a, a < 2 ^ 64 → t.mem.read a = s.mem.read a

theorem Calm.refl (s : State) : Calm s s := ⟨fun k => ⟨(s.lane k).block, (s.lane k).skid, (s.lane k).clause, (s.lane k).badClause, rfl⟩, id, fun _ _ _ => rfl⟩

theorem Calm.trans {s t u : State} (h : Calm s t) (k : Calm t u) : Calm s u := by
  refine ⟨fun j => ?_, fun w => k.wf (h.wf w), fun w a ha => (k.mem (h.wf w) a ha).trans (h.mem w a ha)⟩
  obtain ⟨b, n, c, x, e⟩ := h.lanes j
  obtain ⟨b', n', c', x', e'⟩ := k.lanes j
  exact ⟨b', n', c', x', by rw [e', e]⟩

/-- A change of neither the lanes nor the memory. -/
theorem Calm.of_eq {s t : State} (hl : t.lanes = s.lanes) (hm : t.mem = s.mem) : Calm s t := by
  refine ⟨fun k => ⟨(s.lane k).block, (s.lane k).skid, (s.lane k).clause, (s.lane k).badClause, ?_⟩, fun w => hm ▸ w, fun _ a _ => by rw [hm]⟩
  simp [State.lane, hl]

theorem Calm.setGroup (s : State) (k : Nat) (x : Group) : Calm s (s.setGroup k x) := .of_eq rfl rfl
theorem Calm.setTeam (s : State) (k : Nat) (x : Team) : Calm s (s.setTeam k x) := .of_eq rfl rfl
theorem Calm.setCore (s : State) (k : Nat) (x : Core) : Calm s (s.setCore k x) := .of_eq rfl rfl
theorem Calm.setGrid (s : State) (k : Nat) (x : Grid) : Calm s (s.setGrid k x) := .of_eq rfl rfl
theorem Calm.setTurn (s : State) (u : Turn) : Calm s (s.setTurn u) := .of_eq rfl rfl
theorem Calm.withDbg (s : State) (d : Debug) : Calm s { s with dbg := d } := .of_eq rfl rfl
theorem Calm.bump (s : State) : Calm s s.bump := .of_eq rfl rfl
theorem Calm.updCmd (s : State) (k : Nat) (f : Command → Command) : Calm s (s.updCmd k f) := by
  unfold State.updCmd
  split
  · exact .of_eq rfl rfl
  · exact .refl s

/-- A lane that keeps all but its block, its skid count and the clause it has entered. -/
theorem Calm.setLane (s : State) (k : Nat) (b : Block) (n : BitVec 6) (c : Option Clause) (x : Bool) :
    Calm s (s.setLane k { s.lane k with block := b, skid := n, clause := c, badClause := x }) := by
  refine ⟨fun j => ?_, id, fun _ _ _ => rfl⟩
  by_cases h : j = k
  · subst h
    exact ⟨b, n, c, x, by simp [State.lane, State.setLane]⟩
  · exact ⟨(s.lane j).block, (s.lane j).skid, (s.lane j).clause, (s.lane j).badClause, by simp [State.lane, State.setLane, AList.getD_put_ne _ _ _ _ _ h]⟩

theorem Calm.foldl {α : Type} (f : State → α → State) (h : ∀ s x, Calm s (f s x)) (xs : List α) (s : State) : Calm s (xs.foldl f s) := by
  induction xs generalizing s with
  | nil => exact .refl s
  | cons x xs ih => exact (h s x).trans (ih _)

/-- The lanes of a group, each keeping all but its block, its skid count and the clause it has entered. -/
theorem Calm.updLanes (s : State) (gk : Nat) (f : Nat → Lane → Lane)
    (h : ∀ p l, ∃ b n c x, f p l = { l with block := b, skid := n, clause := c, badClause := x }) :
    Calm s (s.updLanes gk f) := by
  refine Calm.foldl _ (fun s p => ?_) _ s
  obtain ⟨b, n, c, x, e⟩ := h p (s.lane (laneKey gk p))
  rw [State.updLane_eq, e]
  exact .setLane _ _ _ _ _ _

theorem Lane.freeze_calm (now : Nat) (l : Lane) :
    ∃ b n c x, l.freeze now = { l with block := b, skid := n, clause := c, badClause := x } := by
  unfold Lane.freeze
  split
  · exact ⟨_, l.skid, l.clause, l.badClause, rfl⟩
  · exact ⟨l.block, l.skid, l.clause, l.badClause, rfl⟩

theorem Lane.released_calm (now : Nat) (froze : Bool) (l : Lane) :
    ∃ b n c x, l.released now froze = { l with block := b, skid := n, clause := c, badClause := x } := by
  unfold Lane.released Lane.reenter
  split
  · exact ⟨l.block, l.skid, l.clause, l.badClause, rfl⟩
  · split <;> split
    · exact ⟨_, l.skid, l.clause, l.badClause, rfl⟩
    · exact ⟨_, l.skid, none, false, rfl⟩
    · exact ⟨l.block, l.skid, l.clause, l.badClause, rfl⟩
    · exact ⟨l.block, l.skid, none, false, rfl⟩

theorem haltGroup_calm (s : State) (gk : Nat) : Calm s (s.haltGroup gk) := by
  unfold State.haltGroup
  dsimp only
  split
  · exact .refl s
  · exact ((Calm.setGroup _ _ _).trans (Calm.updLanes _ _ _ (fun _ l => l.freeze_calm _))).trans (Calm.setCore _ _ _)

theorem triggerTeam_calm (s : State) (t core : Nat) : Calm s (s.triggerTeam t core) := by
  unfold State.triggerTeam
  split
  · exact .refl s
  · refine (Calm.setTeam s t _).trans (Calm.foldl _ (fun s gk => ?_) _ _)
    split
    · exact .refl s
    · exact Calm.updLanes _ _ _ (fun _ l => ⟨l.block, 0, l.clause, l.badClause, rfl⟩)

theorem resumeTeam_calm (s : State) (t : Nat) : Calm s (s.resumeTeam t) := by
  unfold State.resumeTeam
  refine (Calm.setTeam s t _).trans (Calm.foldl _ (fun s gk => ?_) _ _)
  have h := (Calm.setGroup s gk { s.group gk with halted := false }).trans
    (Calm.updLanes _ gk (fun _ => Lane.released s.cycle (s.group gk).halted) (fun _ l => l.released_calm _ _))
  dsimp only
  split
  · exact h.trans (Calm.setCore _ _ _)
  · exact h

theorem dropSlice_calm (s : State) (tk : Nat) : Calm s (s.dropSlice tk) := by
  unfold State.dropSlice
  dsimp only
  split
  · split
    · exact (Calm.setTeam s tk _).trans (resumeTeam_calm _ _)
    · exact Calm.setTeam s tk _
  · exact .refl s

theorem stopTeam_calm (s : State) (tk core : Nat) (h : StopHold) : Calm s (s.stopTeam tk core h) := by
  unfold State.stopTeam
  extract_lets g s1 s2
  have h1 : Calm s s1 := by
    show Calm s (if s.expiredNow tk then _ else s)
    split
    · exact Calm.foldl (fun s k => s.dropSlice k) (fun s k => dropSlice_calm s k) _ s
    · exact .refl s
  have h2 : Calm s s2 := h1.trans (Calm.setTeam s1 tk _)
  split
  · exact h2.trans (triggerTeam_calm _ _ _)
  · exact h2

theorem stopScope_calm (s : State) (scope target : Nat) (fw : Bool) : Calm s (s.stopScope scope target fw) := by
  unfold State.stopScope
  split
  · exact .of_eq rfl rfl
  · exact (Calm.foldl (fun s (p : Nat × Nat) => s.stopTeam p.1 p.2 ⟨scope, target⟩) (fun s p => stopTeam_calm s p.1 p.2 _) _ s).trans (.of_eq rfl rfl)

theorem stopOne_calm (s : State) (tk : Nat) (fw : Bool) : Calm s (s.stopOne tk fw) := (stopTeam_calm s tk _ _).trans (.of_eq rfl rfl)

/-- A write in host memory. -/
theorem Calm.hostWrite (s : State) (a : Nat) (bs : List Byte) : Calm s (s.setMem (s.mem.writeBytes (hostAddr a) bs)) :=
  ⟨fun k => ⟨(s.lane k).block, (s.lane k).skid, (s.lane k).clause, (s.lane k).badClause, rfl⟩, fun w => Memory.writeBytes_wf w _ _,
    fun w x hx => Memory.read_writeBytes_out w _ _ _ (.inl (by unfold hostAddr; omega))⟩

theorem placeRecord_calm (r : Ring) (rec : List Byte) (left : Nat) (k : W32) (s : State) : Calm s (s.placeRecord r rec left k) := by
  induction left generalizing s k with
  | zero => exact Calm.hostWrite s _ _
  | succ left ih =>
    unfold State.placeRecord
    dsimp only
    split
    · exact (Calm.hostWrite s _ _).trans (ih _ _)
    · exact Calm.hostWrite s _ _

theorem trace_calm (s : State) (gk kind src a b : Nat) : Calm s (s.trace gk kind src a b) := by
  unfold State.trace
  dsimp only
  split
  · split
    · exact Calm.withDbg _ _
    · exact (placeRecord_calm _ _ _ _ s).trans (Calm.withDbg _ _)
  · exact .refl s

theorem traceStops_calm (s : State) (reach : List (Nat × Nat)) (gk scope : Nat) (fw : Bool) (origin : Nat) :
    Calm s (s.traceStops reach gk scope fw origin) := Calm.foldl _ (fun s _ => trace_calm s _ _ _ _ _) _ _

theorem takeStop_calm (s : State) (gk core scope : Nat) (fw : Bool) (origin : Nat) : Calm s (s.takeStop gk core scope fw origin) := by
  unfold State.takeStop
  extract_lets target
  clear_value target
  split
  · exact .refl s
  · split
    · exact (stopOne_calm _ _ _).trans (traceStops_calm _ _ _ _ _ _)
    · exact (stopScope_calm _ _ _ _).trans (traceStops_calm _ _ _ _ _ _)

theorem keepRecord_calm (s : State) (gk : Nat) (r : TrapRecord) : Calm s (s.keepRecord gk r) := by
  unfold State.keepRecord
  split
  · exact Calm.setTeam _ _ _
  · exact .refl s

theorem markReported_calm (s : State) (gk detail : Nat) : Calm s (s.markReported gk detail) := by
  unfold State.markReported
  split
  · exact Calm.updCmd _ _ _
  · exact .refl s

theorem watchAct_calm (s : State) (gk core : Nat) (w : Watch) : Calm s (s.watchAct gk core w) := by
  unfold State.watchAct
  split
  · exact .refl s
  · exact takeStop_calm _ _ _ _ _ _

theorem keepHit_calm (s : State) (gk : Nat) (r : TrapRecord) : Calm s (s.keepHit gk r) := by
  unfold State.keepHit
  split
  · split
    · exact Calm.setTeam _ _ _
    · exact keepRecord_calm _ _ _
  · exact keepRecord_calm _ _ _

theorem watch_calm (s : State) (gk a n : Nat) (reads writes : Bool) (kind : Nat) (mask : BitVec 32) (pc : W32) (step : Nat) :
    Calm s (s.watch gk a n reads writes kind mask pc step) := by
  unfold State.watch
  dsimp only
  split
  · exact .refl s
  · split
    · exact .refl s
    · exact ((keepHit_calm _ _ _).trans (triggerTeam_calm _ _ _)).trans (watchAct_calm _ _ _ _)

theorem watchChute_calm (s : State) (lk a n : Nat) (pushes : Bool) (pc : W32) (step : Nat) : Calm s (s.watchChute lk a n pushes pc step) :=
  watch_calm _ _ _ _ _ _ _ _ _ _

/-- TAKING A TRAP changes no lane's values or place, and no byte. -/
theorem takeTrap_calm (s : State) (gk : Nat) (tr : Trap) (mask : BitVec 32) (pc : W32) (stream : Bool) : Calm s (takeTrap s gk tr mask pc stream) := by
  unfold takeTrap
  exact (((keepRecord_calm _ _ _).trans (triggerTeam_calm _ _ _)).trans (haltGroup_calm _ _)).trans (Calm.setTurn _ _)

/-- The chute of a team changed. -/
theorem updChute_calm (s : State) (tk q : Nat) (f : Chute → Chute) : Calm s (s.updChute tk q f) := .of_eq rfl rfl

/-! ## Pops -/

/-- One lane may get its predicate 6; every other lane, and every byte below host memory, is as in `Calm`. -/
structure CalmBut (lk : Nat) (s t : State) : Prop where
  others : ∀ k, k ≠ lk → ∃ b n c x, t.lane k = { s.lane k with block := b, skid := n, clause := c, badClause := x }
  self : ∃ b n c x p, t.lane lk = { s.lane lk with block := b, skid := n, clause := c, badClause := x, p := p }
    ∧ ∀ j, j ≠ 6 → p.getLsbD j = (s.lane lk).p.getLsbD j
  wf : s.mem.wf = true → t.mem.wf = true
  mem : s.mem.wf = true → ∀ a, a < 2 ^ 64 → t.mem.read a = s.mem.read a

theorem CalmBut.of_calm {lk : Nat} {s t : State} (h : Calm s t) : CalmBut lk s t := by
  refine ⟨fun k _ => h.lanes k, ?_, h.wf, h.mem⟩
  obtain ⟨b, n, c, x, e⟩ := h.lanes lk
  exact ⟨b, n, c, x, (s.lane lk).p, e, fun _ _ => rfl⟩

theorem CalmBut.trans {lk : Nat} {s t u : State} (h : CalmBut lk s t) (k : CalmBut lk t u) : CalmBut lk s u := by
  refine ⟨fun j hj => ?_, ?_, fun w => k.wf (h.wf w), fun w a ha => (k.mem (h.wf w) a ha).trans (h.mem w a ha)⟩
  · obtain ⟨b, n, c, x, e⟩ := h.others j hj
    obtain ⟨b', n', c', x', e'⟩ := k.others j hj
    exact ⟨b', n', c', x', by rw [e', e]⟩
  · obtain ⟨b, n, c, x, p, e, hp⟩ := h.self
    obtain ⟨b', n', c', x', p', e', hp'⟩ := k.self
    refine ⟨b', n', c', x', p', by rw [e', e], fun j hj => ?_⟩
    rw [hp' j hj, e]
    exact hp j hj

theorem CalmBut.setPred6 (s : State) (lk : Nat) (b : Bool) : CalmBut lk s (s.updLane lk (fun l => l.setPred 6 b)) := by
  have hw := Lane.setPred_written (s.lane lk) 6 b
  obtain ⟨p, hp⟩ := Lane.setPred_same (s.lane lk) 6 b
  refine ⟨fun k hk => ⟨(s.lane k).block, (s.lane k).skid, (s.lane k).clause, (s.lane k).badClause, ?_⟩,
    ⟨(s.lane lk).block, (s.lane lk).skid, (s.lane lk).clause, (s.lane lk).badClause, p, ?_, fun j hj => ?_⟩, id, fun _ _ _ => rfl⟩
  · simp [State.lane, State.setLane, AList.getD_put_ne _ _ _ _ _ hk]
  · rw [State.updLane_eq, hp]
    simp [State.lane, State.setLane]
  · have := hw.2 j hj
    rwa [hp] at this

theorem pop_calm (s : State) (lk q : Nat) : CalmBut lk s (s.pop lk q).2 := by
  have hc (a n : Nat) (f : Chute → Chute) : CalmBut lk s ((s.watchChute lk a n false (s.stepPc lk) s.stepSerial).updChute (teamOf (lk / 32)) q f) :=
    .of_calm ((watchChute_calm _ _ _ _ _ _ _).trans (updChute_calm _ _ _ _))
  unfold State.pop
  dsimp only
  split
  · exact .of_calm (.refl s)
  · split
    · split
      · dsimp only
        split
        · exact .setPred6 _ _ _
        · exact .of_calm (.refl s)
      · dsimp only
        split
        · exact (hc _ _ _).trans (.setPred6 _ _ _)
        · exact hc _ _ _
    · split
      · split
        · dsimp only
          split
          · exact (hc _ _ _).trans (.setPred6 _ _ _)
          · exact hc _ _ _
        · dsimp only
          split
          · exact .setPred6 _ _ _
          · exact .of_calm (.refl s)
      · split
        · dsimp only
          split
          · exact .setPred6 _ _ _
          · exact .of_calm (.refl s)
        · dsimp only
          split
          · exact (hc _ _ _).trans (.setPred6 _ _ _)
          · exact hc _ _ _

theorem readOp_calm (s : State) (lk : Nat) (o : Operand) (w : Nat) : CalmBut lk s (s.readOp lk o w).2 := by
  cases o with
  | v n => exact .of_calm (.refl s)
  | z => exact .of_calm (.refl s)
  | q n => exact pop_calm s lk n.val

theorem readSlot_calm (r : Slot) (lk : Nat) (o : Operand) (s : State) : CalmBut lk s (readSlot r lk o s).2 := by
  unfold readSlot
  split
  · exact readOp_calm _ _ _ _
  · exact .of_calm (.refl s)

theorem readRRR_calm (row : RRRRow) (f : RRR) (lk : Nat) (s : State) : CalmBut lk s (readRRR row f lk s).2 :=
  ((readSlot_calm _ _ _ _).trans (readSlot_calm _ _ _ _)).trans (readSlot_calm _ _ _ _)

/-! ## Pushes -/

/-- A push changes no lane beyond `Calm`, and no byte below host memory but those at the tail slot of a ring whose producer end is local. -/
theorem push_calm (s : State) (lk q : Nat) (bytes : List Byte) :
    (∀ k, ∃ b n c x, (s.push lk q bytes).lane k = { s.lane k with block := b, skid := n, clause := c, badClause := x }) ∧ (s.mem.wf = true → (s.push lk q bytes).mem.wf = true)
      ∧ (s.mem.wf = true → ∀ a, a < 2 ^ 64 → (∀ p, pushSlot s lk q = some p → a < p ∨ p + bytes.length ≤ a) →
          (s.push lk q bytes).mem.read a = s.mem.read a) := by
  unfold State.push
  dsimp only
  split
  · exact ⟨(Calm.refl s).lanes, id, fun _ _ _ _ => rfl⟩
  · rename_i d hd
    split
    · have h : Calm s (s.pushLater lk q d bytes) := .of_eq rfl rfl
      exact ⟨h.lanes, h.wf, fun w a ha _ => h.mem w a ha⟩
    split
    · rename_i hp
      simp only [State.land, hd]
      generalize hat : slotPhys (s.team (teamOf (lk / 32))) ((s.team (teamOf (lk / 32))).chute q) d ((s.team (teamOf (lk / 32))).chute q).elems.length = at_
      have h1 (f : Chute → Chute) := ((watchChute_calm (s.setMem (s.mem.writeBytes at_ bytes)) lk at_ bytes.length true (s.stepPc lk) s.stepSerial).trans
        (updChute_calm _ (teamOf (lk / 32)) q f)).trans (Calm.bump _)
      generalize hf : (fun c : Chute => { c with elems := _, withdrawn := _ } : Chute → Chute) = f
      refine ⟨fun k => (h1 f).lanes k, fun w => (h1 f).wf (Memory.writeBytes_wf w _ _), fun w a ha hs => ?_⟩
      refine ((h1 f).mem (Memory.writeBytes_wf w _ _) a ha).trans (Memory.read_writeBytes_out w _ _ _ (hs at_ ?_))
      rename_i hr
      simp only [hp, decide_true, Bool.true_and, Bool.not_eq_true', Bool.not_eq_false] at hr
      simp only [pushSlot, hd, hp, hr, decide_true, Bool.and_self, if_true]
      rw [hat]
    · exact ⟨(Calm.refl s).lanes, id, fun _ _ _ _ => rfl⟩

end Sys2Proof.Machine
end

