-- ==== Sys2Proof/Laws/PerInstr.lean ====
section
/-! SUPPORT. The per-instruction family `Encoded`: the word of a word instruction carries the opcode of its point in bits [8:0] (02 R43, R49), and an
event has no word. -/

namespace Sys2Proof.Laws

/-- The word of an instruction names its point, or the instruction is an event and has none. -/
def Encoded.Statement (i : Instr) : Prop :=
  match i.view.opcode with
  | some op => encode i % 512 = op
  | none => encode i = 0

theorem RRR.pack_mod (f : RRR) (op : Nat) (h : op < 512) : f.pack op % 512 = op := by
  unfold RRR.pack
  omega

theorem RI.pack_mod (f : RI) (op : Nat) (h : op < 512) : f.pack op % 512 = op := by
  unfold RI.pack
  omega

theorem MF.pack_mod (f : MF) (op : Nat) (h : op < 512) : f.pack op % 512 = op := by
  unfold MF.pack
  omega

theorem AF.pack_mod (f : AF) (op : Nat) (h : op < 512) : f.pack op % 512 = op := by
  unfold AF.pack
  omega

theorem GF.pack_mod (f : GF) (op : Nat) (h : op < 512) : f.pack op % 512 = op := by
  unfold GF.pack
  omega

theorem EF.pack_mod (f : EF) (op : Nat) (h : op < 512) : f.pack op % 512 = op := by
  unfold EF.pack
  omega

theorem XF.pack_mod (f : XF) (op : Nat) (h : op < 512) : f.pack op % 512 = op := by
  unfold XF.pack
  omega

theorem BF.pack_mod (f : BF) (op : Nat) (h : op < 512) : f.pack op % 512 = op := by
  unfold BF.pack
  omega

theorem SF.pack_mod (f : SF) (op : Nat) (h : op < 512) : f.pack op % 512 = op := by
  unfold SF.pack
  omega

theorem MSF.pack_mod (f : MSF) (op : Nat) (h : op < 512) : f.pack op % 512 = op := by
  unfold MSF.pack
  omega

theorem Encoded.add (f : RRR) : Encoded.Statement (.add f) := RRR.pack_mod f 0x020 (by decide)
theorem Encoded.sub (f : RRR) : Encoded.Statement (.sub f) := RRR.pack_mod f 0x021 (by decide)
theorem Encoded.addc (f : RRR) : Encoded.Statement (.addc f) := RRR.pack_mod f 0x022 (by decide)
theorem Encoded.subb (f : RRR) : Encoded.Statement (.subb f) := RRR.pack_mod f 0x023 (by decide)
theorem Encoded.neg (f : RRR) : Encoded.Statement (.neg f) := RRR.pack_mod f 0x024 (by decide)
theorem Encoded.abs (f : RRR) : Encoded.Statement (.abs f) := RRR.pack_mod f 0x025 (by decide)
theorem Encoded.minS (f : RRR) : Encoded.Statement (.minS f) := RRR.pack_mod f 0x026 (by decide)
theorem Encoded.minN (f : RRR) : Encoded.Statement (.minN f) := RRR.pack_mod f 0x027 (by decide)
theorem Encoded.maxS (f : RRR) : Encoded.Statement (.maxS f) := RRR.pack_mod f 0x028 (by decide)
theorem Encoded.maxN (f : RRR) : Encoded.Statement (.maxN f) := RRR.pack_mod f 0x029 (by decide)
theorem Encoded.and (f : RRR) : Encoded.Statement (.and f) := RRR.pack_mod f 0x02A (by decide)
theorem Encoded.or (f : RRR) : Encoded.Statement (.or f) := RRR.pack_mod f 0x02B (by decide)
theorem Encoded.xor (f : RRR) : Encoded.Statement (.xor f) := RRR.pack_mod f 0x02C (by decide)
theorem Encoded.andn (f : RRR) : Encoded.Statement (.andn f) := RRR.pack_mod f 0x02D (by decide)
theorem Encoded.not (f : RRR) : Encoded.Statement (.not f) := RRR.pack_mod f 0x02E (by decide)
theorem Encoded.shl (f : RRR) : Encoded.Statement (.shl f) := RRR.pack_mod f 0x02F (by decide)
theorem Encoded.shr (f : RRR) : Encoded.Statement (.shr f) := RRR.pack_mod f 0x030 (by decide)
theorem Encoded.sar (f : RRR) : Encoded.Statement (.sar f) := RRR.pack_mod f 0x031 (by decide)
theorem Encoded.rol (f : RRR) : Encoded.Statement (.rol f) := RRR.pack_mod f 0x032 (by decide)
theorem Encoded.clz (f : RRR) : Encoded.Statement (.clz f) := RRR.pack_mod f 0x033 (by decide)
theorem Encoded.popc (f : RRR) : Encoded.Statement (.popc f) := RRR.pack_mod f 0x034 (by decide)
theorem Encoded.brev (f : RRR) : Encoded.Statement (.brev f) := RRR.pack_mod f 0x035 (by decide)
theorem Encoded.sel (f : RRR) : Encoded.Statement (.sel f) := RRR.pack_mod f 0x036 (by decide)
theorem Encoded.mov (f : RRR) : Encoded.Statement (.mov f) := RRR.pack_mod f 0x037 (by decide)
theorem Encoded.movi (f : RI) : Encoded.Statement (.movi f) := RI.pack_mod f 0x038 (by decide)
theorem Encoded.lea (f : RI) : Encoded.Statement (.lea f) := RI.pack_mod f 0x039 (by decide)
theorem Encoded.cmpS (f : RRR) : Encoded.Statement (.cmpS f) := RRR.pack_mod f 0x03A (by decide)
theorem Encoded.cmpN (f : RRR) : Encoded.Statement (.cmpN f) := RRR.pack_mod f 0x03B (by decide)
theorem Encoded.iset (f : RRR) : Encoded.Statement (.iset f) := RRR.pack_mod f 0x03C (by decide)
theorem Encoded.plog (f : RRR) : Encoded.Statement (.plog f) := RRR.pack_mod f 0x03D (by decide)
theorem Encoded.add64 (f : RRR) : Encoded.Statement (.add64 f) := RRR.pack_mod f 0x03E (by decide)
theorem Encoded.sub64 (f : RRR) : Encoded.Statement (.sub64 f) := RRR.pack_mod f 0x03F (by decide)
theorem Encoded.mul (f : RRR) : Encoded.Statement (.mul f) := RRR.pack_mod f 0x040 (by decide)
theorem Encoded.mulhS (f : RRR) : Encoded.Statement (.mulhS f) := RRR.pack_mod f 0x041 (by decide)
theorem Encoded.mulhN (f : RRR) : Encoded.Statement (.mulhN f) := RRR.pack_mod f 0x042 (by decide)
theorem Encoded.mad (f : RRR) : Encoded.Statement (.mad f) := RRR.pack_mod f 0x043 (by decide)
theorem Encoded.madhS (f : RRR) : Encoded.Statement (.madhS f) := RRR.pack_mod f 0x044 (by decide)
theorem Encoded.madhN (f : RRR) : Encoded.Statement (.madhN f) := RRR.pack_mod f 0x045 (by decide)
theorem Encoded.mul64S (f : RRR) : Encoded.Statement (.mul64S f) := RRR.pack_mod f 0x046 (by decide)
theorem Encoded.mul64N (f : RRR) : Encoded.Statement (.mul64N f) := RRR.pack_mod f 0x047 (by decide)
theorem Encoded.mad64S (f : RRR) : Encoded.Statement (.mad64S f) := RRR.pack_mod f 0x048 (by decide)
theorem Encoded.mad64N (f : RRR) : Encoded.Statement (.mad64N f) := RRR.pack_mod f 0x049 (by decide)
theorem Encoded.dot4Ss (f : RRR) : Encoded.Statement (.dot4Ss f) := RRR.pack_mod f 0x04A (by decide)
theorem Encoded.dot4Nn (f : RRR) : Encoded.Statement (.dot4Nn f) := RRR.pack_mod f 0x04B (by decide)
theorem Encoded.dot4Sn (f : RRR) : Encoded.Statement (.dot4Sn f) := RRR.pack_mod f 0x04C (by decide)
theorem Encoded.dot2 (f : RRR) : Encoded.Statement (.dot2 f) := RRR.pack_mod f 0x04D (by decide)
theorem Encoded.divS (f : RRR) : Encoded.Statement (.divS f) := RRR.pack_mod f 0x060 (by decide)
theorem Encoded.divN (f : RRR) : Encoded.Statement (.divN f) := RRR.pack_mod f 0x061 (by decide)
theorem Encoded.remS (f : RRR) : Encoded.Statement (.remS f) := RRR.pack_mod f 0x062 (by decide)
theorem Encoded.remN (f : RRR) : Encoded.Statement (.remN f) := RRR.pack_mod f 0x063 (by decide)
theorem Encoded.divrS (f : RRR) : Encoded.Statement (.divrS f) := RRR.pack_mod f 0x064 (by decide)
theorem Encoded.divrN (f : RRR) : Encoded.Statement (.divrN f) := RRR.pack_mod f 0x065 (by decide)
theorem Encoded.div64S (f : RRR) : Encoded.Statement (.div64S f) := RRR.pack_mod f 0x066 (by decide)
theorem Encoded.div64N (f : RRR) : Encoded.Statement (.div64N f) := RRR.pack_mod f 0x067 (by decide)
theorem Encoded.bfxS (f : RRR) : Encoded.Statement (.bfxS f) := RRR.pack_mod f 0x080 (by decide)
theorem Encoded.bfxN (f : RRR) : Encoded.Statement (.bfxN f) := RRR.pack_mod f 0x081 (by decide)
theorem Encoded.bfi (f : RRR) : Encoded.Statement (.bfi f) := RRR.pack_mod f 0x082 (by decide)
theorem Encoded.prmb (f : RRR) : Encoded.Statement (.prmb f) := RRR.pack_mod f 0x083 (by decide)
theorem Encoded.unpk3 (f : RRR) : Encoded.Statement (.unpk3 f) := RRR.pack_mod f 0x084 (by decide)
theorem Encoded.pack3 (f : RRR) : Encoded.Statement (.pack3 f) := RRR.pack_mod f 0x085 (by decide)
theorem Encoded.tacc (f : RRR) : Encoded.Statement (.tacc f) := RRR.pack_mod f 0x086 (by decide)
theorem Encoded.satnS (f : RRR) : Encoded.Statement (.satnS f) := RRR.pack_mod f 0x087 (by decide)
theorem Encoded.satnN (f : RRR) : Encoded.Statement (.satnN f) := RRR.pack_mod f 0x088 (by decide)
theorem Encoded.pk16 (f : RRR) : Encoded.Statement (.pk16 f) := RRR.pack_mod f 0x089 (by decide)
theorem Encoded.upk8S (f : RRR) : Encoded.Statement (.upk8S f) := RRR.pack_mod f 0x08A (by decide)
theorem Encoded.upk8N (f : RRR) : Encoded.Statement (.upk8N f) := RRR.pack_mod f 0x08B (by decide)
theorem Encoded.upk4S (f : RRR) : Encoded.Statement (.upk4S f) := RRR.pack_mod f 0x08C (by decide)
theorem Encoded.upk4N (f : RRR) : Encoded.Statement (.upk4N f) := RRR.pack_mod f 0x08D (by decide)
theorem Encoded.pkb (f : RRR) : Encoded.Statement (.pkb f) := RRR.pack_mod f 0x08E (by decide)
theorem Encoded.msk (f : RRR) : Encoded.Statement (.msk f) := RRR.pack_mod f 0x08F (by decide)
theorem Encoded.faddF32 (f : RRR) : Encoded.Statement (.faddF32 f) := RRR.pack_mod f 0x0A0 (by decide)
theorem Encoded.faddF16x2 (f : RRR) : Encoded.Statement (.faddF16x2 f) := RRR.pack_mod f 0x0A1 (by decide)
theorem Encoded.faddBf16x2 (f : RRR) : Encoded.Statement (.faddBf16x2 f) := RRR.pack_mod f 0x0A2 (by decide)
theorem Encoded.fsubF32 (f : RRR) : Encoded.Statement (.fsubF32 f) := RRR.pack_mod f 0x0A3 (by decide)
theorem Encoded.fsubF16x2 (f : RRR) : Encoded.Statement (.fsubF16x2 f) := RRR.pack_mod f 0x0A4 (by decide)
theorem Encoded.fsubBf16x2 (f : RRR) : Encoded.Statement (.fsubBf16x2 f) := RRR.pack_mod f 0x0A5 (by decide)
theorem Encoded.fmulF32 (f : RRR) : Encoded.Statement (.fmulF32 f) := RRR.pack_mod f 0x0A6 (by decide)
theorem Encoded.fmulF16x2 (f : RRR) : Encoded.Statement (.fmulF16x2 f) := RRR.pack_mod f 0x0A7 (by decide)
theorem Encoded.fmulBf16x2 (f : RRR) : Encoded.Statement (.fmulBf16x2 f) := RRR.pack_mod f 0x0A8 (by decide)
theorem Encoded.fmaF32 (f : RRR) : Encoded.Statement (.fmaF32 f) := RRR.pack_mod f 0x0A9 (by decide)
theorem Encoded.fmaF16x2 (f : RRR) : Encoded.Statement (.fmaF16x2 f) := RRR.pack_mod f 0x0AA (by decide)
theorem Encoded.fmaBf16x2 (f : RRR) : Encoded.Statement (.fmaBf16x2 f) := RRR.pack_mod f 0x0AB (by decide)
theorem Encoded.fminF32 (f : RRR) : Encoded.Statement (.fminF32 f) := RRR.pack_mod f 0x0AC (by decide)
theorem Encoded.fminF16x2 (f : RRR) : Encoded.Statement (.fminF16x2 f) := RRR.pack_mod f 0x0AD (by decide)
theorem Encoded.fminBf16x2 (f : RRR) : Encoded.Statement (.fminBf16x2 f) := RRR.pack_mod f 0x0AE (by decide)
theorem Encoded.fmaxF32 (f : RRR) : Encoded.Statement (.fmaxF32 f) := RRR.pack_mod f 0x0AF (by decide)
theorem Encoded.fmaxF16x2 (f : RRR) : Encoded.Statement (.fmaxF16x2 f) := RRR.pack_mod f 0x0B0 (by decide)
theorem Encoded.fmaxBf16x2 (f : RRR) : Encoded.Statement (.fmaxBf16x2 f) := RRR.pack_mod f 0x0B1 (by decide)
theorem Encoded.fcmpF32 (f : RRR) : Encoded.Statement (.fcmpF32 f) := RRR.pack_mod f 0x0B2 (by decide)
theorem Encoded.fcmpF16x2 (f : RRR) : Encoded.Statement (.fcmpF16x2 f) := RRR.pack_mod f 0x0B3 (by decide)
theorem Encoded.fcmpBf16x2 (f : RRR) : Encoded.Statement (.fcmpBf16x2 f) := RRR.pack_mod f 0x0B4 (by decide)
theorem Encoded.fsetF32 (f : RRR) : Encoded.Statement (.fsetF32 f) := RRR.pack_mod f 0x0B5 (by decide)
theorem Encoded.fsetF16x2 (f : RRR) : Encoded.Statement (.fsetF16x2 f) := RRR.pack_mod f 0x0B6 (by decide)
theorem Encoded.fsetBf16x2 (f : RRR) : Encoded.Statement (.fsetBf16x2 f) := RRR.pack_mod f 0x0B7 (by decide)
theorem Encoded.fclsF32 (f : RRR) : Encoded.Statement (.fclsF32 f) := RRR.pack_mod f 0x0B8 (by decide)
theorem Encoded.fclsF16x2 (f : RRR) : Encoded.Statement (.fclsF16x2 f) := RRR.pack_mod f 0x0B9 (by decide)
theorem Encoded.fclsBf16x2 (f : RRR) : Encoded.Statement (.fclsBf16x2 f) := RRR.pack_mod f 0x0BA (by decide)
theorem Encoded.fsel (f : RRR) : Encoded.Statement (.fsel f) := RRR.pack_mod f 0x0BB (by decide)
theorem Encoded.fdot2F16 (f : RRR) : Encoded.Statement (.fdot2F16 f) := RRR.pack_mod f 0x0BC (by decide)
theorem Encoded.fdot2Bf16 (f : RRR) : Encoded.Statement (.fdot2Bf16 f) := RRR.pack_mod f 0x0BD (by decide)
theorem Encoded.fscl (f : RRR) : Encoded.Statement (.fscl f) := RRR.pack_mod f 0x0BE (by decide)
theorem Encoded.ffrc (f : RRR) : Encoded.Statement (.ffrc f) := RRR.pack_mod f 0x0BF (by decide)
theorem Encoded.fdivF32 (f : RRR) : Encoded.Statement (.fdivF32 f) := RRR.pack_mod f 0x0C0 (by decide)
theorem Encoded.fdivF16 (f : RRR) : Encoded.Statement (.fdivF16 f) := RRR.pack_mod f 0x0C1 (by decide)
theorem Encoded.fsqrtF32 (f : RRR) : Encoded.Statement (.fsqrtF32 f) := RRR.pack_mod f 0x0C2 (by decide)
theorem Encoded.fsqrtF16 (f : RRR) : Encoded.Statement (.fsqrtF16 f) := RRR.pack_mod f 0x0C3 (by decide)
theorem Encoded.frcp (f : RRR) : Encoded.Statement (.frcp f) := RRR.pack_mod f 0x0C4 (by decide)
theorem Encoded.frsq (f : RRR) : Encoded.Statement (.frsq f) := RRR.pack_mod f 0x0C5 (by decide)
theorem Encoded.fexp2 (f : RRR) : Encoded.Statement (.fexp2 f) := RRR.pack_mod f 0x0C6 (by decide)
theorem Encoded.flog2 (f : RRR) : Encoded.Statement (.flog2 f) := RRR.pack_mod f 0x0C7 (by decide)
theorem Encoded.fsin (f : RRR) : Encoded.Statement (.fsin f) := RRR.pack_mod f 0x0C8 (by decide)
theorem Encoded.fcos (f : RRR) : Encoded.Statement (.fcos f) := RRR.pack_mod f 0x0C9 (by decide)
theorem Encoded.frndF32 (f : RRR) : Encoded.Statement (.frndF32 f) := RRR.pack_mod f 0x0CA (by decide)
theorem Encoded.frndF16x2 (f : RRR) : Encoded.Statement (.frndF16x2 f) := RRR.pack_mod f 0x0CB (by decide)
theorem Encoded.frndBf16x2 (f : RRR) : Encoded.Statement (.frndBf16x2 f) := RRR.pack_mod f 0x0CC (by decide)
theorem Encoded.cvtF32S32 (f : RRR) : Encoded.Statement (.cvtF32S32 f) := RRR.pack_mod f 0x0CD (by decide)
theorem Encoded.cvtF32N32 (f : RRR) : Encoded.Statement (.cvtF32N32 f) := RRR.pack_mod f 0x0CE (by decide)
theorem Encoded.cvtS32F32 (f : RRR) : Encoded.Statement (.cvtS32F32 f) := RRR.pack_mod f 0x0CF (by decide)
theorem Encoded.cvtN32F32 (f : RRR) : Encoded.Statement (.cvtN32F32 f) := RRR.pack_mod f 0x0D0 (by decide)
theorem Encoded.cvtF16F32 (f : RRR) : Encoded.Statement (.cvtF16F32 f) := RRR.pack_mod f 0x0D1 (by decide)
theorem Encoded.cvtF32F16 (f : RRR) : Encoded.Statement (.cvtF32F16 f) := RRR.pack_mod f 0x0D2 (by decide)
theorem Encoded.cvtBf16F32 (f : RRR) : Encoded.Statement (.cvtBf16F32 f) := RRR.pack_mod f 0x0D3 (by decide)
theorem Encoded.cvtF32Bf16 (f : RRR) : Encoded.Statement (.cvtF32Bf16 f) := RRR.pack_mod f 0x0D4 (by decide)
theorem Encoded.cvtF16x2F32 (f : RRR) : Encoded.Statement (.cvtF16x2F32 f) := RRR.pack_mod f 0x0D5 (by decide)
theorem Encoded.cvtBf16x2F32 (f : RRR) : Encoded.Statement (.cvtBf16x2F32 f) := RRR.pack_mod f 0x0D6 (by decide)
theorem Encoded.cvtF32S64 (f : RRR) : Encoded.Statement (.cvtF32S64 f) := RRR.pack_mod f 0x0D7 (by decide)
theorem Encoded.cvtS64F32 (f : RRR) : Encoded.Statement (.cvtS64F32 f) := RRR.pack_mod f 0x0D8 (by decide)
theorem Encoded.cvtF16Bf16 (f : RRR) : Encoded.Statement (.cvtF16Bf16 f) := RRR.pack_mod f 0x0D9 (by decide)
theorem Encoded.cvtBf16F16 (f : RRR) : Encoded.Statement (.cvtBf16F16 f) := RRR.pack_mod f 0x0DA (by decide)
theorem Encoded.cvtF16S32 (f : RRR) : Encoded.Statement (.cvtF16S32 f) := RRR.pack_mod f 0x0DB (by decide)
theorem Encoded.xtld (f : XF) : Encoded.Statement (.xtld f) := XF.pack_mod f 0x0E0 (by decide)
theorem Encoded.xtrl (f : XF) : Encoded.Statement (.xtrl f) := XF.pack_mod f 0x0E1 (by decide)
theorem Encoded.xrst (f : XF) : Encoded.Statement (.xrst f) := XF.pack_mod f 0x0E2 (by decide)
theorem Encoded.xdg (f : XF) : Encoded.Statement (.xdg f) := XF.pack_mod f 0x0E3 (by decide)
theorem Encoded.xdg2 (f : XF) : Encoded.Statement (.xdg2 f) := XF.pack_mod f 0x0E4 (by decide)
theorem Encoded.xdu (f : XF) : Encoded.Statement (.xdu f) := XF.pack_mod f 0x0E5 (by decide)
theorem Encoded.xfin (f : XF) : Encoded.Statement (.xfin f) := XF.pack_mod f 0x0E6 (by decide)
theorem Encoded.xcmp (f : XF) : Encoded.Statement (.xcmp f) := XF.pack_mod f 0x0E7 (by decide)
theorem Encoded.xstr (f : XF) : Encoded.Statement (.xstr f) := XF.pack_mod f 0x0E8 (by decide)
theorem Encoded.xstw (f : XF) : Encoded.Statement (.xstw f) := XF.pack_mod f 0x0E9 (by decide)
theorem Encoded.xlen (f : XF) : Encoded.Statement (.xlen f) := XF.pack_mod f 0x0EA (by decide)
theorem Encoded.xqry (f : XF) : Encoded.Statement (.xqry f) := XF.pack_mod f 0x0EB (by decide)
theorem Encoded.gsumI32 (f : GF) : Encoded.Statement (.gsumI32 f) := GF.pack_mod f 0x100 (by decide)
theorem Encoded.gsumF32 (f : GF) : Encoded.Statement (.gsumF32 f) := GF.pack_mod f 0x101 (by decide)
theorem Encoded.gsumS64 (f : GF) : Encoded.Statement (.gsumS64 f) := GF.pack_mod f 0x102 (by decide)
theorem Encoded.gminS (f : GF) : Encoded.Statement (.gminS f) := GF.pack_mod f 0x103 (by decide)
theorem Encoded.gminN (f : GF) : Encoded.Statement (.gminN f) := GF.pack_mod f 0x104 (by decide)
theorem Encoded.gminF (f : GF) : Encoded.Statement (.gminF f) := GF.pack_mod f 0x105 (by decide)
theorem Encoded.gmaxS (f : GF) : Encoded.Statement (.gmaxS f) := GF.pack_mod f 0x106 (by decide)
theorem Encoded.gmaxN (f : GF) : Encoded.Statement (.gmaxN f) := GF.pack_mod f 0x107 (by decide)
theorem Encoded.gmaxF (f : GF) : Encoded.Statement (.gmaxF f) := GF.pack_mod f 0x108 (by decide)
theorem Encoded.gand (f : GF) : Encoded.Statement (.gand f) := GF.pack_mod f 0x109 (by decide)
theorem Encoded.gor (f : GF) : Encoded.Statement (.gor f) := GF.pack_mod f 0x10A (by decide)
theorem Encoded.gxor (f : GF) : Encoded.Statement (.gxor f) := GF.pack_mod f 0x10B (by decide)
theorem Encoded.gscanI32Inc (f : GF) : Encoded.Statement (.gscanI32Inc f) := GF.pack_mod f 0x10C (by decide)
theorem Encoded.gscanI32Exc (f : GF) : Encoded.Statement (.gscanI32Exc f) := GF.pack_mod f 0x10D (by decide)
theorem Encoded.gscanF32Inc (f : GF) : Encoded.Statement (.gscanF32Inc f) := GF.pack_mod f 0x10E (by decide)
theorem Encoded.gscanF32Exc (f : GF) : Encoded.Statement (.gscanF32Exc f) := GF.pack_mod f 0x10F (by decide)
theorem Encoded.gsegI32 (f : GF) : Encoded.Statement (.gsegI32 f) := GF.pack_mod f 0x110 (by decide)
theorem Encoded.gsegF32 (f : GF) : Encoded.Statement (.gsegF32 f) := GF.pack_mod f 0x111 (by decide)
theorem Encoded.gbcast (f : GF) : Encoded.Statement (.gbcast f) := GF.pack_mod f 0x112 (by decide)
theorem Encoded.gshuf (f : GF) : Encoded.Statement (.gshuf f) := GF.pack_mod f 0x113 (by decide)
theorem Encoded.gshufx (f : GF) : Encoded.Statement (.gshufx f) := GF.pack_mod f 0x114 (by decide)
theorem Encoded.gvote (f : GF) : Encoded.Statement (.gvote f) := GF.pack_mod f 0x115 (by decide)
theorem Encoded.gcnt (f : GF) : Encoded.Statement (.gcnt f) := GF.pack_mod f 0x116 (by decide)
theorem Encoded.gelect (f : GF) : Encoded.Statement (.gelect f) := GF.pack_mod f 0x117 (by decide)
theorem Encoded.grank (f : GF) : Encoded.Statement (.grank f) := GF.pack_mod f 0x118 (by decide)
theorem Encoded.gsync (f : GF) : Encoded.Statement (.gsync f) := GF.pack_mod f 0x119 (by decide)
theorem Encoded.grow (f : GF) : Encoded.Statement (.grow f) := GF.pack_mod f 0x11A (by decide)
theorem Encoded.shrink (f : GF) : Encoded.Statement (.shrink f) := GF.pack_mod f 0x11B (by decide)
theorem Encoded.ld8s (f : MF) : Encoded.Statement (.ld8s f) := MF.pack_mod f 0x120 (by decide)
theorem Encoded.ld8n (f : MF) : Encoded.Statement (.ld8n f) := MF.pack_mod f 0x121 (by decide)
theorem Encoded.ld16s (f : MF) : Encoded.Statement (.ld16s f) := MF.pack_mod f 0x122 (by decide)
theorem Encoded.ld16n (f : MF) : Encoded.Statement (.ld16n f) := MF.pack_mod f 0x123 (by decide)
theorem Encoded.ld32 (f : MF) : Encoded.Statement (.ld32 f) := MF.pack_mod f 0x124 (by decide)
theorem Encoded.ld64 (f : MF) : Encoded.Statement (.ld64 f) := MF.pack_mod f 0x125 (by decide)
theorem Encoded.ld128 (f : MF) : Encoded.Statement (.ld128 f) := MF.pack_mod f 0x126 (by decide)
theorem Encoded.st8 (f : MF) : Encoded.Statement (.st8 f) := MF.pack_mod f 0x127 (by decide)
theorem Encoded.st16 (f : MF) : Encoded.Statement (.st16 f) := MF.pack_mod f 0x128 (by decide)
theorem Encoded.st32 (f : MF) : Encoded.Statement (.st32 f) := MF.pack_mod f 0x129 (by decide)
theorem Encoded.st64 (f : MF) : Encoded.Statement (.st64 f) := MF.pack_mod f 0x12A (by decide)
theorem Encoded.st128 (f : MF) : Encoded.Statement (.st128 f) := MF.pack_mod f 0x12B (by decide)
theorem Encoded.atom (f : AF) : Encoded.Statement (.atom f) := AF.pack_mod f 0x12C (by decide)
theorem Encoded.atom64 (f : AF) : Encoded.Statement (.atom64 f) := AF.pack_mod f 0x12D (by decide)
theorem Encoded.cas (f : AF) : Encoded.Statement (.cas f) := AF.pack_mod f 0x12E (by decide)
theorem Encoded.cas64 (f : AF) : Encoded.Statement (.cas64 f) := AF.pack_mod f 0x12F (by decide)
theorem Encoded.red (f : AF) : Encoded.Statement (.red f) := AF.pack_mod f 0x130 (by decide)
theorem Encoded.red64 (f : AF) : Encoded.Statement (.red64 f) := AF.pack_mod f 0x131 (by decide)
theorem Encoded.ldsp (f : MF) : Encoded.Statement (.ldsp f) := MF.pack_mod f 0x132 (by decide)
theorem Encoded.stsp (f : MF) : Encoded.Statement (.stsp f) := MF.pack_mod f 0x133 (by decide)
theorem Encoded.brld (f : MF) : Encoded.Statement (.brld f) := MF.pack_mod f 0x134 (by decide)
theorem Encoded.chcfg (f : MF) : Encoded.Statement (.chcfg f) := MF.pack_mod f 0x135 (by decide)
theorem Encoded.chrd (f : MF) : Encoded.Statement (.chrd f) := MF.pack_mod f 0x136 (by decide)
theorem Encoded.chwr (f : MF) : Encoded.Statement (.chwr f) := MF.pack_mod f 0x137 (by decide)
theorem Encoded.chcnt (f : MF) : Encoded.Statement (.chcnt f) := MF.pack_mod f 0x138 (by decide)
theorem Encoded.chcls (f : MF) : Encoded.Statement (.chcls f) := MF.pack_mod f 0x139 (by decide)
theorem Encoded.cpy (f : EF) : Encoded.Statement (.cpy f) := EF.pack_mod f 0x140 (by decide)
theorem Encoded.cpy2 (f : EF) : Encoded.Statement (.cpy2 f) := EF.pack_mod f 0x141 (by decide)
theorem Encoded.cpyx (f : EF) : Encoded.Statement (.cpyx f) := EF.pack_mod f 0x142 (by decide)
theorem Encoded.cpyt (f : EF) : Encoded.Statement (.cpyt f) := EF.pack_mod f 0x143 (by decide)
theorem Encoded.mcast (f : EF) : Encoded.Statement (.mcast f) := EF.pack_mod f 0x144 (by decide)
theorem Encoded.fill (f : EF) : Encoded.Statement (.fill f) := EF.pack_mod f 0x145 (by decide)
theorem Encoded.gath (f : EF) : Encoded.Statement (.gath f) := EF.pack_mod f 0x146 (by decide)
theorem Encoded.gath64 (f : EF) : Encoded.Statement (.gath64 f) := EF.pack_mod f 0x147 (by decide)
theorem Encoded.scat (f : EF) : Encoded.Statement (.scat f) := EF.pack_mod f 0x148 (by decide)
theorem Encoded.scata (f : EF) : Encoded.Statement (.scata f) := EF.pack_mod f 0x149 (by decide)
theorem Encoded.scata64 (f : EF) : Encoded.Statement (.scata64 f) := EF.pack_mod f 0x14A (by decide)
theorem Encoded.sump (f : EF) : Encoded.Statement (.sump f) := EF.pack_mod f 0x14B (by decide)
theorem Encoded.sumpw (f : EF) : Encoded.Statement (.sumpw f) := EF.pack_mod f 0x14C (by decide)
theorem Encoded.sigAdd (f : EF) : Encoded.Statement (.sigAdd f) := EF.pack_mod f 0x14D (by decide)
theorem Encoded.sigSet (f : EF) : Encoded.Statement (.sigSet f) := EF.pack_mod f 0x14E (by decide)
theorem Encoded.swait (f : EF) : Encoded.Statement (.swait f) := EF.pack_mod f 0x14F (by decide)
theorem Encoded.coll (f : EF) : Encoded.Statement (.coll f) := EF.pack_mod f 0x150 (by decide)
theorem Encoded.ccan (f : EF) : Encoded.Statement (.ccan f) := EF.pack_mod f 0x151 (by decide)
theorem Encoded.cstat (f : EF) : Encoded.Statement (.cstat f) := EF.pack_mod f 0x152 (by decide)
theorem Encoded.waitc (f : EF) : Encoded.Statement (.waitc f) := EF.pack_mod f 0x153 (by decide)
theorem Encoded.rdc (f : EF) : Encoded.Statement (.rdc f) := EF.pack_mod f 0x154 (by decide)
theorem Encoded.probe (f : EF) : Encoded.Statement (.probe f) := EF.pack_mod f 0x155 (by decide)
theorem Encoded.ecan (f : EF) : Encoded.Statement (.ecan f) := EF.pack_mod f 0x156 (by decide)
theorem Encoded.fencee (f : EF) : Encoded.Statement (.fencee f) := EF.pack_mod f 0x157 (by decide)
theorem Encoded.ttset (f : SF) : Encoded.Statement (.ttset f) := SF.pack_mod f 0x160 (by decide)
theorem Encoded.ttget (f : SF) : Encoded.Statement (.ttget f) := SF.pack_mod f 0x161 (by decide)
theorem Encoded.mstart (f : SF) : Encoded.Statement (.mstart f) := SF.pack_mod f 0x162 (by decide)
theorem Encoded.mstop (f : SF) : Encoded.Statement (.mstop f) := SF.pack_mod f 0x163 (by decide)
theorem Encoded.mstat (f : SF) : Encoded.Statement (.mstat f) := SF.pack_mod f 0x164 (by decide)
theorem Encoded.fence (f : SF) : Encoded.Statement (.fence f) := SF.pack_mod f 0x180 (by decide)
theorem Encoded.bar (f : SF) : Encoded.Statement (.bar f) := SF.pack_mod f 0x181 (by decide)
theorem Encoded.bara (f : SF) : Encoded.Statement (.bara f) := SF.pack_mod f 0x182 (by decide)
theorem Encoded.barw (f : SF) : Encoded.Statement (.barw f) := SF.pack_mod f 0x183 (by decide)
theorem Encoded.bari (f : SF) : Encoded.Statement (.bari f) := SF.pack_mod f 0x184 (by decide)
theorem Encoded.gbara (f : SF) : Encoded.Statement (.gbara f) := SF.pack_mod f 0x185 (by decide)
theorem Encoded.gbarw (f : SF) : Encoded.Statement (.gbarw f) := SF.pack_mod f 0x186 (by decide)
theorem Encoded.sealRange (f : SF) : Encoded.Statement (.sealRange f) := SF.pack_mod f 0x187 (by decide)
theorem Encoded.unsealEntry (f : SF) : Encoded.Statement (.unsealEntry f) := SF.pack_mod f 0x188 (by decide)
theorem Encoded.waits (f : MF) : Encoded.Statement (.waits f) := MF.pack_mod f 0x189 (by decide)
theorem Encoded.fencei (f : SF) : Encoded.Statement (.fencei f) := SF.pack_mod f 0x18A (by decide)
theorem Encoded.srd (f : SF) : Encoded.Statement (.srd f) := SF.pack_mod f 0x1A0 (by decide)
theorem Encoded.swr (f : SF) : Encoded.Statement (.swr f) := SF.pack_mod f 0x1A1 (by decide)
theorem Encoded.trap (f : SF) : Encoded.Statement (.trap f) := SF.pack_mod f 0x1A2 (by decide)
theorem Encoded.brk (f : SF) : Encoded.Statement (.brk f) := SF.pack_mod f 0x1A3 (by decide)
theorem Encoded.reth (f : SF) : Encoded.Statement (.reth f) := SF.pack_mod f 0x1A4 (by decide)
theorem Encoded.launch (f : SF) : Encoded.Statement (.launch f) := SF.pack_mod f 0x1A5 (by decide)
theorem Encoded.launchw (f : SF) : Encoded.Statement (.launchw f) := SF.pack_mod f 0x1A6 (by decide)
theorem Encoded.task (f : SF) : Encoded.Statement (.task f) := SF.pack_mod f 0x1A7 (by decide)
theorem Encoded.taskp (f : SF) : Encoded.Statement (.taskp f) := SF.pack_mod f 0x1A8 (by decide)
theorem Encoded.tasks (f : SF) : Encoded.Statement (.tasks f) := SF.pack_mod f 0x1A9 (by decide)
theorem Encoded.amsg (f : SF) : Encoded.Statement (.amsg f) := SF.pack_mod f 0x1AA (by decide)
theorem Encoded.amsgr (f : SF) : Encoded.Statement (.amsgr f) := SF.pack_mod f 0x1AB (by decide)
theorem Encoded.region (f : RI) : Encoded.Statement (.region f) := RI.pack_mod f 0x1AC (by decide)
theorem Encoded.perf (f : SF) : Encoded.Statement (.perf f) := SF.pack_mod f 0x1AD (by decide)
theorem Encoded.stamp (f : SF) : Encoded.Statement (.stamp f) := SF.pack_mod f 0x1AE (by decide)
theorem Encoded.wpset (f : SF) : Encoded.Statement (.wpset f) := SF.pack_mod f 0x1AF (by decide)
theorem Encoded.wpclr (f : SF) : Encoded.Statement (.wpclr f) := SF.pack_mod f 0x1B0 (by decide)
theorem Encoded.hint (f : SF) : Encoded.Statement (.hint f) := SF.pack_mod f 0x1B1 (by decide)
theorem Encoded.pswr (f : SF) : Encoded.Statement (.pswr f) := SF.pack_mod f 0x1B2 (by decide)
theorem Encoded.pctx (f : SF) : Encoded.Statement (.pctx f) := SF.pack_mod f 0x1B3 (by decide)
theorem Encoded.nop (f : BF) : Encoded.Statement (.nop f) := BF.pack_mod f 0x000 (by decide)
theorem Encoded.bra (f : BF) : Encoded.Statement (.bra f) := BF.pack_mod f 0x001 (by decide)
theorem Encoded.brp (f : BF) : Encoded.Statement (.brp f) := BF.pack_mod f 0x002 (by decide)
theorem Encoded.brrZ (f : BF) : Encoded.Statement (.brrZ f) := BF.pack_mod f 0x003 (by decide)
theorem Encoded.brrNz (f : BF) : Encoded.Statement (.brrNz f) := BF.pack_mod f 0x004 (by decide)
theorem Encoded.brrLt (f : BF) : Encoded.Statement (.brrLt f) := BF.pack_mod f 0x005 (by decide)
theorem Encoded.brrGe (f : BF) : Encoded.Statement (.brrGe f) := BF.pack_mod f 0x006 (by decide)
theorem Encoded.loop (f : BF) : Encoded.Statement (.loop f) := BF.pack_mod f 0x007 (by decide)
theorem Encoded.call (f : BF) : Encoded.Statement (.call f) := BF.pack_mod f 0x008 (by decide)
theorem Encoded.calli (f : BF) : Encoded.Statement (.calli f) := BF.pack_mod f 0x009 (by decide)
theorem Encoded.ret (f : BF) : Encoded.Statement (.ret f) := BF.pack_mod f 0x00A (by decide)
theorem Encoded.jmpi (f : BF) : Encoded.Statement (.jmpi f) := BF.pack_mod f 0x00B (by decide)
theorem Encoded.brt (f : BF) : Encoded.Statement (.brt f) := BF.pack_mod f 0x00C (by decide)
theorem Encoded.exit (f : BF) : Encoded.Statement (.exit f) := BF.pack_mod f 0x00D (by decide)
theorem Encoded.park (f : BF) : Encoded.Statement (.park f) := BF.pack_mod f 0x00E (by decide)
theorem Encoded.yield (f : BF) : Encoded.Statement (.yield f) := BF.pack_mod f 0x00F (by decide)
theorem Encoded.mmac (f : MSF) : Encoded.Statement (.mmac f) := MSF.pack_mod f 0x170 (by decide)
theorem Encoded.mzero (f : MSF) : Encoded.Statement (.mzero f) := MSF.pack_mod f 0x171 (by decide)
theorem Encoded.mdrain (f : MSF) : Encoded.Statement (.mdrain f) := MSF.pack_mod f 0x172 (by decide)
theorem Encoded.mbara (f : MSF) : Encoded.Statement (.mbara f) := MSF.pack_mod f 0x173 (by decide)
theorem Encoded.mbarw (f : MSF) : Encoded.Statement (.mbarw f) := MSF.pack_mod f 0x174 (by decide)
theorem Encoded.mloop (f : MSF) : Encoded.Statement (.mloop f) := MSF.pack_mod f 0x175 (by decide)
theorem Encoded.mloopEnd (f : MSF) : Encoded.Statement (.mloopEnd f) := MSF.pack_mod f 0x175 (by decide)
theorem Encoded.mjmp (f : MSF) : Encoded.Statement (.mjmp f) := MSF.pack_mod f 0x176 (by decide)
theorem Encoded.mend (f : MSF) : Encoded.Statement (.mend f) := MSF.pack_mod f 0x177 (by decide)
theorem Encoded.mred (f : MSF) : Encoded.Statement (.mred f) := MSF.pack_mod f 0x178 (by decide)
theorem Encoded.mldacc (f : MSF) : Encoded.Statement (.mldacc f) := MSF.pack_mod f 0x179 (by decide)
theorem Encoded.mstacc (f : MSF) : Encoded.Statement (.mstacc f) := MSF.pack_mod f 0x17A (by decide)
theorem Encoded.msel (f : MSF) : Encoded.Statement (.msel f) := MSF.pack_mod f 0x17B (by decide)
theorem Encoded.mscl (f : MSF) : Encoded.Statement (.mscl f) := MSF.pack_mod f 0x17C (by decide)
theorem Encoded.mwaitc (f : MSF) : Encoded.Statement (.mwaitc f) := MSF.pack_mod f 0x17D (by decide)
theorem Encoded.mnop (f : MSF) : Encoded.Statement (.mnop f) := MSF.pack_mod f 0x17E (by decide)

theorem Encoded.powerOn (b : BootIn) : Encoded.Statement (.powerOn b) := rfl
theorem Encoded.coldReset : Encoded.Statement .coldReset := rfl
theorem Encoded.thermalAlarm (die temp : Nat) : Encoded.Statement (.thermalAlarm die temp) := rfl
theorem Encoded.thermalShutdown (die temp : Nat) : Encoded.Statement (.thermalShutdown die temp) := rfl
theorem Encoded.fwStage : Encoded.Statement .fwStage := rfl
theorem Encoded.fwStageComplete (readOk : Bool) : Encoded.Statement (.fwStageComplete readOk) := rfl
theorem Encoded.fwCommit : Encoded.Statement .fwCommit := rfl
theorem Encoded.fwCommitPoint : Encoded.Statement .fwCommitPoint := rfl
theorem Encoded.fwDiscard : Encoded.Statement .fwDiscard := rfl
theorem Encoded.attestationQuote : Encoded.Statement .attestationQuote := rfl
theorem Encoded.gtsRead (half : Nat) : Encoded.Statement (.gtsRead half) := rfl
theorem Encoded.registerWrite (off bytes val : Nat) : Encoded.Statement (.registerWrite off bytes val) := rfl
theorem Encoded.feedEnable (f ctl : Nat) : Encoded.Statement (.feedEnable f ctl) := rfl
theorem Encoded.feedDisable (f : Nat) : Encoded.Statement (.feedDisable f) := rfl
theorem Encoded.feedTailWrite (f t readable : Nat) : Encoded.Statement (.feedTailWrite f t readable) := rfl
theorem Encoded.feedTailRead (f : Nat) : Encoded.Statement (.feedTailRead f) := rfl
theorem Encoded.feedRestart (f : Nat) : Encoded.Statement (.feedRestart f) := rfl
theorem Encoded.feedEntryDispatch (f : Nat) : Encoded.Statement (.feedEntryDispatch f) := rfl
theorem Encoded.workRecordAppend (f : Nat) : Encoded.Statement (.workRecordAppend f) := rfl
theorem Encoded.commandLinkCommand (leaf : Nat) (down take : Bool) (cmd : List Byte) : Encoded.Statement (.commandLinkCommand leaf down take cmd) := rfl
theorem Encoded.teamPlace (cluster grid : Nat) : Encoded.Statement (.teamPlace cluster grid) := rfl
theorem Encoded.clusterSteal (cluster grid : Nat) : Encoded.Statement (.clusterSteal cluster grid) := rfl
theorem Encoded.dieSteal (die grid : Nat) : Encoded.Statement (.dieSteal die grid) := rfl
theorem Encoded.grantServe (core : Nat) : Encoded.Statement (.grantServe core) := rfl
theorem Encoded.windowTimeout (w : Nat) : Encoded.Statement (.windowTimeout w) := rfl
theorem Encoded.taskRun (core : Nat) : Encoded.Statement (.taskRun core) := rfl
theorem Encoded.taskSteal (core : Nat) : Encoded.Statement (.taskSteal core) := rfl
theorem Encoded.messageArrive (src : MsgSource) : Encoded.Statement (.messageArrive src) := rfl
theorem Encoded.handlerRun (core : Nat) : Encoded.Statement (.handlerRun core) := rfl
theorem Encoded.messageRetry (core : Nat) : Encoded.Statement (.messageRetry core) := rfl
theorem Encoded.chuteRemotePushArrive (t q : Nat) : Encoded.Statement (.chuteRemotePushArrive t q) := rfl
theorem Encoded.chuteFreeNotice (t q : Nat) : Encoded.Statement (.chuteFreeNotice t q) := rfl
theorem Encoded.chuteForward (t q : Nat) : Encoded.Statement (.chuteForward t q) := rfl
theorem Encoded.chutePopNotice (t q : Nat) : Encoded.Statement (.chutePopNotice t q) := rfl
theorem Encoded.chuteWithdraw (t q : Nat) : Encoded.Statement (.chuteWithdraw t q) := rfl
theorem Encoded.chuteCloseNotice (t q : Nat) : Encoded.Statement (.chuteCloseNotice t q) := rfl
theorem Encoded.clauseFetchComplete (gk lane : Nat) : Encoded.Statement (.clauseFetchComplete gk lane) := rfl
theorem Encoded.issueOpportunity (core port : Nat) : Encoded.Statement (.issueOpportunity core port) := rfl
theorem Encoded.parkExpire (gk lane : Nat) : Encoded.Statement (.parkExpire gk lane) := rfl
theorem Encoded.yieldExpire (gk lane : Nat) : Encoded.Statement (.yieldExpire gk lane) := rfl
theorem Encoded.divideComplete (gk op : Nat) : Encoded.Statement (.divideComplete gk op) := rfl
theorem Encoded.fspcComplete (gk op : Nat) : Encoded.Statement (.fspcComplete gk op) := rfl
theorem Encoded.memsComplete (gk op : Nat) : Encoded.Statement (.memsComplete gk op) := rfl
theorem Encoded.waitsWake (gk op : Nat) : Encoded.Statement (.waitsWake gk op) := rfl
theorem Encoded.xtldComplete (gk op core : Nat) : Encoded.Statement (.xtldComplete gk op core) := rfl
theorem Encoded.fenceiComplete (gk op : Nat) : Encoded.Statement (.fenceiComplete gk op) := rfl
theorem Encoded.sealComplete (gk op : Nat) : Encoded.Statement (.sealComplete gk op) := rfl
theorem Encoded.engineRequestResponse (cmd ord : Nat) (a : Answer) : Encoded.Statement (.engineRequestResponse cmd ord a) := rfl
theorem Encoded.signalUpdate (cmd : Nat) (a : Answer) : Encoded.Statement (.signalUpdate cmd a) := rfl
theorem Encoded.collContribution (cmd : Nat) (a : Answer) : Encoded.Statement (.collContribution cmd a) := rfl
theorem Encoded.ownerTranslate (r : OwnerReq) : Encoded.Statement (.ownerTranslate r) := rfl
theorem Encoded.requestTimeout (cmd ord : Nat) : Encoded.Statement (.requestTimeout cmd ord) := rfl
theorem Encoded.pageUnmap (die part off : Nat) (pte : W64) : Encoded.Statement (.pageUnmap die part off pte) := rfl
theorem Encoded.purge (src : PurgeSource) (receiver : Nat) : Encoded.Statement (.purge src receiver) := rfl
theorem Encoded.purgeComplete (id : Nat) : Encoded.Statement (.purgeComplete id) := rfl
theorem Encoded.flitReceive (link : Nat) (flit : List Byte) : Encoded.Statement (.flitReceive link flit) := rfl
theorem Encoded.replayRequest (link seq : Nat) : Encoded.Statement (.replayRequest link seq) := rfl
theorem Encoded.linkDown (link : Nat) : Encoded.Statement (.linkDown link) := rfl
theorem Encoded.haltReceive (gk : Nat) : Encoded.Statement (.haltReceive gk) := rfl
theorem Encoded.handlerStart (t : Nat) : Encoded.Statement (.handlerStart t) := rfl
theorem Encoded.launchEnd (grid : Nat) : Encoded.Statement (.launchEnd grid) := rfl
theorem Encoded.teamSave (t : Nat) : Encoded.Statement (.teamSave t) := rfl
theorem Encoded.pageMapped (page : Nat) (served : Bool) : Encoded.Statement (.pageMapped page served) := rfl
theorem Encoded.teamRestore (t : Nat) : Encoded.Statement (.teamRestore t) := rfl
theorem Encoded.timeSliceExpire (grid : Nat) : Encoded.Statement (.timeSliceExpire grid) := rfl
theorem Encoded.spatialPreempt (cores : List Nat) : Encoded.Statement (.spatialPreempt cores) := rfl
theorem Encoded.spatialWindowExpire : Encoded.Statement .spatialWindowExpire := rfl
theorem Encoded.groupRetire (gk : Nat) : Encoded.Statement (.groupRetire gk) := rfl
theorem Encoded.launchComplete (grid : Nat) : Encoded.Statement (.launchComplete grid) := rfl
theorem Encoded.reportRingControl (off bytes val : Nat) : Encoded.Statement (.reportRingControl off bytes val) := rfl
theorem Encoded.dbgAttachWrite (val : Nat) : Encoded.Statement (.dbgAttachWrite val) := rfl
theorem Encoded.dbgStopTeam (word : W64) : Encoded.Statement (.dbgStopTeam word) := rfl
theorem Encoded.dbgStopCluster (word : W64) : Encoded.Statement (.dbgStopCluster word) := rfl
theorem Encoded.dbgStopDie (word : W64) : Encoded.Statement (.dbgStopDie word) := rfl
theorem Encoded.dbgStopDevice (word : W64) : Encoded.Statement (.dbgStopDevice word) := rfl
theorem Encoded.dbgResumeTeam (word : W64) : Encoded.Statement (.dbgResumeTeam word) := rfl
theorem Encoded.dbgResumeCluster (word : W64) : Encoded.Statement (.dbgResumeCluster word) := rfl
theorem Encoded.dbgResumeDie (word : W64) : Encoded.Statement (.dbgResumeDie word) := rfl
theorem Encoded.dbgResumeDevice (word : W64) : Encoded.Statement (.dbgResumeDevice word) := rfl
theorem Encoded.dbgStep (n : Nat) : Encoded.Statement (.dbgStep n) := rfl
theorem Encoded.dbgStepCancel : Encoded.Statement .dbgStepCancel := rfl
theorem Encoded.dbgDump (addr : Nat) : Encoded.Statement (.dbgDump addr) := rfl
theorem Encoded.dumpComplete (ok : Bool) : Encoded.Statement (.dumpComplete ok) := rfl
theorem Encoded.breakpointSet (k half val : Nat) : Encoded.Statement (.breakpointSet k half val) := rfl
theorem Encoded.watchpointSet (k val : Nat) : Encoded.Statement (.watchpointSet k val) := rfl
theorem Encoded.dbgTrcWrite (val : Nat) : Encoded.Statement (.dbgTrcWrite val) := rfl
theorem Encoded.traceSample (core port : Nat) : Encoded.Statement (.traceSample core port) := rfl
theorem Encoded.roceRequestWhileHalted (req : Nat) : Encoded.Statement (.roceRequestWhileHalted req) := rfl
theorem Encoded.nvmeofKeepAlive (conn : Nat) : Encoded.Statement (.nvmeofKeepAlive conn) := rfl
theorem Encoded.mailboxWhileHalted (req : Nat) : Encoded.Statement (.mailboxWhileHalted req) := rfl
theorem Encoded.eccCorrected (u : EccAt) : Encoded.Statement (.eccCorrected u) := rfl
theorem Encoded.eccUncorrectable (u : EccAt) : Encoded.Statement (.eccUncorrectable u) := rfl
theorem Encoded.channelMigrate (die chan : Nat) : Encoded.Statement (.channelMigrate die chan) := rfl
theorem Encoded.scrub : Encoded.Statement .scrub := rfl
theorem Encoded.healthRecordUpdate (r : JunctionReading) : Encoded.Statement (.healthRecordUpdate r) := rfl
theorem Encoded.linkRetrainComplete (link : Nat) (lane : Option Nat) : Encoded.Statement (.linkRetrainComplete link lane) := rfl
theorem Encoded.partReportedAbsent (n : Nat) : Encoded.Statement (.partReportedAbsent n) := rfl

end Sys2Proof.Laws
end

