-- ==== Sys2Proof/Tests/Slice0.lean ====
section
/-! SUPPORT. Tests: words written out from the spec decode to their instructions, ill-formed terms are refused, small examples of the spec, and for
every statement a state and operands that meet its hypotheses. -/

set_option Elab.async false

namespace Sys2Proof.Tests

open Sys2Proof Sys2Proof.Machine

/-- Every point of class CTRL, its word laid out by hand from 02 section 2.4, decodes to its instruction. -/
theorem test_decode_ctrl : ∀ p ∈ ([
    (0x0000000000001600, .nop ⟨⟨3, true⟩, 0, .v 0, false⟩),
    (0x003FFFFFBBC01601, .bra ⟨⟨3, true⟩, 0xFFFFFEEF, .v 0, false⟩),
    (0x017FFFFFBB801602, .brp ⟨⟨3, true⟩, 0xFFFFFEEE, .v 5, false⟩),
    (0x217FFFFFBB401603, .brrZ ⟨⟨3, true⟩, 0xFFFFFEED, .v 133, false⟩),
    (0x423FFFFFBB001604, .brrNz ⟨⟨3, true⟩, 0xFFFFFEEC, .z, false⟩),
    (0x21FFFFFFBAC01605, .brrLt ⟨⟨3, true⟩, 0xFFFFFEEB, .v 135, false⟩),
    (0x223FFFFFBA801606, .brrGe ⟨⟨3, true⟩, 0xFFFFFEEA, .v 136, false⟩),
    (0x227FFFFFBA401607, .loop ⟨⟨3, true⟩, 0xFFFFFEE9, .v 137, false⟩),
    (0x803FFFFFBA001608, .call ⟨⟨3, true⟩, 0xFFFFFEE8, .v 0, true⟩),
    (0xC200000000001609, .calli ⟨⟨3, true⟩, 0, .z, true⟩),
    (0x000000000000160A, .ret ⟨⟨3, true⟩, 0, .v 0, false⟩),
    (0x210000000000160B, .jmpi ⟨⟨3, true⟩, 0, .v 132, false⟩),
    (0x41FFFFFFB900160C, .brt ⟨⟨3, true⟩, 0xFFFFFEE4, .q 7, false⟩),
    (0x000000000000160D, .exit ⟨⟨3, true⟩, 0, .v 0, false⟩),
    (0x420000000000160E, .park ⟨⟨3, true⟩, 0, .z, false⟩),
    (0x000000000000160F, .yield ⟨⟨3, true⟩, 0, .v 0, false⟩)] : List (Nat × Instr)), decodeWord p.1 = .ok p.2 := by
  simp only [List.forall_mem_cons]
  exact ⟨rfl, rfl, rfl, rfl, rfl, rfl, rfl, rfl, rfl, rfl, rfl, rfl, rfl, rfl, rfl, rfl, fun _ h => nomatch h⟩

/-- Every point of class IALU, its word laid out by hand from 02 section 2.4, decodes to its instruction. -/
theorem test_decode_ialu : ∀ p ∈ ([
    (0x0040008342011620, .add ⟨⟨3, true⟩, .v 8, .z, .q 6, .v 0, 0, 0, true, 0, 0⟩),
    (0x0040001586203621, .sub ⟨⟨3, true⟩, .q 1, .v 24, .v 43, .v 0, 0, 0, true, 0, 0⟩),
    (0x2680008406415622, .addc ⟨⟨3, true⟩, .v 10, .v 25, .z, .v 0, 0, 0, false, 5, 9⟩),
    (0x2680001241A11623, .subb ⟨⟨3, true⟩, .z, .q 6, .v 36, .v 0, 0, 0, false, 5, 9⟩),
    (0x0040000006C19624, .neg ⟨⟨3, true⟩, .v 12, .v 27, .v 0, .v 0, 0, 0, true, 0, 0⟩),
    (0x004000004201B625, .abs ⟨⟨3, true⟩, .v 13, .z, .v 0, .v 0, 0, 0, true, 0, 0⟩),
    (0x000000138520D626, .minS ⟨⟨3, true⟩, .q 6, .v 20, .v 39, .v 0, 0, 0, false, 0, 0⟩),
    (0x000000840541F627, .minN ⟨⟨3, true⟩, .v 15, .v 21, .z, .v 0, 0, 0, false, 0, 0⟩),
    (0x00000014C0E11628, .maxS ⟨⟨3, true⟩, .z, .q 3, .v 41, .v 0, 0, 0, false, 0, 0⟩),
    (0x0000001505C11629, .maxN ⟨⟨3, true⟩, .v 8, .v 23, .v 42, .v 0, 0, 0, false, 0, 0⟩),
    (0x000000804201362A, .and ⟨⟨3, true⟩, .v 9, .z, .q 0, .v 0, 0, 0, false, 0, 0⟩),
    (0x000000160660762B, .or ⟨⟨3, true⟩, .q 3, .v 25, .v 44, .v 0, 0, 0, false, 0, 0⟩),
    (0x000000840681762C, .xor ⟨⟨3, true⟩, .v 11, .v 26, .z, .v 0, 0, 0, false, 0, 0⟩),
    (0x00000012C021162D, .andn ⟨⟨3, true⟩, .z, .q 0, .v 37, .v 0, 0, 0, false, 0, 0⟩),
    (0x000000000701B62E, .not ⟨⟨3, true⟩, .v 13, .v 28, .v 0, .v 0, 0, 0, false, 0, 0⟩),
    (0x00000082C201D62F, .shl ⟨⟨3, true⟩, .v 14, .z, .q 5, .v 0, 0, 0, false, 0, 0⟩),
    (0x0000001405601630, .shr ⟨⟨3, true⟩, .q 0, .v 21, .v 40, .v 0, 0, 0, false, 0, 0⟩),
    (0x0000008405821631, .sar ⟨⟨3, true⟩, .v 16, .v 22, .z, .v 0, 0, 0, false, 0, 0⟩),
    (0x0000001541611632, .rol ⟨⟨3, true⟩, .z, .q 5, .v 42, .v 0, 0, 0, false, 0, 0⟩),
    (0x0000000006013633, .clz ⟨⟨3, true⟩, .v 9, .v 24, .v 0, .v 0, 0, 0, false, 0, 0⟩),
    (0x0000000042015634, .popc ⟨⟨3, true⟩, .v 10, .z, .v 0, .v 0, 0, 0, false, 0, 0⟩),
    (0x0000000006A0B635, .brev ⟨⟨3, true⟩, .q 5, .v 26, .v 0, .v 0, 0, 0, false, 0, 0⟩),
    (0x2400008406C19636, .sel ⟨⟨3, true⟩, .v 12, .v 27, .z, .v 0, 0, 0, false, 0, 9⟩),
    (0x0000000040A11637, .mov ⟨⟨3, true⟩, .z, .q 2, .v 0, .v 0, 0, 0, false, 0, 0⟩),
    (0x6F56DF740001D638, .movi ⟨⟨3, true⟩, .v 14, .v 0, 0xDEADBEE8⟩),
    (0x6F56DF74C201F639, .lea ⟨⟨3, true⟩, .v 15, .z, 0xDEADBEE9⟩),
    (0x128000148580163A, .cmpS ⟨⟨3, true⟩, .v 0, .v 22, .v 41, .v 0, 0, 0, false, 5, 4⟩),
    (0x1280008405C0163B, .cmpN ⟨⟨3, true⟩, .v 0, .v 23, .z, .v 0, 0, 0, false, 5, 4⟩),
    (0x2C000015C1E1163C, .iset ⟨⟨3, true⟩, .z, .q 7, .v 43, .v 0, 0, 0, false, 0, 11⟩),
    (0x0280070381C0163D, .plog ⟨⟨3, true⟩, .v 0, .v 7, .v 7, .v 7, 0, 0, false, 5, 0⟩),
    (0x004000824201963E, .add64 ⟨⟨3, true⟩, .v 12, .z, .q 4, .v 0, 0, 0, true, 0, 0⟩),
    (0x004000130620F63F, .sub64 ⟨⟨3, true⟩, .q 7, .v 24, .v 38, .v 0, 0, 0, true, 0, 0⟩)] : List (Nat × Instr)), decodeWord p.1 = .ok p.2 := by
  simp only [List.forall_mem_cons]
  exact ⟨rfl, rfl, rfl, rfl, rfl, rfl, rfl, rfl, rfl, rfl, rfl, rfl, rfl, rfl, rfl, rfl, rfl, rfl, rfl, rfl, rfl, rfl, rfl, rfl, rfl, rfl, rfl, rfl, rfl, rfl, rfl, rfl, fun _ h => nomatch h⟩

/-- Every point of class IMUL, its word laid out by hand from 02 section 2.4, decodes to its instruction. -/
theorem test_decode_imul : ∀ p ∈ ([
    (0x004000840701B640, .mul ⟨⟨3, true⟩, .v 13, .v 28, .z, .v 0, 0, 0, true, 0, 0⟩),
    (0x00000013C1211641, .mulhS ⟨⟨3, true⟩, .z, .q 4, .v 39, .v 0, 0, 0, false, 0, 0⟩),
    (0x000000140541F642, .mulhN ⟨⟨3, true⟩, .v 15, .v 21, .v 40, .v 0, 0, 0, false, 0, 0⟩),
    (0x00403C80C2021643, .mad ⟨⟨3, true⟩, .v 16, .z, .q 1, .v 60, 0, 0, true, 0, 0⟩),
    (0x0000341505E09644, .madhS ⟨⟨3, true⟩, .q 4, .v 23, .v 42, .v 52, 0, 0, false, 0, 0⟩),
    (0x0001068406013645, .madhN ⟨⟨3, true⟩, .v 9, .v 24, .z, .q 6, 0, 0, false, 0, 0⟩),
    (0x0000001640611646, .mul64S ⟨⟨3, true⟩, .z, .q 1, .v 44, .v 0, 0, 0, false, 0, 0⟩),
    (0x000000120681D647, .mul64N ⟨⟨3, true⟩, .v 14, .v 26, .v 36, .v 0, 0, 0, false, 0, 0⟩),
    (0x0000368342011648, .mad64S ⟨⟨3, true⟩, .v 8, .z, .q 6, .v 54, 0, 0, false, 0, 0⟩),
    (0x0000381307203649, .mad64N ⟨⟨3, true⟩, .q 1, .v 28, .v 38, .v 56, 0, 0, false, 0, 0⟩),
    (0x004103840501D64A, .dot4Ss ⟨⟨3, true⟩, .v 14, .v 20, .z, .q 3, 0, 0, true, 0, 0⟩),
    (0x00403B1441A1164B, .dot4Nn ⟨⟨3, true⟩, .z, .q 6, .v 40, .v 59, 0, 0, true, 0, 0⟩),
    (0x004108148582164C, .dot4Sn ⟨⟨3, true⟩, .v 16, .v 22, .v 41, .z, 0, 0, true, 0, 0⟩),
    (0x00403481C201164D, .dot2 ⟨⟨3, true⟩, .v 8, .z, .q 3, .v 52, 0, 0, true, 0, 0⟩)] : List (Nat × Instr)), decodeWord p.1 = .ok p.2 := by
  simp only [List.forall_mem_cons]
  exact ⟨rfl, rfl, rfl, rfl, rfl, rfl, rfl, rfl, rfl, rfl, rfl, rfl, rfl, rfl, fun _ h => nomatch h⟩

/-- Every point of class IDIV, its word laid out by hand from 02 section 2.4, decodes to its instruction. -/
theorem test_decode_idiv : ∀ p ∈ ([
    (0x0004001586013660, .divS ⟨⟨3, true⟩, .v 9, .v 24, .v 43, .v 0, 2, 0, false, 0, 0⟩),
    (0x0006008406415661, .divN ⟨⟨3, true⟩, .v 10, .v 25, .z, .v 0, 3, 0, false, 0, 0⟩),
    (0x0002001240E11662, .remS ⟨⟨3, true⟩, .z, .q 3, .v 36, .v 0, 1, 0, false, 0, 0⟩),
    (0x0004001286C19663, .remN ⟨⟨3, true⟩, .v 12, .v 27, .v 37, .v 0, 2, 0, false, 0, 0⟩),
    (0x000E00804201B664, .divrS ⟨⟨3, true⟩, .v 13, .z, .q 0, .v 0, 3, 1, false, 0, 0⟩),
    (0x001200138501D665, .divrN ⟨⟨3, true⟩, .v 14, .v 20, .v 39, .v 0, 1, 2, false, 0, 0⟩),
    (0x0004008406811666, .div64S ⟨⟨3, true⟩, .v 8, .v 26, .z, .v 0, 2, 0, false, 0, 0⟩),
    (0x0006001540211667, .div64N ⟨⟨3, true⟩, .z, .q 0, .v 42, .v 0, 3, 0, false, 0, 0⟩)] : List (Nat × Instr)), decodeWord p.1 = .ok p.2 := by
  simp only [List.forall_mem_cons]
  exact ⟨rfl, rfl, rfl, rfl, rfl, rfl, rfl, rfl, fun _ h => nomatch h⟩

/-- Every point of class PACK, its word laid out by hand from 02 section 2.4, decodes to its instruction. -/
theorem test_decode_pack : ∀ p ∈ ([
    (0x0000001505C11680, .bfxS ⟨⟨3, true⟩, .v 8, .v 23, .v 42, .v 0, 0, 0, false, 0, 0⟩),
    (0x00000082C2013681, .bfxN ⟨⟨3, true⟩, .v 9, .z, .q 5, .v 0, 0, 0, false, 0, 0⟩),
    (0x0000361606601682, .bfi ⟨⟨3, true⟩, .q 0, .v 25, .v 44, .v 54, 0, 0, false, 0, 0⟩),
    (0x0001028406817683, .prmb ⟨⟨3, true⟩, .v 11, .v 26, .z, .q 2, 0, 0, false, 0, 0⟩),
    (0x1800000041611684, .unpk3 ⟨⟨3, true⟩, .z, .q 5, .v 0, .v 0, 0, 0, false, 0, 6⟩),
    (0x180108000701B685, .pack3 ⟨⟨3, true⟩, .v 13, .v 28, .v 0, .z, 0, 0, false, 0, 6⟩),
    (0x0C0000814201D686, .tacc ⟨⟨3, true⟩, .v 14, .z, .q 2, .v 0, 0, 0, false, 0, 3⟩),
    (0x180000000560B687, .satnS ⟨⟨3, true⟩, .q 5, .v 21, .v 0, .v 0, 0, 0, false, 0, 6⟩),
    (0x1800000005821688, .satnN ⟨⟨3, true⟩, .v 16, .v 22, .v 0, .v 0, 0, 0, false, 0, 6⟩),
    (0x0040001540A11689, .pk16 ⟨⟨3, true⟩, .z, .q 2, .v 42, .v 0, 0, 0, true, 0, 0⟩),
    (0x000000000601968A, .upk8S ⟨⟨3, true⟩, .v 12, .v 24, .v 0, .v 0, 0, 0, false, 0, 0⟩),
    (0x000000004202168B, .upk8N ⟨⟨3, true⟩, .v 16, .z, .v 0, .v 0, 0, 0, false, 0, 0⟩),
    (0x040000000681168C, .upk4S ⟨⟨3, true⟩, .v 8, .v 26, .v 0, .v 0, 0, 0, false, 0, 1⟩),
    (0x0400000006C1968D, .upk4N ⟨⟨3, true⟩, .v 12, .v 27, .v 0, .v 0, 0, 0, false, 0, 1⟩),
    (0x004000000721168E, .pkb ⟨⟨3, true⟩, .z, .v 28, .v 0, .v 0, 0, 0, true, 0, 0⟩),
    (0x000000138501D68F, .msk ⟨⟨3, true⟩, .v 14, .v 20, .v 39, .v 0, 0, 0, false, 0, 0⟩)] : List (Nat × Instr)), decodeWord p.1 = .ok p.2 := by
  simp only [List.forall_mem_cons]
  exact ⟨rfl, rfl, rfl, rfl, rfl, rfl, rfl, rfl, rfl, rfl, rfl, rfl, rfl, rfl, rfl, rfl, fun _ h => nomatch h⟩

/-- Every point of class FALU, its word laid out by hand from 02 section 2.4, decodes to its instruction. -/
theorem test_decode_falu : ∀ p ∈ ([
    (0x000800824201F6A0, .faddF32 ⟨⟨3, true⟩, .v 15, .z, .q 4, .v 0, 0, 1, false, 0, 0⟩),
    (0x0010001485A0F6A1, .faddF16x2 ⟨⟨3, true⟩, .q 7, .v 22, .v 41, .v 0, 0, 2, false, 0, 0⟩),
    (0x0018008405C116A2, .faddBf16x2 ⟨⟨3, true⟩, .v 8, .v 23, .z, .v 0, 0, 3, false, 0, 0⟩),
    (0x00200015C12116A3, .fsubF32 ⟨⟨3, true⟩, .z, .q 4, .v 43, .v 0, 0, 4, false, 0, 0⟩),
    (0x00280016064156A4, .fsubF16x2 ⟨⟨3, true⟩, .v 10, .v 25, .v 44, .v 0, 0, 5, false, 0, 0⟩),
    (0x00080080C20176A5, .fsubBf16x2 ⟨⟨3, true⟩, .v 11, .z, .q 1, .v 0, 0, 1, false, 0, 0⟩),
    (0x0010001286E096A6, .fmulF32 ⟨⟨3, true⟩, .q 4, .v 27, .v 37, .v 0, 0, 2, false, 0, 0⟩),
    (0x001800840701B6A7, .fmulF16x2 ⟨⟨3, true⟩, .v 13, .v 28, .z, .v 0, 0, 3, false, 0, 0⟩),
    (0x00200013C06116A8, .fmulBf16x2 ⟨⟨3, true⟩, .z, .q 1, .v 39, .v 0, 0, 4, false, 0, 0⟩),
    (0x002908140541F6A9, .fmaF32 ⟨⟨3, true⟩, .v 15, .v 21, .v 40, .z, 0, 5, false, 0, 0⟩),
    (0x00083C83420216AA, .fmaF16x2 ⟨⟨3, true⟩, .v 16, .z, .q 6, .v 60, 0, 1, false, 0, 0⟩),
    (0x0010341505E036AB, .fmaBf16x2 ⟨⟨3, true⟩, .q 1, .v 23, .v 42, .v 52, 0, 2, false, 0, 0⟩),
    (0x00000084060136AC, .fminF32 ⟨⟨3, true⟩, .v 9, .v 24, .z, .v 0, 0, 0, false, 0, 0⟩),
    (0x0000001641A116AD, .fminF16x2 ⟨⟨3, true⟩, .z, .q 6, .v 44, .v 0, 0, 0, false, 0, 0⟩),
    (0x00000012068176AE, .fminBf16x2 ⟨⟨3, true⟩, .v 11, .v 26, .v 36, .v 0, 0, 0, false, 0, 0⟩),
    (0x00000081C20196AF, .fmaxF32 ⟨⟨3, true⟩, .v 12, .z, .q 3, .v 0, 0, 0, false, 0, 0⟩),
    (0x000000130720D6B0, .fmaxF16x2 ⟨⟨3, true⟩, .q 6, .v 28, .v 38, .v 0, 0, 0, false, 0, 0⟩),
    (0x000000840501D6B1, .fmaxBf16x2 ⟨⟨3, true⟩, .v 14, .v 20, .z, .v 0, 0, 0, false, 0, 0⟩),
    (0x1A80001440C016B2, .fcmpF32 ⟨⟨3, true⟩, .v 0, .q 3, .v 40, .v 0, 0, 0, false, 5, 6⟩),
    (0x1A000014858016B3, .fcmpF16x2 ⟨⟨3, true⟩, .v 0, .v 22, .v 41, .v 0, 0, 0, false, 4, 6⟩),
    (0x1A000080420016B4, .fcmpBf16x2 ⟨⟨3, true⟩, .v 0, .z, .q 0, .v 0, 0, 0, false, 4, 6⟩),
    (0x18000015862076B5, .fsetF32 ⟨⟨3, true⟩, .q 3, .v 24, .v 43, .v 0, 0, 0, false, 0, 6⟩),
    (0x18000084064156B6, .fsetF16x2 ⟨⟨3, true⟩, .v 10, .v 25, .z, .v 0, 0, 0, false, 0, 6⟩),
    (0x18000012402116B7, .fsetBf16x2 ⟨⟨3, true⟩, .z, .q 0, .v 36, .v 0, 0, 0, false, 0, 6⟩),
    (0x0000000006C196B8, .fclsF32 ⟨⟨3, true⟩, .v 12, .v 27, .v 0, .v 0, 0, 0, false, 0, 0⟩),
    (0x000000004201B6B9, .fclsF16x2 ⟨⟨3, true⟩, .v 13, .z, .v 0, .v 0, 0, 0, false, 0, 0⟩),
    (0x00000000052016BA, .fclsBf16x2 ⟨⟨3, true⟩, .q 0, .v 20, .v 0, .v 0, 0, 0, false, 0, 0⟩),
    (0x240000840541F6BB, .fsel ⟨⟨3, true⟩, .v 15, .v 21, .z, .v 0, 0, 0, false, 0, 9⟩),
    (0x00203C14C16116BC, .fdot2F16 ⟨⟨3, true⟩, .z, .q 5, .v 41, .v 60, 0, 4, false, 0, 0⟩),
    (0x0029081505C116BD, .fdot2Bf16 ⟨⟨3, true⟩, .v 8, .v 23, .v 42, .z, 0, 5, false, 0, 0⟩),
    (0x00080081420136BE, .fscl ⟨⟨3, true⟩, .v 9, .z, .q 2, .v 0, 0, 1, false, 0, 0⟩),
    (0x001000000660B6BF, .ffrc ⟨⟨3, true⟩, .q 5, .v 25, .v 0, .v 0, 0, 2, false, 0, 0⟩)] : List (Nat × Instr)), decodeWord p.1 = .ok p.2 := by
  simp only [List.forall_mem_cons]
  exact ⟨rfl, rfl, rfl, rfl, rfl, rfl, rfl, rfl, rfl, rfl, rfl, rfl, rfl, rfl, rfl, rfl, rfl, rfl, rfl, rfl, rfl, rfl, rfl, rfl, rfl, rfl, rfl, rfl, rfl, rfl, rfl, rfl, fun _ h => nomatch h⟩

/-- Every point of class FSPC, its word laid out by hand from 02 section 2.4, decodes to its instruction. -/
theorem test_decode_fspc : ∀ p ∈ ([
    (0x001A0084068176C0, .fdivF32 ⟨⟨3, true⟩, .v 11, .v 26, .z, .v 0, 1, 3, false, 0, 0⟩),
    (0x00240012C0A116C1, .fdivF16 ⟨⟨3, true⟩, .z, .q 2, .v 37, .v 0, 2, 4, false, 0, 0⟩),
    (0x002E00000701B6C2, .fsqrtF32 ⟨⟨3, true⟩, .v 13, .v 28, .v 0, .v 0, 3, 5, false, 0, 0⟩),
    (0x000A00004201D6C3, .fsqrtF16 ⟨⟨3, true⟩, .v 14, .z, .v 0, .v 0, 1, 1, false, 0, 0⟩),
    (0x000400000541F6C4, .frcp ⟨⟨3, true⟩, .v 15, .v 21, .v 0, .v 0, 2, 0, false, 0, 0⟩),
    (0x00060000058216C5, .frsq ⟨⟨3, true⟩, .v 16, .v 22, .v 0, .v 0, 3, 0, false, 0, 0⟩),
    (0x0002000041E116C6, .fexp2 ⟨⟨3, true⟩, .z, .q 7, .v 0, .v 0, 1, 0, false, 0, 0⟩),
    (0x00040000060136C7, .flog2 ⟨⟨3, true⟩, .v 9, .v 24, .v 0, .v 0, 2, 0, false, 0, 0⟩),
    (0x00060000420156C8, .fsin ⟨⟨3, true⟩, .v 10, .z, .v 0, .v 0, 3, 0, false, 0, 0⟩),
    (0x00020000068176C9, .fcos ⟨⟨3, true⟩, .v 11, .v 26, .v 0, .v 0, 1, 0, false, 0, 0⟩),
    (0x001C000006C196CA, .frndF32 ⟨⟨3, true⟩, .v 12, .v 27, .v 0, .v 0, 2, 3, false, 0, 0⟩),
    (0x00260000412116CB, .frndF16x2 ⟨⟨3, true⟩, .z, .q 4, .v 0, .v 0, 3, 4, false, 0, 0⟩),
    (0x002A00000501D6CC, .frndBf16x2 ⟨⟨3, true⟩, .v 14, .v 20, .v 0, .v 0, 1, 5, false, 0, 0⟩),
    (0x000C00004201F6CD, .cvtF32S32 ⟨⟨3, true⟩, .v 15, .z, .v 0, .v 0, 2, 1, false, 0, 0⟩),
    (0x00160000058216CE, .cvtF32N32 ⟨⟨3, true⟩, .v 16, .v 22, .v 0, .v 0, 3, 2, false, 0, 0⟩),
    (0x001A000005C116CF, .cvtS32F32 ⟨⟨3, true⟩, .v 8, .v 23, .v 0, .v 0, 1, 3, false, 0, 0⟩),
    (0x00240000406116D0, .cvtN32F32 ⟨⟨3, true⟩, .z, .q 1, .v 0, .v 0, 2, 4, false, 0, 0⟩),
    (0x002E0000064156D1, .cvtF16F32 ⟨⟨3, true⟩, .v 10, .v 25, .v 0, .v 0, 3, 5, false, 0, 0⟩),
    (0x00020000420176D2, .cvtF32F16 ⟨⟨3, true⟩, .v 11, .z, .v 0, .v 0, 1, 0, false, 0, 0⟩),
    (0x0014000006C196D3, .cvtBf16F32 ⟨⟨3, true⟩, .v 12, .v 27, .v 0, .v 0, 2, 2, false, 0, 0⟩),
    (0x000600000701B6D4, .cvtF32Bf16 ⟨⟨3, true⟩, .v 13, .v 28, .v 0, .v 0, 3, 0, false, 0, 0⟩),
    (0x00220013C1A116D5, .cvtF16x2F32 ⟨⟨3, true⟩, .z, .q 6, .v 39, .v 0, 1, 4, false, 0, 0⟩),
    (0x002C00140541F6D6, .cvtBf16x2F32 ⟨⟨3, true⟩, .v 15, .v 21, .v 40, .v 0, 2, 5, false, 0, 0⟩),
    (0x000E0000420216D7, .cvtF32S64 ⟨⟨3, true⟩, .v 16, .z, .v 0, .v 0, 3, 1, false, 0, 0⟩),
    (0x0012000005C196D8, .cvtS64F32 ⟨⟨3, true⟩, .v 12, .v 23, .v 0, .v 0, 1, 2, false, 0, 0⟩),
    (0x001C0000060136D9, .cvtF16Bf16 ⟨⟨3, true⟩, .v 9, .v 24, .v 0, .v 0, 2, 3, false, 0, 0⟩),
    (0x0026000040E116DA, .cvtBf16F16 ⟨⟨3, true⟩, .z, .q 3, .v 0, .v 0, 3, 4, false, 0, 0⟩),
    (0x002A0000068176DB, .cvtF16S32 ⟨⟨3, true⟩, .v 11, .v 26, .v 0, .v 0, 1, 5, false, 0, 0⟩)] : List (Nat × Instr)), decodeWord p.1 = .ok p.2 := by
  simp only [List.forall_mem_cons]
  exact ⟨rfl, rfl, rfl, rfl, rfl, rfl, rfl, rfl, rfl, rfl, rfl, rfl, rfl, rfl, rfl, rfl, rfl, rfl, rfl, rfl, rfl, rfl, rfl, rfl, rfl, rfl, rfl, rfl, fun _ h => nomatch h⟩

/-- Every point of class XDUC, its word laid out by hand from 02 section 2.4, decodes to its instruction. -/
theorem test_decode_xduc : ∀ p ∈ ([
    (0xEA574000018016E0, .xtld ⟨⟨3, true⟩, .v 0, 6, .v 0, .v 0, 0, 29, 0x2A5, 3⟩),
    (0x00000000018016E1, .xtrl ⟨⟨3, true⟩, .v 0, 6, .v 0, .v 0, 0, 0, 0, 0⟩),
    (0x00000000018016E2, .xrst ⟨⟨3, true⟩, .v 0, 6, .v 0, .v 0, 0, 0, 0, 0⟩),
    (0x000000AC31A116E3, .xdg ⟨⟨3, true⟩, .z, 6, .v 24, .v 43, 0, 0, 0, 0⟩),
    (0x00000420298196E4, .xdg2 ⟨⟨3, true⟩, .v 12, 6, .v 20, .z, 0, 0, 0, 0⟩),
    (0x000000020B8116E5, .xdu ⟨⟨3, true⟩, .v 8, 6, .q 5, .v 0, 0, 0, 0, 0⟩),
    (0x0000000001A016E6, .xfin ⟨⟨3, true⟩, .q 0, 6, .v 0, .v 0, 0, 0, 0, 0⟩),
    (0x00001000018016E7, .xcmp ⟨⟨3, true⟩, .v 0, 6, .v 0, .v 0, 2, 0, 0, 0⟩),
    (0x00000000002116E8, .xstr ⟨⟨3, true⟩, .z, 0, .v 0, .v 0, 0, 0, 0, 0⟩),
    (0x000000002A0016E9, .xstw ⟨⟨3, true⟩, .v 0, 0, .v 21, .v 0, 0, 0, 0, 0⟩),
    (0x000000020581B6EA, .xlen ⟨⟨3, true⟩, .v 13, 6, .q 2, .v 0, 0, 0, 0, 0⟩),
    (0x0000000001A0B6EB, .xqry ⟨⟨3, true⟩, .q 5, 6, .v 0, .v 0, 0, 0, 0, 0⟩)] : List (Nat × Instr)), decodeWord p.1 = .ok p.2 := by
  simp only [List.forall_mem_cons]
  exact ⟨rfl, rfl, rfl, rfl, rfl, rfl, rfl, rfl, rfl, rfl, rfl, rfl, fun _ h => nomatch h⟩

/-- Every point of class GRUP, its word laid out by hand from 02 section 2.4, decodes to its instruction. -/
theorem test_decode_grup : ∀ p ∈ ([
    (0x000000108B41F700, .gsumI32 ⟨⟨3, true⟩, .v 15, 45, .z, .v 0, .v 0, 0, 0⟩),
    (0x000000019B611701, .gsumF32 ⟨⟨3, true⟩, .z, 45, .v 25, .v 0, .v 0, 0, 0⟩),
    (0x000000018B411702, .gsumS64 ⟨⟨3, true⟩, .v 8, 45, .v 24, .v 0, .v 0, 0, 0⟩),
    (0x00000001BB413703, .gminS ⟨⟨3, true⟩, .v 9, 45, .v 27, .v 0, .v 0, 0, 0⟩),
    (0x00000001CB415704, .gminN ⟨⟨3, true⟩, .v 10, 45, .v 28, .v 0, .v 0, 0, 0⟩),
    (0x000000108B417705, .gminF ⟨⟨3, true⟩, .v 11, 45, .z, .v 0, .v 0, 0, 0⟩),
    (0x000000015B611706, .gmaxS ⟨⟨3, true⟩, .z, 45, .v 21, .v 0, .v 0, 0, 0⟩),
    (0x000000016B41B707, .gmaxN ⟨⟨3, true⟩, .v 13, 45, .v 22, .v 0, .v 0, 0, 0⟩),
    (0x000000017B41D708, .gmaxF ⟨⟨3, true⟩, .v 14, 45, .v 23, .v 0, .v 0, 0, 0⟩),
    (0x000000018B41F709, .gand ⟨⟨3, true⟩, .v 15, 45, .v 24, .v 0, .v 0, 0, 0⟩),
    (0x000000108B42170A, .gor ⟨⟨3, true⟩, .v 16, 45, .z, .v 0, .v 0, 0, 0⟩),
    (0x00000001AB61170B, .gxor ⟨⟨3, true⟩, .z, 45, .v 26, .v 0, .v 0, 0, 0⟩),
    (0x00000001BB41370C, .gscanI32Inc ⟨⟨3, true⟩, .v 9, 45, .v 27, .v 0, .v 0, 0, 0⟩),
    (0x00000001CB41570D, .gscanI32Exc ⟨⟨3, true⟩, .v 10, 45, .v 28, .v 0, .v 0, 0, 0⟩),
    (0x000000014B41770E, .gscanF32Inc ⟨⟨3, true⟩, .v 11, 45, .v 20, .v 0, .v 0, 0, 0⟩),
    (0x000000108B41970F, .gscanF32Exc ⟨⟨3, true⟩, .v 12, 45, .z, .v 0, .v 0, 0, 0⟩),
    (0x000005216B611710, .gsegI32 ⟨⟨3, true⟩, .z, 45, .v 22, .v 41, .v 0, 0, 0⟩),
    (0x000021017B41D711, .gsegF32 ⟨⟨3, true⟩, .v 14, 45, .v 23, .z, .v 0, 0, 0⟩),
    (0x7C0D40018B41F712, .gbcast ⟨⟨3, true⟩, .v 15, 45, .v 24, .v 0, .v 53, 0, 31⟩),
    (0x004205819B421713, .gshuf ⟨⟨3, true⟩, .v 16, 45, .v 25, .v 44, .z, 0, 0⟩),
    (0x0C0DC4908B411714, .gshufx ⟨⟨3, true⟩, .v 8, 45, .z, .v 36, .v 55, 0, 3⟩),
    (0x09800001BB611715, .gvote ⟨⟨3, true⟩, .z, 45, .v 27, .v 0, .v 0, 3, 2⟩),
    (0x00000001CB415716, .gcnt ⟨⟨3, true⟩, .v 10, 45, .v 28, .v 0, .v 0, 0, 0⟩),
    (0x018000000B417717, .gelect ⟨⟨3, true⟩, .v 11, 45, .v 0, .v 0, .v 0, 3, 0⟩),
    (0x018000015B419718, .grank ⟨⟨3, true⟩, .v 12, 45, .v 21, .v 0, .v 0, 3, 0⟩),
    (0x000000000B401719, .gsync ⟨⟨3, true⟩, .v 0, 45, .v 0, .v 0, .v 0, 0, 0⟩),
    (0x1C0000000B400F1A, .grow ⟨⟨7, false⟩, .v 0, 45, .v 0, .v 0, .v 0, 0, 7⟩),
    (0x1C0000000B400F1B, .shrink ⟨⟨7, false⟩, .v 0, 45, .v 0, .v 0, .v 0, 0, 7⟩)] : List (Nat × Instr)), decodeWord p.1 = .ok p.2 := by
  simp only [List.forall_mem_cons]
  exact ⟨rfl, rfl, rfl, rfl, rfl, rfl, rfl, rfl, rfl, rfl, rfl, rfl, rfl, rfl, rfl, rfl, rfl, rfl, rfl, rfl, rfl, rfl, rfl, rfl, rfl, rfl, rfl, rfl, fun _ h => nomatch h⟩

/-- Every point of class MEMS, its word laid out by hand from 02 section 2.4, decodes to its instruction. -/
theorem test_decode_mems : ∀ p ∈ ([
    (0x5579BD1008421720, .ld8s ⟨⟨3, true⟩, .v 16, 33, .q 0, 0xABCDE8, 2⟩),
    (0x5579BD0528411721, .ld8n ⟨⟨3, true⟩, .v 8, 33, .v 82, 0xABCDE8, 2⟩),
    (0x5579BD1088413722, .ld16s ⟨⟨3, true⟩, .v 9, 33, .z, 0xABCDE8, 2⟩),
    (0x5579BD0548611723, .ld16n ⟨⟨3, true⟩, .z, 33, .v 84, 0xABCDE8, 2⟩),
    (0x5579BD04C8417724, .ld32 ⟨⟨3, true⟩, .v 11, 33, .v 76, 0xABCDE8, 2⟩),
    (0x5579BD105841D725, .ld64 ⟨⟨3, true⟩, .v 14, 33, .q 5, 0xABCDE8, 2⟩),
    (0x5579BD04E8421726, .ld128 ⟨⟨3, true⟩, .v 16, 33, .v 78, 0xABCDE8, 2⟩),
    (0x5579BD108841D727, .st8 ⟨⟨3, true⟩, .v 14, 33, .z, 0xABCDE8, 2⟩),
    (0x5579BD0508611728, .st16 ⟨⟨3, true⟩, .z, 33, .v 80, 0xABCDE8, 2⟩),
    (0x5579BD0518421729, .st32 ⟨⟨3, true⟩, .v 16, 33, .v 81, 0xABCDE8, 2⟩),
    (0x5579BD102841172A, .st64 ⟨⟨3, true⟩, .v 8, 33, .q 2, 0xABCDE8, 2⟩),
    (0x5579BD053841972B, .st128 ⟨⟨3, true⟩, .v 12, 33, .v 83, 0xABCDE8, 2⟩),
    (0x32F560F08A41572C, .atom ⟨⟨3, true⟩, .v 10, 41, .z, .q 7, 5, 5, 3, 37, 1⟩),
    (0x32F58284CA61172D, .atom64 ⟨⟨3, true⟩, .z, 41, .v 76, .v 20, 6, 5, 3, 37, 1⟩),
    (0x32F42104DA41972E, .cas ⟨⟨3, true⟩, .v 12, 41, .v 77, .z, 0, 5, 3, 37, 1⟩),
    (0x32F403107A41572F, .cas64 ⟨⟨3, true⟩, .v 10, 41, .q 7, .v 24, 0, 5, 3, 37, 1⟩),
    (0x32D54344FA401730, .red ⟨⟨3, true⟩, .v 0, 41, .v 79, .v 26, 5, 5, 2, 37, 1⟩),
    (0x32D5A0908A401731, .red64 ⟨⟨3, true⟩, .v 0, 41, .z, .q 4, 6, 5, 2, 37, 1⟩),
    (0x5579BD0510211732, .ldsp ⟨⟨3, true⟩, .z, 0, .v 81, 0xABCDE8, 2⟩),
    (0x5579BD0520011733, .stsp ⟨⟨3, true⟩, .v 8, 0, .v 82, 0xABCDE8, 2⟩),
    (0x5579BD104840D734, .brld ⟨⟨3, true⟩, .v 6, 33, .q 4, 0xABCDE8, 2⟩),
    (0x40000004E0207735, .chcfg ⟨⟨3, true⟩, .q 3, 0, .v 78, 0, 2⟩),
    (0x5579BD1088609736, .chrd ⟨⟨3, true⟩, .q 4, 33, .z, 0xABCDE8, 2⟩),
    (0x5579BD04D860B737, .chwr ⟨⟨3, true⟩, .q 5, 33, .v 77, 0xABCDE8, 2⟩),
    (0x400000105001B738, .chcnt ⟨⟨3, true⟩, .v 13, 0, .q 5, 0, 2⟩),
    (0x400000000020F739, .chcls ⟨⟨3, true⟩, .q 7, 0, .v 0, 0, 2⟩)] : List (Nat × Instr)), decodeWord p.1 = .ok p.2 := by
  simp only [List.forall_mem_cons]
  exact ⟨rfl, rfl, rfl, rfl, rfl, rfl, rfl, rfl, rfl, rfl, rfl, rfl, rfl, rfl, rfl, rfl, rfl, rfl, rfl, rfl, rfl, rfl, rfl, rfl, rfl, rfl, fun _ h => nomatch h⟩

/-- Every point of class ENGN, its word laid out by hand from 02 section 2.4, decodes to its instruction. -/
theorem test_decode_engn : ∀ p ∈ ([
    (0x2607080224609740, .cpy ⟨⟨3, true⟩, .q 4, 17, 34, 0, .z, .q 3, 9, 0⟩),
    (0x24F2000224421741, .cpy2 ⟨⟨3, true⟩, .v 16, 17, 34, 0, .v 0, .v 121, 9, 0⟩),
    (0x061067CE24611742, .cpyx ⟨⟨3, true⟩, .z, 17, 34, 51, .v 103, .z, 1, 0⟩),
    (0x24F6000220001743, .cpyt ⟨⟨3, true⟩, .v 0, 0, 34, 0, .v 0, .v 123, 9, 0⟩),
    (0x24F8690224415744, .mcast ⟨⟨3, true⟩, .v 10, 17, 34, 0, .v 105, .v 124, 9, 0⟩),
    (0x2601080004603745, .fill ⟨⟨3, true⟩, .q 1, 17, 0, 0, .z, .q 0, 9, 0⟩),
    (0x40EA6BCE24419746, .gath ⟨⟨3, true⟩, .v 12, 17, 34, 51, .v 107, .v 117, 0, 1⟩),
    (0x42106CCE24611747, .gath64 ⟨⟨3, true⟩, .z, 17, 34, 51, .v 108, .z, 0, 1⟩),
    (0x40EF00CE2441D748, .scat ⟨⟨3, true⟩, .v 14, 17, 34, 51, .q 0, .v 119, 0, 1⟩),
    (0x40F065CE2441F749, .scata ⟨⟨3, true⟩, .v 15, 17, 34, 51, .v 101, .v 120, 0, 1⟩),
    (0x420B08CE2460D74A, .scata64 ⟨⟨3, true⟩, .q 6, 17, 34, 51, .z, .q 5, 0, 1⟩),
    (0x40F467CE2441174B, .sump ⟨⟨3, true⟩, .v 8, 17, 34, 51, .v 103, .v 122, 0, 1⟩),
    (0x421068CE2461174C, .sumpw ⟨⟨3, true⟩, .z, 17, 34, 51, .v 104, .z, 0, 1⟩),
    (0x80F905000440174D, .sigAdd ⟨⟨3, true⟩, .v 0, 17, 0, 0, .q 5, .v 124, 0, 2⟩),
    (0x80E868000440174E, .sigSet ⟨⟨3, true⟩, .v 0, 17, 0, 0, .v 104, .v 116, 0, 2⟩),
    (0x820508000440174F, .swait ⟨⟨3, true⟩, .v 0, 17, 0, 0, .z, .q 2, 0, 2⟩),
    (0x80EC00CE2001B750, .coll ⟨⟨3, true⟩, .v 13, 0, 34, 51, .v 0, .v 118, 0, 2⟩),
    (0x800000CC00001751, .ccan ⟨⟨3, true⟩, .v 0, 0, 0, 51, .v 0, .v 0, 0, 2⟩),
    (0x800000CC00019752, .cstat ⟨⟨3, true⟩, .v 12, 0, 0, 51, .v 0, .v 0, 0, 2⟩),
    (0xC000070000001753, .waitc ⟨⟨3, true⟩, .v 0, 0, 0, 0, .v 7, .v 0, 0, 3⟩),
    (0xC000020000011754, .rdc ⟨⟨3, true⟩, .v 8, 0, 0, 0, .v 2, .v 0, 0, 3⟩),
    (0x40F6000220013755, .probe ⟨⟨3, true⟩, .v 9, 0, 34, 0, .v 0, .v 123, 0, 1⟩),
    (0xC000000000211756, .ecan ⟨⟨3, true⟩, .z, 0, 0, 0, .v 0, .v 0, 0, 3⟩),
    (0x0000000000001757, .fencee ⟨⟨3, true⟩, .v 0, 0, 0, 0, .v 0, .v 0, 0, 0⟩)] : List (Nat × Instr)), decodeWord p.1 = .ok p.2 := by
  simp only [List.forall_mem_cons]
  exact ⟨rfl, rfl, rfl, rfl, rfl, rfl, rfl, rfl, rfl, rfl, rfl, rfl, rfl, rfl, rfl, rfl, rfl, rfl, rfl, rfl, rfl, rfl, rfl, rfl, fun _ h => nomatch h⟩

/-- Every point of class MTRX, its word laid out by hand from 02 section 2.4, decodes to its instruction. -/
theorem test_decode_mtrx : ∀ p ∈ ([
    (0x00B0006000001760, .ttset ⟨⟨3, true⟩, .v 0, 0, .v 24, .v 0, 0xB⟩),
    (0x00B0000000021761, .ttget ⟨⟨3, true⟩, .v 16, 0, .v 0, .v 0, 0xB⟩),
    (0x0000042000001762, .mstart ⟨⟨3, true⟩, .v 0, 0, .z, .v 0, 0⟩),
    (0x0000000000001763, .mstop ⟨⟨3, true⟩, .v 0, 0, .v 0, .v 0, 0⟩),
    (0x0000000000011764, .mstat ⟨⟨3, true⟩, .v 8, 0, .v 0, .v 0, 0⟩),
    (0x09C4D0A040034170, .mmac ⟨2, 6, 0, 0, 0x81, 0x42, 0x13, 0x27, 0⟩),
    (0x0000000000004171, .mzero ⟨2, 0, 0, 0, 0, 0, 0, 0, 0⟩),
    (0xC9C4C00001704172, .mdrain ⟨2, 0, 0x5C, 0, 0, 0, 0x13, 0x27, 3⟩),
    (0x000000002C000173, .mbara ⟨0, 0, 0, 11, 0, 0, 0, 0, 0⟩),
    (0x000000002C000174, .mbarw ⟨0, 0, 0, 11, 0, 0, 0, 0, 0⟩),
    (0x09C4D0A040000175, .mloop ⟨0, 0, 0, 0, 0x81, 0x42, 0x13, 0x27, 0⟩),
    (0x4000000000000175, .mloopEnd ⟨0, 0, 0, 0, 0, 0, 0, 0, 1⟩),
    (0x09C4D0A040000176, .mjmp ⟨0, 0, 0, 0, 0x81, 0x42, 0x13, 0x27, 0⟩),
    (0x0000000000000177, .mend ⟨0, 0, 0, 0, 0, 0, 0, 0, 0⟩),
    (0x4000000000000178, .mred ⟨0, 0, 0, 0, 0, 0, 0, 0, 1⟩),
    (0x0000000001704179, .mldacc ⟨2, 0, 0x5C, 0, 0, 0, 0, 0, 0⟩),
    (0x000000000170417A, .mstacc ⟨2, 0, 0x5C, 0, 0, 0, 0, 0, 0⟩),
    (0x000000000172817B, .msel ⟨0, 5, 0x5C, 0, 0, 0, 0, 0, 0⟩),
    (0x000000204002817C, .mscl ⟨0, 5, 0, 0, 0x81, 0, 0, 0, 0⟩),
    (0x000000204000017D, .mwaitc ⟨0, 0, 0, 0, 0x81, 0, 0, 0, 0⟩),
    (0x000000000000017E, .mnop ⟨0, 0, 0, 0, 0, 0, 0, 0, 0⟩)] : List (Nat × Instr)), decodeWord p.1 = .ok p.2 := by
  simp only [List.forall_mem_cons]
  exact ⟨rfl, rfl, rfl, rfl, rfl, rfl, rfl, rfl, rfl, rfl, rfl, rfl, rfl, rfl, rfl, rfl, rfl, rfl, rfl, rfl, rfl, fun _ h => nomatch h⟩

/-- Every point of class SYNC, its word laid out by hand from 02 section 2.4, decodes to its instruction. -/
theorem test_decode_sync : ∀ p ∈ ([
    (0x0150000000001780, .fence ⟨⟨3, true⟩, .v 0, 0, .v 0, .v 0, 0x15⟩),
    (0x00B0000000000F81, .bar ⟨⟨7, false⟩, .v 0, 0, .v 0, .v 0, 0xB⟩),
    (0x00B0000000000F82, .bara ⟨⟨7, false⟩, .v 0, 0, .v 0, .v 0, 0xB⟩),
    (0x00B0000000000F83, .barw ⟨⟨7, false⟩, .v 0, 0, .v 0, .v 0, 0xB⟩),
    (0x1250000000001784, .bari ⟨⟨3, true⟩, .v 0, 0, .v 0, .v 0, 0x125⟩),
    (0x0000000000000F85, .gbara ⟨⟨7, false⟩, .v 0, 0, .v 0, .v 0, 0⟩),
    (0x0000000000000F86, .gbarw ⟨⟨7, false⟩, .v 0, 0, .v 0, .v 0, 0⟩),
    (0x003134200001F787, .sealRange ⟨⟨3, true⟩, .v 15, 0, .z, .v 38, 3⟩),
    (0x0000006400211788, .unsealEntry ⟨⟨3, true⟩, .z, 0, .v 25, .v 0, 0⟩),
    (0x1579BD0528411789, .waits ⟨⟨3, true⟩, .v 8, 33, .v 82, 0xABCDE8, 0⟩),
    (0x000000000000178A, .fencei ⟨⟨3, true⟩, .v 0, 0, .v 0, .v 0, 0⟩)] : List (Nat × Instr)), decodeWord p.1 = .ok p.2 := by
  simp only [List.forall_mem_cons]
  exact ⟨rfl, rfl, rfl, rfl, rfl, rfl, rfl, rfl, rfl, rfl, rfl, fun _ h => nomatch h⟩

/-- Every point of class SYST, its word laid out by hand from 02 section 2.4, decodes to its instruction. -/
theorem test_decode_syst : ∀ p ∈ ([
    (0x00000000084117A0, .srd ⟨⟨3, true⟩, .v 8, 0x21, .v 0, .v 0, 0⟩),
    (0x00000420084017A1, .swr ⟨⟨3, true⟩, .v 0, 0x21, .z, .v 0, 0⟩),
    (0x5A300000000017A2, .trap ⟨⟨3, true⟩, .v 0, 0, .v 0, .v 0, 0x5A3⟩),
    (0x5A300000000017A3, .brk ⟨⟨3, true⟩, .v 0, 0, .v 0, .v 0, 0x5A3⟩),
    (0x00200000000017A4, .reth ⟨⟨3, true⟩, .v 0, 0, .v 0, .v 0, 2⟩),
    (0x00B00060002037A5, .launch ⟨⟨3, true⟩, .q 1, 0, .v 24, .v 0, 0xB⟩),
    (0x00000000000017A6, .launchw ⟨⟨3, true⟩, .v 0, 0, .v 0, .v 0, 0⟩),
    (0x00B00068002117A7, .task ⟨⟨3, true⟩, .z, 0, .v 26, .v 0, 0xB⟩),
    (0x00B0006C000137A8, .taskp ⟨⟨3, true⟩, .v 9, 0, .v 27, .v 0, 0xB⟩),
    (0x0000040C000017A9, .tasks ⟨⟨3, true⟩, .v 0, 0, .q 3, .v 0, 0⟩),
    (0x00713850000017AA, .amsg ⟨⟨3, true⟩, .v 0, 0, .v 20, .v 39, 7⟩),
    (0x00700050000017AB, .amsgr ⟨⟨3, true⟩, .v 0, 0, .v 20, .v 0, 7⟩),
    (0x00780502900017AC, .region ⟨⟨3, true⟩, .v 0, .v 64, 0xF00A05⟩),
    (0x00700000000157AD, .perf ⟨⟨3, true⟩, .v 10, 0, .v 0, .v 0, 7⟩),
    (0x5A300400000017AE, .stamp ⟨⟨3, true⟩, .v 0, 0, .q 0, .v 0, 0x5A3⟩),
    (0x01D00064000217AF, .wpset ⟨⟨3, true⟩, .v 16, 0, .v 25, .v 0, 0x1D⟩),
    (0x00300000000017B0, .wpclr ⟨⟨3, true⟩, .v 0, 0, .v 0, .v 0, 3⟩),
    (0x5A300000000017B1, .hint ⟨⟨3, true⟩, .v 0, 0, .v 0, .v 0, 0x5A3⟩),
    (0x00084072004017B2, .pswr ⟨⟨3, true⟩, .v 0, 0x801, .v 28, .z, 0⟩),
    (0x002000580001D7B3, .pctx ⟨⟨3, true⟩, .v 14, 0, .v 22, .v 0, 2⟩)] : List (Nat × Instr)), decodeWord p.1 = .ok p.2 := by
  simp only [List.forall_mem_cons]
  exact ⟨rfl, rfl, rfl, rfl, rfl, rfl, rfl, rfl, rfl, rfl, rfl, rfl, rfl, rfl, rfl, rfl, rfl, rfl, rfl, rfl, fun _ h => nomatch h⟩

/-! ## Ill-formed terms: one for each check of 02 R44 to R46 -/

def g7 : Guard := ⟨7, false⟩
def gNever : Guard := ⟨7, true⟩

/-- An ADD with one field out of place. -/
def addWith (d a b c : Operand) (fsel : Fin 4) (rm : Fin 8) (pd : Fin 8) (mod : Fin 64) : Instr := .add ⟨g7, d, a, b, c, fsel, rm, false, pd, mod⟩

theorem test_wf_plain : (addWith (.v 1) (.v 2) .z (.v 0) 0 0 0 0).wf = true := by decide
theorem test_wf_unused_operand : (addWith (.v 1) (.v 2) .z (.v 3) 0 0 0 0).wf = false := by decide
theorem test_wf_unused_fsel : (addWith (.v 1) (.v 2) .z (.v 0) 1 0 0 0).wf = false := by decide
theorem test_wf_unused_rm : (addWith (.v 1) (.v 2) .z (.v 0) 0 1 0 0).wf = false := by decide
theorem test_wf_unused_pd : (addWith (.v 1) (.v 2) .z (.v 0) 0 0 1 0).wf = false := by decide
theorem test_wf_unused_mod : (addWith (.v 1) (.v 2) .z (.v 0) 0 0 0 1).wf = false := by decide
/-- MOV has no .sat form (08 Table 8.2). -/
theorem test_wf_unused_sat : (Instr.mov ⟨g7, .v 1, .v 2, .v 0, .v 0, 0, 0, true, 0, 0⟩).wf = false := by decide
/-- rm 6 is undefined (02 Table 2.4). -/
theorem test_wf_rm : (Instr.faddF32 ⟨g7, .v 1, .v 2, .v 3, .v 0, 0, 6, false, 0, 0⟩).wf = false := by decide
/-- CMP has conditions 0 to 5 (08 R132). -/
theorem test_wf_condition : (Instr.cmpS ⟨g7, .v 0, .v 2, .v 3, .v 0, 0, 0, false, 1, 6⟩).wf = false := by decide
/-- FCMP of a packed format writes an even pair of predicates (10 R149). -/
theorem test_wf_pd_pair : (Instr.fcmpF16x2 ⟨g7, .v 0, .v 2, .v 3, .v 0, 0, 0, false, 1, 0⟩).wf = false := by decide
theorem test_wf_pair : (Instr.add64 ⟨g7, .v 1, .v 2, .v 4, .v 0, 0, 0, false, 0, 0⟩).wf = false := by decide
theorem test_wf_quad : (Instr.ld128 ⟨g7, .v 2, 0, .z, 0, 0⟩).wf = false := by decide
/-- A chute in a quad position (02 R45). -/
theorem test_wf_chute_quad : (Instr.ld128 ⟨g7, .q 2, 0, .z, 0, 0⟩).wf = false := by decide
/-- An MTRX lane point reads a quad: a chute there is refused (02 R45). -/
theorem test_wf_chute_quad_source : (Instr.ttset ⟨g7, .v 0, 0, .q 0, .v 0, 3⟩).wf = false := by decide
/-- LOOP decrements a v register (06 R110). -/
theorem test_wf_loop_register : (Instr.loop ⟨g7, 0, .z, false⟩).wf = false := by decide
/-- CALL carries the link bit, BRA does not (02 Table 2.11). -/
theorem test_wf_link : (Instr.call ⟨g7, 0, .v 0, false⟩).wf = false ∧ (Instr.bra ⟨g7, 0, .v 0, true⟩).wf = false := by decide
/-- aop 10 and scope 6 are undefined, and RED takes orders 0 and 2 (02 Table 2.7). -/
theorem test_wf_atomic : (Instr.atom ⟨g7, .v 1, 0, .z, .v 2, 10, 7, 0, 0, 0⟩).wf = false ∧ (Instr.atom ⟨g7, .v 1, 0, .z, .v 2, 0, 6, 0, 0, 0⟩).wf = false
    ∧ (Instr.red ⟨g7, .v 0, 0, .z, .v 2, 0, 7, 1, 0, 0⟩).wf = false := by decide
/-- A GRUP point is unguarded where 05 R100 says so, and its imm is bounded (07 Table 7.5). -/
theorem test_wf_group : (Instr.grow ⟨⟨0, false⟩, .v 0, 0, .v 0, .v 0, .v 0, 0, 1⟩).wf = false
    ∧ (Instr.gshuf ⟨g7, .v 0, 0, .v 0, .v 1, .v 0, 0, 63⟩).wf = false := by decide
/-- CPYX takes channels 0 and 1, CPY counts in class 0 (02 Table 2.9). -/
theorem test_wf_engine : (Instr.cpyx ⟨g7, .v 0, 1, 2, 0, .v 3, .v 4, 2, 0⟩).wf = false
    ∧ (Instr.cpy ⟨g7, .v 0, 1, 2, 0, .v 3, .v 4, 0, 1⟩).wf = false := by decide
/-- A chute is no destination of RDC (15 R211). -/
theorem test_wf_engine_destination : (Instr.rdc ⟨g7, .q 1, 0, 0, 0, .v 0, .v 0, 0, 0⟩).wf = false := by decide
/-- XCMP writes the pair at pd 0, 2 or 4 (02 Table 2.10). -/
theorem test_wf_transducer : (Instr.xcmp ⟨g7, .v 0, 0, .v 0, .v 0, 1, 0, 0, 0⟩).wf = false := by decide
/-- An SRD of a number outside 04 Table 4.4. -/
theorem test_wf_special : (Instr.srd ⟨g7, .v 0, 0x007, .v 0, .v 0, 0⟩).wf = false := by decide
/-- FENCE kind 0 and scope 6 (18 Table 18.3). -/
theorem test_wf_fence : (Instr.fence ⟨g7, .v 0, 0, .v 0, .v 0, 4⟩).wf = false ∧ (Instr.fence ⟨g7, .v 0, 0, .v 0, .v 0, 25⟩).wf = false := by decide
/-- REGION takes a mask of at most 16 ones (05 R103). -/
theorem test_wf_region : (Instr.region ⟨g7, .v 0, .v 32, 0x0001FFFF⟩).wf = false := by decide
/-- MMAC names an even slot pair, MRED a mode of 0 or 1, MLOOP a count that is not 0 (17 Table 17.4). -/
theorem test_wf_stream : (Instr.mmac ⟨0, 1, 0, 0, 0, 0, 0, 0, 0⟩).wf = false ∧ (Instr.mred ⟨0, 0, 0, 0, 0, 0, 0, 0, 2⟩).wf = false
    ∧ (Instr.mloop ⟨0, 0, 0, 0, 0, 0, 0, 0, 0⟩).wf = false := by decide

/-! ## The worked examples of the spec -/

/-- The words that 02, 04 to 08 and 12 write out. -/
theorem test_decode_worked : ∀ p ∈ ([
    (0x0002000100_40AE60, .divS ⟨g7, .v 5, .v 1, .v 2, .v 0, 1, 0, false, 0, 0⟩),
    (0x000000018140CE20, .add ⟨g7, .v 6, .v 5, .v 3, .v 0, 0, 0, false, 0, 0⟩),
    (0x0000000005008FA0, .srd ⟨g7, .v 4, 0x014, .v 0, .v 0, 0⟩),
    (0x0800000001000F1A, .grow ⟨g7, .v 0, 4, .v 0, .v 0, .v 0, 0, 2⟩),
    (0x000078078800_0FAC, .region ⟨g7, .v 0, .v 32, 0xF00F⟩),
    (0x023FFFFFFE000E04, .brrNz ⟨g7, -8, .v 8, false⟩),
    (0x0000000030414F01, .gsumF32 ⟨g7, .v 10, 1, .v 3, .v 0, .v 0, 0, 0⟩),
    (0x0000C0401080AF13, .gshuf ⟨g7, .v 5, 2, .v 1, .v 2, .v 3, 0, 0⟩),
    (0x004000048200EE20, .add ⟨g7, .v 7, .v 8, .v 9, .v 0, 0, 0, true, 0, 0⟩),
    (0x0800000000C16E84, .unpk3 ⟨g7, .v 11, .v 3, .v 0, .v 0, 0, 0, false, 0, 2⟩),
    (0x0010070301408EA9, .fmaF32 ⟨g7, .v 4, .v 5, .v 6, .v 7, 0, 2, false, 0, 0⟩),
    (0x2000008010_80AF24, .ld32 ⟨g7, .v 5, 2, .v 1, 4, 1⟩),
    (0x0000000140200F35, .chcfg ⟨g7, .q 0, 0, .v 20, 0, 0⟩),
    (0x4200000000000EE0, .xtld ⟨g7, .v 0, 0, .v 0, .v 0, 0, 0, 0x20, 1⟩),
    (0x0000100000400EE7, .xcmp ⟨g7, .v 0, 1, .v 0, .v 0, 2, 0, 0, 0⟩),
    (0x0000001808010EE4, .xdg2 ⟨g7, .v 8, 0, .v 4, .v 6, 0, 0, 0, 0⟩)] : List (Nat × Instr)), decodeWord p.1 = .ok p.2 := by
  simp only [List.forall_mem_cons]
  exact ⟨rfl, rfl, rfl, rfl, rfl, rfl, rfl, rfl, rfl, rfl, rfl, rfl, rfl, rfl, rfl, rfl, fun _ h => nomatch h⟩

/-- 02 R49: SYNC index 11 and class 14 are no points; 02 R44, R45: operand 300 and a chute in a quad are no operands. -/
theorem test_decode_refused : decodeWord 0x0000000000000F8B = .error .illegalInstruction
    ∧ decodeWord 0x0000000000000FC0 = .error .illegalInstruction
    ∧ decodeWord (0x0000000000000E20 + 300 * 2 ^ 22) = .error .illegalOperand
    ∧ decodeWord (0x0000000000000F26 + 256 * 2 ^ 13 + 264 * 2 ^ 28) = .error .illegalInstruction := ⟨rfl, rfl, rfl, rfl⟩

/-- 08 Table 8.1's example: 0x7FFFFFF0 + 0x20. -/
theorem test_add_saturates : fnAdd true Lane.fresh 0x7FFFFFF0 0x20 0 = (0x7FFFFFFF, flagIOV) ∧ fnAdd false Lane.fresh 0x7FFFFFF0 0x20 0 = (0x80000010, 0) := by
  decide
/-- 09: −103 by 5 is −20, with no flag; 08 R136: by zero, and the least number by −1. -/
theorem test_divide : fnDiv 32 true Lane.fresh (2 ^ 32 - 103) 5 0 = (2 ^ 32 - 20, 0) ∧ fnRem 32 true Lane.fresh (2 ^ 32 - 103) 5 0 = (2 ^ 32 - 3, 0)
    ∧ fnDiv 32 true Lane.fresh 7 0 0 = (2 ^ 32 - 1, flagIDZ) ∧ fnRem 32 false Lane.fresh 7 0 0 = (7, flagIDZ)
    ∧ fnDiv 32 true Lane.fresh (2 ^ 31) (2 ^ 32 - 1) 0 = (2 ^ 31, flagIOV) := by decide
/-- 08 fragment 8.1: byte 200 holds the trits +1, 0, 0, −1, +1, and TACC adds 10 + 0 + 0 − 5 − 20 to 100; the byte 247 is no code. -/
theorem test_trits : fnUnpk3 2 Lane.fresh 0x00C80000 0 0 = (0x1C1, 0) ∧ taccSum 100 0x1C1 (0xEC * 2 ^ 32 + 0x0507FD0A) 0 = 85
    ∧ fnUnpk3 2 Lane.fresh 0x00F70000 0 0 = (0, flagFMT) := by decide
/-- 11 Table 11.1: lanes 0 to 3 of the example, by their bounds in mode 1. -/
theorem test_bounds : boundsOf 1 0x4000 1 0 4 0 = .at_ 0 ∧ boundsOf 1 0x4000 1 0 4 0x1000 = .at_ 0x1000 ∧ boundsOf 1 0x4000 1 0 4 0x4000 = .drop
    ∧ boundsOf 0 0x4000 1 0 4 0x4000 = .trap ∧ boundsOf 2 40 8 0 8 9 = .at_ 4 ∧ boundsOf 3 40 8 0 8 (-1) = .at_ 4 := by decide
/-- 11 R168: an exchange gives the new word and the old one is returned elsewhere. -/
theorem test_atomic : atomicOp 0 4 10 1 = (11, 0) ∧ atomicOp 8 4 13 7 = (7, 0) := by decide
/-- 14 Table 14.1's example. -/
theorem test_virtual_address : vaDev 0x0068000123456789 = 3 ∧ vaDie 0x0068000123456789 = 2 ∧ vaOff 0x0068000123456789 = 0x123456789 := by decide
/-- 10 R152: −0 is less than +0, and a NaN beside a number gives the number. -/
theorem test_minimum : fnFminmax f32 false false Lane.fresh 0x80000000 0 0 = (0x80000000, 0) ∧ fnFminmax f32 false false Lane.fresh 0x7FC00000 0x3F800000 0 = (0x3F800000, 0) := by
  decide
/-- 10 R145: 1 + 2^-24 is halfway and goes to even; R147: the largest finite number doubled overflows. -/
theorem test_float_add : fnFadd f32 false 1 Lane.fresh 0x3F800000 0x33800000 0 = (0x3F800000, flagNX)
    ∧ fnFadd f32 false 1 Lane.fresh 0x7F7FFFFF 0x7F7FFFFF 0 = (0x7F800000, flagOF ||| flagNX) := by decide
/-- 12 section 12.8: the BCD entry at state 0 with digits 8 and 7, and its header's fields. -/
theorem test_bcd_header : hdrWidth 0x03FF010000000114 = 4 ∧ hdrCmp 0x03FF010000000114 = false := by decide
set_option exponentiation.threshold 600 in
/-- 17 section 17.4: 3.875, −1.25 and 0.625 drain to BFP4 with E = 130. -/
theorem test_drain_block : (drainBlock 4 0 [{ Cell.zero with v := 31 * (2 ^ 141 * 2 ^ 140) }, { Cell.zero with v := -(5 * (2 ^ 141 * 2 ^ 141)) }, { Cell.zero with v := 5 * (2 ^ 141 * 2 ^ 140) }]).1 = 130
    ∧ (drainBlock 4 0 [{ Cell.zero with v := 31 * (2 ^ 141 * 2 ^ 140) }, { Cell.zero with v := -(5 * (2 ^ 141 * 2 ^ 141)) }, { Cell.zero with v := 5 * (2 ^ 141 * 2 ^ 140) }]).2.2 = flagNX := by decide

/-- 14 Table 14.8, 04 R65: the check values that the two standards publish. -/
theorem test_digests : crc32c [0x31, 0x32, 0x33, 0x34, 0x35, 0x36, 0x37, 0x38, 0x39] = 0xE3069283#32
    ∧ sha256 [0x61, 0x62, 0x63] = 0xba7816bf8f01cfea414140de5dae2223b00361a396177a9cb410ff61f20015ad#256 := by decide +kernel
/-! ## Witnesses: for every statement, states and operands that meet its hypotheses

`at_` is a team of one group with one live lane on core 0, in the middle of an issue step whose checks are made; its buffer slot 1 holds a record of
4096 bytes of its chamber. `sq` is the same team in the turn of its sequencer. -/

def x0 : StepLane := ⟨0, 0, 8⟩
def st0 : IssueStep :=
  { group := 0, cls := 0, todo := [x0], all := [x0], checked := true, ready := [], serial := 1, oc0 := [], skips0 := [], tt0 := [], reads := [], pend := [] }
def chamberRecord : BitVec 256 := BitVec.ofNat 256 (4096 * 2 ^ 64 + 2 * 2 ^ 116)
def placed : State := State.reset.placeWord 0x1600
def at_ : State :=
  { placed with turn := .issue st0, teams := [(0, { placed.team 0 with slots := [(1, chamberRecord)] })], cycle := 100 }
def sq : State := { at_ with turn := .stream 0 }
/-- The state with another team 0, group 0 or lane 0. -/
def withTeam (f : Team → Team) (s : State) : State := s.updTeam 0 f
def withGroup (f : Group → Group) (s : State) : State := s.updGroup 0 f
def withLane (f : Lane → Lane) (s : State) : State := s.updLane 0 f

def rrr (d a b c : Operand) : RRR := ⟨g7, d, a, b, c, 0, 0, false, 0, 0⟩
def rrrOff (d a b c : Operand) : RRR := ⟨gNever, d, a, b, c, 0, 0, false, 0, 0⟩
def sf (d a b : Operand) (imm : BitVec 12) : SF := ⟨g7, d, 0, a, b, imm⟩
def bf (r : Operand) : BF := ⟨g7, 2, r, false⟩
def mf (d idx : Operand) (off : BitVec 24) : MF := ⟨g7, d, 1, idx, off, 0⟩
def ef (d : Operand) : EF := ⟨g7, d, 1, 1, 1, .v 4, .v 6, 0, 0⟩

theorem at_word : AtWord at_ st0 x0 [] := ⟨rfl, rfl, rfl⟩
theorem at_inv : at_.Inv := rfl

theorem test_witness_ComputeWordsRun : AtWord at_ st0 x0 [] ∧ GuardHolds (.add (rrr (.v 1) (.v 2) .z (.v 0))) at_ (stepLane st0 x0)
    ∧ noChute (.add (rrr (.v 1) (.v 2) .z (.v 0))) = true ∧ ¬ GuardHolds (.add (rrrOff (.v 1) (.v 2) .z (.v 0))) at_ (stepLane st0 x0) :=
  ⟨at_word, rfl, rfl, (nomatch · : ¬ (false = true))⟩

/-- Chute q1 of the team: 16 elements of 4 bytes at chamber offset 64, both ends local. -/
def localDesc : BitVec 64 := BitVec.ofNat 64 (64 + 4 * 2 ^ 34)
def el0 : Element := { serial := 0, group := 0, from_ := 0, landed := true, forwarded := false }
def withChute (c : Chute) (s : State) : State := withTeam (fun t => { t with chutes := [(1, c)] }) s
def atQ : State := withChute { Chute.fresh with desc := some localDesc, elems := [el0, el0] } at_

theorem test_witness_ComputeWordsWithChutes : atQ.Inv ∧ AtWord atQ st0 x0 [] ∧ GuardHolds (.add (rrr (.q 1) (.v 2) (.q 1) (.v 0))) atQ (stepLane st0 x0)
    ∧ pushSlot (readRRR Rows.add (rrr (.q 1) (.v 2) (.q 1) (.v 0)) (stepLane st0 x0) (movedOn st0 x0 [] atQ)).2 (stepLane st0 x0) 1 = some 72 :=
  ⟨rfl, ⟨rfl, rfl, rfl⟩, rfl, by decide⟩

theorem test_witness_PredicateWordsRun : AtWord at_ st0 x0 [] ∧ GuardHolds (.addc (rrr (.v 1) (.v 2) .z (.v 0))) at_ (stepLane st0 x0)
    ∧ noChute (.addc (rrr (.v 1) (.v 2) .z (.v 0))) = true ∧ GuardHolds (.fcmpF16x2 (rrr (.v 0) (.v 2) .z (.v 0))) at_ (stepLane st0 x0)
    ∧ GuardHolds (.plog (rrr (.v 0) (.v 2) (.v 3) (.v 6))) at_ (stepLane st0 x0)
    ∧ ¬ GuardHolds (.plog (rrrOff (.v 0) (.v 2) (.v 3) (.v 6))) at_ (stepLane st0 x0) := ⟨at_word, rfl, rfl, rfl, rfl, (nomatch · : ¬ (false = true))⟩

theorem test_witness_ImmediateAndAccumulateRun : AtWord at_ st0 x0 [] ∧ GuardHolds (.movi ⟨g7, .v 1, .v 0, 5⟩) at_ (stepLane st0 x0)
    ∧ noChute (.movi ⟨g7, .v 1, .v 0, 5⟩) = true ∧ GuardHolds (.tacc (rrr (.v 1) (.v 2) (.v 4) (.v 0))) at_ (stepLane st0 x0)
    ∧ noChute (.tacc (rrr (.v 1) (.v 2) (.v 4) (.v 0))) = true := ⟨at_word, rfl, rfl, rfl, rfl⟩

theorem test_witness_ChuteOperandForms : atQ.Inv ∧ AtWord atQ st0 x0 [] ∧ GuardHolds (.divS (rrr (.v 1) (.q 1) .z (.v 0))) atQ (stepLane st0 x0)
    ∧ GuardHolds (.addc (rrr (.v 1) (.q 1) .z (.v 0))) atQ (stepLane st0 x0) ∧ GuardHolds (.cmpS (rrr (.v 0) (.q 1) .z (.v 0))) atQ (stepLane st0 x0)
    ∧ GuardHolds (.brrZ (bf (.q 1))) atQ (stepLane st0 x0) ∧ GuardHolds (.park (bf (.q 1))) atQ (stepLane st0 x0)
    ∧ GuardHolds (.st32 (mf (.q 1) .z 0)) atQ (stepLane st0 x0)
    ∧ ((movedOn st0 x0 [] atQ).laneAccess 0 1 0 0 4).toOption.isSome = true
    ∧ GuardHolds (.lea ⟨g7, .q 1, .q 1, 5⟩) atQ (stepLane st0 x0) ∧ ((atQ.team (teamOf (0 / 32))).chute 1).desc = some localDesc ∧ descPend localDesc = 0
    ∧ descPend (BitVec.ofNat 64 (64 + 4 * 2 ^ 34) ||| (1#64 <<< 45)) ≠ 0 :=
  ⟨rfl, ⟨rfl, rfl, rfl⟩, rfl, rfl, rfl, rfl, rfl, rfl, by decide, rfl, rfl, rfl, by decide⟩

/-- An operation of lane 0 in flight, alone in its group. -/
def inFlight (k : OpKind) : State := withGroup (fun g => { g with ops := [{ id := 7, lane := 0, pc := 8, step := 1, space := 0, off := 0, kind := k, ctrs := [] }] }) { at_ with turn := .idle }
def flying (k : OpKind) : LaneOp := { id := 7, lane := 0, pc := 8, step := 1, space := 0, off := 0, kind := k, ctrs := [] }

theorem test_witness_LateWordsRun : AtWord at_ st0 x0 [] ∧ GuardHolds (.divS (rrr (.v 1) (.v 2) .z (.v 0))) at_ (stepLane st0 x0)
    ∧ noChute (.divS (rrr (.v 1) (.v 2) .z (.v 0))) = true
    ∧ ((inFlight (.value [(1, 5)] 0 true)).group 0).op? 7 = some (flying (.value [(1, 5)] 0 true)) := ⟨at_word, rfl, rfl, rfl⟩

theorem test_witness_DivisionRule : AtWord at_ st0 x0 [] ∧ GuardHolds (.divrS (rrr (.v 1) (.v 2) .z (.v 0))) at_ (stepLane st0 x0)
    ∧ noChute (.divrS (rrr (.v 1) (.v 2) .z (.v 0))) = true ∧ ¬ GuardHolds (.remS (rrrOff (.v 1) (.v 2) .z (.v 0))) at_ (stepLane st0 x0)
    ∧ ((inFlight (.value [(1, 5)] 0 true)).group 0).op? 7 = some (flying (.value [(1, 5)] 0 true))
    ∧ operandVal (at_.lane 0) (.v 2) 1 = 0 ∧ operandVal ((withLane (fun l => l.setReg 2 0x80000000) at_).lane 0) (.v 2) 1 = 2 ^ 31 :=
  ⟨at_word, rfl, rfl, (nomatch · : ¬ (false = true)), rfl, rfl, rfl⟩

theorem test_witness_ControlWordsAndWaitsRun : AtWord at_ st0 x0 [] ∧ GuardHolds (.loop (bf (.v 1))) at_ (stepLane st0 x0) ∧ noChute (.loop (bf (.v 1))) = true
    ∧ ((withLane (fun l => { l with block := .park 90 10 }) at_).lane (laneKey 0 0)).block = .park 90 10
    ∧ 90 + 10 ≤ at_.cycle ∧ (withLane (fun l => { l with block := .park 90 10 }) at_).groupHalted 0 = false
    ∧ ((withLane (fun l => { l with block := .yield 0 92 }) at_).lane (laneKey 0 0)).block = .yield 0 92 ∧ 92 + 8 ≤ at_.cycle :=
  ⟨at_word, rfl, rfl, rfl, by decide, rfl, rfl, by decide⟩

theorem test_witness_CallAndReturnRun : AtWord at_ st0 x0 [] ∧ GuardHolds (.calli ⟨g7, 0, .v 1, true⟩) at_ (stepLane st0 x0)
    ∧ noChute (.calli ⟨g7, 0, .v 1, true⟩) = true ∧ GuardHolds (.ret (bf (.v 0))) at_ (stepLane st0 x0) := ⟨at_word, rfl, rfl, rfl⟩

set_option maxRecDepth 8000 in
theorem test_witness_MemoryWordsIssue : AtWord at_ st0 x0 [] ∧ GuardHolds (.ld32 (mf (.v 4) .z 8)) at_ (stepLane st0 x0)
    ∧ noChute (.ld32 (mf (.v 4) .z 8)) = true ∧ at_.laneAccess 0 1 0 8 4 = .ok ⟨0, 8, 8, false⟩ ∧ at_.spillAccess 0 4 = .ok ⟨2, 4, 16388, false⟩
    ∧ at_.laneAccess 0 1 0 32 32 = .ok ⟨0, 32, 32, false⟩ ∧ GuardHolds (.cas ⟨g7, .v 4, 1, .z, .v 6, 0, 7, 0, 0, 0⟩) at_ (stepLane st0 x0) :=
  ⟨at_word, rfl, rfl, rfl, rfl, rfl, rfl⟩

/-- The state of an operation in flight meets the hypotheses on it. -/
def MayComplete (k : OpKind) : Prop :=
  (inFlight k).mem.wf = true ∧ ((inFlight k).group 0).op? 7 = some (flying k) ∧ k.isAccess = true ∧ (inFlight k).mayPerform 0 (flying k) = true

theorem test_witness_MemoryOperationsPerform : MayComplete (OpKind.store 8 [1, 2, 3, 4] false)
    ∧ MayComplete (.store 0 [1] true)
    ∧ MayComplete (.load 8 4 true (.v 4) 1 false)
    ∧ MayComplete (.load 0 4 false (.v 4) 1 true)
    ∧ MayComplete (.atomic 8 4 0 1 (.v 4) true false false false 4)
    ∧ MayComplete (.cas 8 4 0 5 (.v 4) false false false 4)
    ∧ MayComplete (.brld 32 3 false) :=
  ⟨⟨rfl, rfl, rfl, rfl⟩, ⟨rfl, rfl, rfl, rfl⟩, ⟨rfl, rfl, rfl, rfl⟩, ⟨rfl, rfl, rfl, rfl⟩, ⟨rfl, rfl, rfl, rfl⟩, ⟨rfl, rfl, rfl, rfl⟩, ⟨rfl, rfl, rfl, rfl⟩⟩

theorem test_witness_ChutePointsRun : atQ.Inv ∧ AtWord atQ st0 x0 [] ∧ GuardHolds (.chrd (mf (.q 1) .z 0)) atQ (stepLane st0 x0)
    ∧ atQ.laneAccess 0 1 0 0 64 = .ok ⟨0, 0, 0, false⟩ ∧ GuardHolds (.chcnt (mf (.v 4) (.q 1) 0)) atQ (stepLane st0 x0)
    ∧ (([⟨0x135, 1, 5⟩, ⟨0x135, 1, 6⟩] : List Pend).filter (fun p => p.op == 0x135 && p.x == 1)).getLast? = some ⟨0x135, 1, 6⟩
    ∧ (([⟨0x135, 1, 5⟩] : List Pend).filter (fun p => p.op == 0x135 && p.x == 2)) = [] := ⟨rfl, ⟨rfl, rfl, rfl⟩, rfl, rfl, rfl, rfl, rfl⟩

theorem test_witness_PopTakesTheHead : atQ.Inv ∧ ((atQ.team (teamOf (0 / 32))).chute 1).desc = some localDesc ∧ descMode localDesc = 0
    ∧ remoteConsumer localDesc = false ∧ ((atQ.team 0).chute 1).elems = [el0, el0]
    ∧ ((withChute { Chute.fresh with desc := some localDesc, closed := true } at_).team 0 |>.chute 1).elems = []
    ∧ (withChute { Chute.fresh with desc := some localDesc, closed := true } at_).closedHere { Chute.fresh with desc := some localDesc, closed := true } = true :=
  ⟨rfl, rfl, rfl, rfl, rfl, rfl, rfl⟩

/-- A table image of one state over binary digits: d 1, one operand, alphabet 0 and 1, every entry the digit itself. -/
def tinyImage : List Byte := leBytes 8 0x0003010000000081 ++ List.replicate 24 0 ++ [0, 4, 0x40, 4] ++ [0, 0x10, 0, 0]
def atX : State := withTeam (fun t => { t with contexts := [(0, { cond := 2, image := tinyImage, detail := 0 })] }) at_
def xf (d a : Operand) : XF := ⟨g7, d, 0, a, .v 0, 0, 0, 0, 0⟩

theorem test_witness_TransducerWordsRun : AtWord atX st0 x0 [] ∧ GuardHolds (.xdg (xf (.v 4) (.v 5))) atX (stepLane st0 x0)
    ∧ noChute (.xdg (xf (.v 4) (.v 5))) = true
    ∧ walkDigits ((ctxOf st0 x0).context atX 0).image 0 0 0 0 [0, 1, 2] ((atX.lane 0).xstate, 0) = .ok (0, 0) ∧ imgValid tinyImage = true
    ∧ (([⟨0xE1, 0, 0⟩, ⟨0xE0, 0, 0⟩] : List Pend).filter (fun p => p.x % 8 == 0 && (p.op == 0xE0 || p.op == 0xE1))).getLast? = some ⟨0xE0, 0, 0⟩
    ∧ (([⟨0xE0, 0, 0⟩, ⟨0xE1, 0, 0⟩] : List Pend).filter (fun p => p.x % 8 == 0 && (p.op == 0xE0 || p.op == 0xE1))).getLast? = some ⟨0xE1, 0, 0⟩
    ∧ (([⟨0xE0, 0, 0⟩] : List Pend).filter (fun p => p.x % 8 == 1 && (p.op == 0xE0 || p.op == 0xE1))) = [] :=
  ⟨⟨rfl, rfl, rfl⟩, rfl, rfl, rfl, rfl, rfl, rfl, rfl⟩

theorem test_witness_GroupWordsArrive : AtWord at_ st0 x0 [] ∧ GuardHolds (.gsumI32 ⟨g7, .v 5, 1, .v 2, .v 0, .v 0, 0, 0⟩) at_ (stepLane st0 x0) :=
  ⟨at_word, rfl⟩

def arr0 (op imm : Nat) : Arrival := { tag := 1, op := op, imm := imm, pred := true, a := 5, b := 0, c := 0, dst := .v 5, pd := 0 }
/-- Lane 0 has arrived, and is the only live one. -/
def arrivedState : State := withLane (fun l => { l with block := .rendezvous (arr0 0x100 0) }) at_

theorem test_witness_RendezvousRuns : (([(0, arr0 0x100 0)] : AList Arrival).map (·.1)).Nodup ∧ (∀ p ∈ ([(0, arr0 0x100 0)] : AList Arrival), p.1 < 32)
    ∧ (arrivedState.team (teamOf 0)).kernel.g16 = false ∧ (arrivedState.group 0).grant = none
    ∧ ((arrivedState.liveLanes 0).filterMap (fun p => (arrivedState.arrival 0 p).map (fun a => (p, a)))) = [(0, arr0 0x100 0)]
    ∧ (arrivedState.liveLanes 0).length = 1 ∧ spansGroup 0x100 = false
    ∧ ((at_.liveLanes 0).filterMap (fun p => (at_.arrival 0 p).map (fun a => (p, a)))).length < (at_.liveLanes 0).length := by
  refine ⟨by decide +kernel, by decide +kernel, rfl, rfl, rfl, rfl, rfl, by decide +kernel⟩

/-- A team of half-group domains, whose lanes 0 and 1 have arrived on two tags. -/
def halves : State :=
  (withTeam (fun t => { t with kernel := { t.kernel with hdr := t.kernel.hdr ||| 2 ^ 4 } }) arrivedState).updLane 1 (fun l =>
    { l with live := true, block := .rendezvous { arr0 0x100 0 with tag := 2 } })

theorem test_witness_RendezvousRuns_halves : (halves.team (teamOf 0)).kernel.g16 = true ∧ (halves.group 0).grant = none ∧ halves.allAtGrant 0 = false
    ∧ (((halves.liveLanes 0).filter (fun p => 0 ≤ p && p < 0 + 16)).filterMap (fun p => (halves.arrival 0 p).map (fun a => (p, a)))
        = [(0, arr0 0x100 0), (1, { arr0 0x100 0 with tag := 2 })])
    ∧ ((halves.liveLanes 0).filter (fun p => 0 ≤ p && p < 0 + 16)).length = 2 := by
  decide +kernel

/-- A group of one granule with a budget of 15, and one whose request for two granules stands at the head of its core's queue. -/
def small : State := withGroup (fun g => { g with granules := [0] }) at_
def asking : State := (withGroup (fun g => { g with grant := some 2 }) small).updCore 0 (fun c => { c with grants := [0] })

theorem test_witness_GrantsAddAndReturn : (arr0 0x11A 15).op = 0x11A ∧ (small.group 0).grants + (arr0 0x11A 15).imm ≤ (small.group 0).budget
    ∧ (small.coreGroups (small.group 0).core).length + (small.group 0).grants + (arr0 0x11A 15).imm ≤ (small.core (small.group 0).core).pool.length
    ∧ (arr0 0x11B 7).op = 0x11B ∧ (arr0 0x11B 7).imm ≤ (at_.group 0).grants
    ∧ (asking.core 0).grants = 0 :: [] ∧ (asking.group 0).grant = some 2 ∧ (asking.group 0).core = 0 ∧ 2 ≤ (asking.freeGranules 0).length
    ∧ (∀ k ∈ (small.core 0).grants, k ≠ 0 ∧ (small.group k).grantAt < small.cycle ∧ (small.group k).port < 4 ∧ (small.group k).slot < 8)
    ∧ (asking.group 0).grantAt < asking.cycle := by
  refine ⟨rfl, by decide +kernel, by decide +kernel, rfl, by decide +kernel, rfl, rfl, rfl, by decide +kernel, by decide +kernel, by decide +kernel⟩
/-- A request of this cycle by a group on port 1, while port 0 still has a group to serve. -/
def askingNow : State :=
  ((withGroup (fun g => { g with grant := some 2, grantAt := 100, port := 1 }) small).updCore 0 (fun c => { c with grants := [0] })).setGroup 1 (at_.group 0)
def contended : State := (withTeam (fun t => { t with groups := 2 }) askingNow).setLane 32 (at_.lane 0)
theorem test_witness_grant_waits_for_ports : (contended.core 0).grants = 0 :: [] ∧ (contended.group 0).grant = some 2 ∧ (contended.group 0).core = 0
    ∧ 2 ≤ (contended.freeGranules 0).length ∧ ¬ (contended.group 0).grantAt < contended.cycle ∧ 0 < (contended.group 0).port
    ∧ contended.portDone 0 0 = false := by
  decide +kernel

theorem test_witness_CommandWordsEnter : AtWord at_ st0 x0 [] ∧ GuardHolds (.cpy (ef (.v 2))) at_ (stepLane st0 x0) ∧ noChute (.cpy (ef (.v 2))) = true
    ∧ GuardHolds (.sigAdd (ef (.v 2))) at_ (stepLane st0 x0) := ⟨at_word, rfl, rfl, rfl⟩
/-- The record of slot 1 names main memory at device 1024, which is reserved. -/
def reserved : State := withTeam (fun t => { t with slots := [(1, BitVec.ofNat 256 (2 ^ 63 + 4096 * 2 ^ 64 + 3 * 2 ^ 112 + 2 * 2 ^ 116))] }) at_
theorem test_witness_CommandWordsEnter_reserved : AtWord reserved st0 x0 [] ∧ GuardHolds (.cpy (ef (.v 2))) reserved (stepLane st0 x0)
    ∧ (reserved.team 0).reservedBase Rows.cpy (ef (.v 2)) = some (1, 2 ^ 63) ∧ (at_.team 0).reservedBase Rows.cpy (ef (.v 2)) = none
    ∧ reserved.cmds.get? reserved.serial = none ∧ at_.cmds.get? at_.serial = none
    ∧ ({ Command.fresh 0x140 0 with cnt := 3 } : Command).units ≠ 0 ∧ (Command.fresh 0x140 0).units = 0 := by
  refine ⟨⟨rfl, rfl, rfl⟩, rfl, ?_⟩
  decide +kernel

def ctlE (cls : Fin 4) (cnt : Operand) : EF := ⟨g7, .v 2, 0, 0, 0, cnt, .v 0, 0, cls⟩
/-- Two commands of class 0 are outstanding. -/
def busy : State := withGroup (fun g => { g with oc := [(0, 2)] }) at_

theorem test_witness_EngineControlWordsRun : AtWord at_ st0 x0 [] ∧ GuardHolds (.waitc (ctlE 0 (.v 1))) at_ (stepLane st0 x0)
    ∧ at_.groupHalted 0 = false ∧ (at_.team (teamOf 0)).residency = .resident
    ∧ (at_.group 0).outstanding 0 ≤ 1 ∧ at_.waitFault 0 0 1 = none
    ∧ AtWord busy st0 x0 [] ∧ 1 < (busy.group 0).outstanding 0 ∧ busy.needed 0 0 1 (fun c => c.st == .parked) = none
    ∧ GuardHolds (.rdc (ctlE 0 (.v 2))) at_ (stepLane st0 x0) ∧ noChute (.rdc (ctlE 0 (.v 2))) = true ∧ GuardHolds (.ecan (ctlE 0 (.v 0))) at_ (stepLane st0 x0)
    ∧ GuardHolds (.fencee (ctlE 0 (.v 0))) at_ (stepLane st0 x0) :=
  ⟨at_word, rfl, rfl, rfl, by decide +kernel, rfl, ⟨rfl, rfl, rfl⟩, by decide +kernel, rfl, rfl, rfl, rfl, rfl⟩

/-- A step of MSTART in lanes 0 and 1: lane 1 is above lane 0. -/
def x1 : StepLane := ⟨1, 0x0000000000000F62, 8⟩
def st2 : IssueStep := { st0 with todo := [⟨0, 0x0000000000000F62, 8⟩, x1], all := [⟨0, 0x0000000000000F62, 8⟩, x1] }
def at2 : State := { at_ with turn := .issue st2 }
def streaming : State := withTeam (fun t => { t with seqr := { t.seqr with run := true } }) at_

theorem test_witness_MatrixLaneWordsRun : AtWord at_ st0 x0 [] ∧ GuardHolds (.mstart (sf (.v 0) (.v 2) (.v 0) 0)) at_ (stepLane st0 x0)
    ∧ noChute (.mstart (sf (.v 0) (.v 2) (.v 0) 0)) = true ∧ mstartAbove (ctxOf st0 x0) at_ = false
    ∧ AtWord at2 st2 ⟨0, 0x0000000000000F62, 8⟩ [x1] ∧ mstartAbove (ctxOf st2 ⟨0, 0x0000000000000F62, 8⟩) at2 = true
    ∧ (at_.team 0).seqr.run = false ∧ AtWord streaming st0 x0 [] ∧ (streaming.team 0).seqr.run = true
    ∧ (at_.team 0).kernel.redmx = false
    ∧ (([⟨0x160, 3, 5⟩] : List Pend).filter (fun p => p.op == 0x160 && p.x == 3)).getLast? = some ⟨0x160, 3, 5⟩
    ∧ (([⟨0x160, 3, 5⟩] : List Pend).filter (fun p => p.op == 0x160 && p.x == 4)) = [] :=
  ⟨at_word, rfl, rfl, rfl, ⟨rfl, rfl, rfl⟩, rfl, rfl, ⟨rfl, rfl, rfl⟩, rfl, rfl, rfl, rfl⟩

def ms0 : MSF := ⟨0, 0, 0, 0, 0, 0, 0, 0, 0⟩
/-- Fields that name accumulator 7, or a slot that holds nothing. -/
def msBad : MSF := ⟨3, 0, 255, 0, 0, 0, 0, 0, 0⟩
/-- A team without accumulators. -/
def noTiles : State := withTeam (fun t => { t with kernel := { t.kernel with hdr := 0 } }) sq

theorem test_witness_StreamWordsAnswer : sq.turn = .stream 0 ∧ noTiles.turn = .stream 0
    ∧ (∀ p ∈ [mmacPoint ms0, mdrainPoint ms0, mldaccPoint ms0, mstaccPoint ms0, mselPoint ms0, mscalePoint ms0, mloopEndPoint],
        (p.own 0 (noTiles.setTurn .idle)).isSome = true)
    ∧ ((mloopPoint ms0).own 0 ((withTeam (fun t => { t with seqr := { t.seqr with loops := [(0, 1), (0, 1), (0, 1), (0, 1)] } }) sq).setTurn .idle)).isSome = true := by
  decide +kernel

/-- A team of 128 KiB of chamber and four tiles; entry 0 is a plane tensor of one INT8 element at offset 0, entry 1 a row-major binary16 one; slots 0 and 1
hold entry 0. -/
def bigKernel : Kernel := { loneKernel with hdr := 4 * 2 ^ 42 + 4 * 2 ^ 32 + 32 * 2 ^ 16 }
def e0 : BitVec 128 := 7
def e1 : BitVec 128 := 0x1A
def mx : State := withTeam (fun t => { t with kernel := bigKernel, tt := [(0, e0), (1, e1)], seqr := { t.seqr with run := true, slots := [(0, (e0, 0)), (1, (e0, 0))] } }) sq

theorem test_witness_StreamTileWordsRun : mx.Inv ∧ mx.turn = .stream 0 ∧ Unwatched mx
    ∧ (mselPoint ms0).own 0 (mx.setTurn .idle) = none
    ∧ (mscalePoint ms0).own 0 (mx.setTurn .idle) = none ∧ (mmacPoint ms0).own 0 (mx.setTurn .idle) = none
    ∧ (mx.team 0).slot 0 = some (e0, 0) ∧ (mx.team 0).slot 1 = some (e0, 0)
    ∧ (mdrainPoint { ms0 with tt := 1 }).own 0 (mx.setTurn .idle) = none ∧ (mstaccPoint ms0).own 0 (mx.setTurn .idle) = none :=
  ⟨rfl, rfl, fun _ => rfl, by decide +kernel, by decide +kernel, by decide +kernel, rfl, rfl, by decide +kernel, by decide +kernel⟩

/-- The bytes that the drain of `mx` stores, and where. -/
def drained0 : List (Nat × Byte) := mx.drainRow (mx.team 0) e1 0 0 0 (drainAll e1 0 0 ((mx.team 0).tile 0) 0)
theorem test_witness_StreamTileWordsRun_stores : 32 * 0 < ttCols e1 ∧ (List.range 32).filter (fun i => 32 * 0 + i < ttRows e1) = [0]
    ∧ drained0.length = 2 ∧ (drained0.map (fun y => (mx.team 0).chamberPhys y.1)).Nodup := by decide +kernel
theorem test_witness_StreamTileWordsRun_image (a b : Nat) (ha : a < 81920) (hb : b < 81920)
    (h : (mx.team 0).chamberPhys (ttBase e0 + a) = (mx.team 0).chamberPhys (ttBase e0 + b)) : a = b := by
  have base : ttBase e0 = 0 := rfl
  have units : (mx.team 0).unitsPer = 32 := rfl
  have host (o : Nat) (ho : o < 81920) : (mx.team 0).hostIndex o = 0 := by
    have : o / (32 * 4096) = 0 := by omega
    simp only [Team.hostIndex, units, this]
    rfl
  have phys (o : Nat) (ho : o < 81920) :
      (mx.team 0).chamberPhys o = scratchAddr ((mx.team 0).cores.getD 0 0) ((mx.team 0).chamberAt.getD 0 0 + (o - 0 * 32 * 4096)) := by
    unfold Team.chamberPhys
    rw [host o ho, units]
  rw [base, Nat.zero_add, Nat.zero_add, phys a ha, phys b hb] at h
  unfold scratchAddr at h
  omega
theorem test_witness_StreamTileWordsRun_load : (mldaccPoint ms0).own 0 (mx.setTurn .idle) = none := by decide +kernel

def withSeqr (f : Sequencer → Sequencer) (s : State) : State := withTeam (fun t => { t with seqr := f t.seqr }) s

theorem test_witness_StreamControlWordsRun : sq.turn = .stream 0 ∧ Unwatched sq ∧ (sq.team 0).seqr.loops.length < 4
    ∧ 4 ≤ ((withSeqr (fun q => { q with loops := [(0, 1), (0, 1), (0, 1), (0, 1)] }) sq).team 0).seqr.loops.length
    ∧ ((withSeqr (fun q => { q with loops := [(8, 3)] }) sq).team 0).seqr.loops = [(8, 3)] ∧ (sq.team 0).seqr.loops = []
    ∧ ms0.mode.val ≠ 1 ∧ ({ ms0 with mode := 1 } : MSF).mode.val = 1 ∧ ((sq.team 0).barrier 0).seq = false
    ∧ ((withTeam (fun t => { t with barriers := [(0, { Barrier.fresh with seq := true })] }) sq).team 0 |>.barrier 0).seq = true :=
  ⟨rfl, fun _ => rfl, by decide +kernel, by decide +kernel, rfl, rfl, by decide +kernel, rfl, rfl, rfl⟩

/-- Group 0 is counted in the phase of barrier 3; its last counted arrival was in the current phase. -/
def counted : State :=
  withTeam (fun t => { t with barriers := [(3, { Barrier.fresh with expected := 2, counted := [0], last := [(0, 0)] })] }) at_

/-- Group 0 has arrived at barrier 3 in full and is not counted yet; the phase expects one arrival, or two. -/
def uncounted : State := withTeam (fun t => { t with barriers := [(3, { Barrier.fresh with expected := 1, lanes := [(0, 1)], serials := [(0, 1)] })] }) at_
def uncounted2 : State := withTeam (fun t => { t with barriers := [(3, { Barrier.fresh with expected := 2, lanes := [(0, 1)], serials := [(0, 1)] })] }) at_

theorem test_witness_BarrierWordsRun : AtWord at_ st0 x0 [] ∧ GuardHolds (.fence (sf (.v 0) (.v 0) (.v 0) 21)) at_ (stepLane st0 x0)
    ∧ GuardHolds (.bara (sf (.v 0) (.v 0) (.v 0) 3)) at_ (stepLane st0 x0) ∧ 0 ∉ ((at_.team 0).barrier 3).counted
    ∧ AtWord counted st0 x0 [] ∧ 0 ∈ ((counted.team 0).barrier 3).counted
    ∧ ((counted.team 0).barrier 3).last.get? 0 = some ((counted.team 0).barrier 3).phase.toNat
    ∧ ((at_.team 0).barrier 3).last.get? 0 ≠ some ((at_.team 0).barrier 3).phase.toNat ∧ at_.arrivedInFull 0 3 = false ∧ uncounted.arrivedInFull 0 3 = true
    ∧ (([⟨0x184, 3, 2⟩] : List Pend).filter (fun p => p.op == 0x184 && p.x == 3)).getLast? = some ⟨0x184, 3, 2⟩
    ∧ (([⟨0x184, 3, 2⟩] : List Pend).filter (fun p => p.op == 0x184 && p.x == 4)) = [] := by
  refine ⟨at_word, rfl, rfl, by decide +kernel, ⟨rfl, rfl, rfl⟩, by decide +kernel, by decide +kernel, by decide +kernel, by decide +kernel, by decide +kernel, rfl, rfl⟩

theorem test_witness_PhaseCompletes : (0 ∈ counted.teamGroups 0 ∧ teamOf 0 = 0 ∧ 0 ∈ counted.liveLanes 0 ∧ counted.groupHalted 0 = false)
    ∧ ((withLane (fun l => { l with block := .barWait 3 0 }) counted).lane (laneKey 0 0)).block = .barWait 3 (((counted.team 0).barrier 3).phase.toNat)
    ∧ ((withLane (fun l => { l with block := .barArrive 3 true }) counted).lane (laneKey 0 0)).block = .barArrive 3 true
    ∧ (uncounted.team 0).groups ≤ 128 ∧ (((uncounted.countGroups 0 3).team 0).barrier 3).expected ≤ (uncounted.countGroups 0 3).arrivals 0 3
    ∧ (((uncounted.countGroups 0 3).team 0).barrier 3).counted ≠ ((uncounted.team 0).barrier 3).counted
    ∧ (uncounted2.countGroups 0 3).arrivals 0 3 < (((uncounted2.countGroups 0 3).team 0).barrier 3).expected := by
  refine ⟨by decide +kernel, rfl, rfl, by decide +kernel, by decide +kernel, by decide +kernel, by decide +kernel⟩

/-- Every entry of the seal table of partition 0 is taken; entry 2 alone is. -/
def sealed_ : SealEntry := { space := 0, base := 0, len := 8, team := 0, die := 0, by_ := 0, ready := true, told := false }
def sealFull : State := { at_ with sealTables := [(0, (List.range 16).map (fun n => (n, sealed_)))] }
def sealOne : State := { at_ with sealTables := [(0, [(2, sealed_)])] }
def dropRecord : BitVec 256 := BitVec.ofNat 256 (2 * 2 ^ 116 + 2 ^ 120)
def atDrop : State := withTeam (fun t => { t with slots := [(1, dropRecord)] }) at_

set_option maxRecDepth 8000 in
theorem test_witness_SealAndWaitWordsRun : AtWord at_ st0 x0 [] ∧ GuardHolds (.sealRange (sf (.v 1) (.v 2) (.v 4) 0)) at_ (stepLane st0 x0)
    ∧ noChute (.sealRange (sf (.v 1) (.v 2) (.v 4) 0)) = true ∧ (∀ n, n < 16 → (sealFull.sealTable 0).get? n ≠ none)
    ∧ (at_.sealTable 0).get? 0 = none ∧ GuardHolds (.unsealEntry (sf (.v 1) (.v 2) (.v 0) 0)) at_ (stepLane st0 x0)
    ∧ (sealOne.sealTable 0).get? 2 = some sealed_ ∧ 2 < 16 ∧ (sealOne.sealTable 0).get? 0 = none
    ∧ GuardHolds (.fencei (sf (.v 0) (.v 0) (.v 0) 0)) at_ (stepLane st0 x0) ∧ GuardHolds (.waits (mf (.v 4) .z 8)) at_ (stepLane st0 x0)
    ∧ noChute (.waits (mf (.v 4) .z 8)) = true ∧ at_.laneAccess 0 1 0 8 4 = .ok ⟨0, 8, 8, false⟩ ∧ atDrop.laneAccess 0 1 0 8 4 = .ok ⟨0, 0, 0, true⟩ :=
  ⟨at_word, rfl, rfl, by decide +kernel, rfl, rfl, rfl, by decide +kernel, rfl, rfl, rfl, rfl, rfl, rfl⟩

theorem test_witness_SpecialRegisterWordsRun : AtWord at_ st0 x0 [] ∧ GuardHolds (.srd { sf (.v 4) (.v 0) (.v 0) 0 with sr := 0x014 }) at_ (stepLane st0 x0)
    ∧ noChute (.srd { sf (.v 4) (.v 0) (.v 0) 0 with sr := 0x014 }) = true
    ∧ GuardHolds (.swr { sf (.v 0) (.v 4) (.v 0) 0 with sr := 0x022 }) at_ (stepLane st0 x0)
    ∧ noChute (.swr { sf (.v 0) (.v 4) (.v 0) 0 with sr := 0x022 }) = true ∧ (0x022 : BitVec 12).toNat = 0x022 ∧ (0x021 : BitVec 12).toNat = 0x021
    ∧ (0x020 : BitVec 12).toNat = 0x020 := ⟨at_word, rfl, rfl, rfl, rfl, rfl, rfl, rfl⟩

/-- A window with a child of launch 5. -/
def window0 : Window := { die := 0, opened := 1, closed := false, children := [3] }
def waiting : State := { at_.setGrid 3 { Grid.fresh with desc := setDesc 0 48 63 0 5 } with windows := [(7, window0)] }

set_option maxRecDepth 8000 in
theorem test_witness_LaunchWordsRun : AtWord at_ st0 x0 [] ∧ GuardHolds (.launch (sf (.v 4) .z (.v 0) 1)) at_ (stepLane st0 x0)
    ∧ noChute (.launch (sf (.v 4) .z (.v 0) 1)) = true ∧ at_.laneAccess 0 1 0 0 64 = .ok ⟨0, 0, 0, false⟩
    ∧ at_.launchQueue.getD 0 0 < 4096 ∧ at_.windows = [] ∧ 4096 ≤ ({ at_ with launchQueue := [(0, 4096)] } : State).launchQueue.getD 0 0
    ∧ GuardHolds (.launchw (sf (.v 0) (.v 0) (.v 0) 0)) at_ (stepLane st0 x0)
    ∧ waiting.windows.get? 7 = some window0 ∧ window0.closed = false ∧ (∃ c ∈ window0.children, dParent (waiting.grid c).desc = 5)
    ∧ waiting.fwHalted = false ∧ ({ waiting with fwHalted := true } : State).fwHalted = true ∧ (∀ e ∈ waiting.windows, e.1 = 8 → e.2.closed = true) := by
  refine ⟨at_word, rfl, rfl, rfl, by decide +kernel, rfl, by decide +kernel, rfl, rfl, rfl, by decide +kernel, rfl, rfl, by decide +kernel⟩

/-- Core 0 has a task deque of two records, one of which is held. -/
def deque : State := at_.updCore 0 (fun c => { c with dqbase := 0x8000, dqlim := 0x8080, dqCount := 1, dqTasks := [⟨0, 0, 0⟩] })
def running : State := withTeam (fun t => { t with kind := .task [] 0 }) at_

theorem test_witness_TaskAndMessageWordsRun : at_.Inv ∧ AtWord at_ st0 x0 [] ∧ GuardHolds (.task (sf (.v 4) .z (.v 0) 1)) at_ (stepLane st0 x0)
    ∧ noChute (.task (sf (.v 4) .z (.v 0) 1)) = true ∧ (at_.core 0).dqCap ≤ (at_.core 0).dqCount
    ∧ AtWord deque st0 x0 [] ∧ (deque.core 0).dqCount < (deque.core 0).dqCap ∧ at_.dqRecords 0 = []
    ∧ ((deque.dqRecords 0).getLast?).isSome = true ∧ GuardHolds (.taskp (sf (.v 4) .z (.v 0) 1)) deque (stepLane st0 x0)
    ∧ AtWord running st0 x0 [] ∧ (running.team 0).kind = .task [] 0 ∧ GuardHolds (.tasks (sf (.v 0) (.v 2) (.v 0) 0)) running (stepLane st0 x0)
    ∧ GuardHolds (.amsg (sf (.v 0) (.v 8) (.v 3) 2)) at_ (stepLane st0 x0) ∧ noChute (.amsg (sf (.v 0) (.v 8) (.v 3) 2)) = true := by
  refine ⟨rfl, at_word, rfl, rfl, by decide +kernel, ⟨rfl, rfl, rfl⟩, by decide +kernel, rfl, rfl, rfl, ⟨rfl, rfl, rfl⟩, rfl, rfl, rfl, rfl⟩

/-- Team 1 is saved, and its image stands at the address that lane 0 holds in v2 and v3. -/
def pctxWord : Nat := 0x0010000000000FB3 + 2 * 2 ^ 34 + 4 * 2 ^ 13
def xp : StepLane := ⟨0, pctxWord, 8⟩
def stp : IssueStep := { st0 with todo := [xp], all := [xp], reads := [⟨0, pctxWord, 0x5000, 0⟩] }
def imaged : State :=
  (withLane (fun l => l.setReg 2 0x5000) { at_ with turn := .issue stp }).setTeam 1 { Team.fresh with residency := .saved 3 0 false 0x5000 }
def pctx1 : SF := sf (.v 4) (.v 2) (.v 0) 1

/-- A team saved for a page, and one saved for its slice; core 0 has a watchpoint of team 2. -/
def pager (why : Nat) : State := at_.setTeam 1 { Team.fresh with residency := .saved why 4 false 0x5000 }
def watching : State := at_.updCore 0 (fun c => { c with watches := [(1, ⟨8, 8, 1, 0, false, some 2⟩)] })
def wpPend (o : Nat) : Pend := ⟨0x1AF, 1 + 2 ^ 12 * 0, o + 2 ^ 32 * 4⟩

theorem test_witness_SystemWordsRun_ends : (([⟨0x1AE, 9, 1⟩, ⟨0x1AE, 8, 2⟩] : List Pend).find? (fun p => p.op == 0x1AE)) = some ⟨0x1AE, 9, 1⟩
    ∧ (∀ p ∈ ([⟨0x1AE, 9, 1⟩] : List Pend), p.op ≠ 0x1B1)
    ∧ ([wpPend 4].map (fun q => q.x / 2 ^ 12)).Nodup ∧ [wpPend 4].getLast? = some (wpPend 4)
    ∧ 4 % 8 ≠ 0 ∧ 8 % 8 = 0 ∧ 8 + 8 ≤ (at_.team 0).chamberSize ∧ (at_.team 0).cores.getD ((at_.team 0).hostIndex 8) 0 = 0
    ∧ (watching.core 0).watches.get? 1 = some ⟨8, 8, 1, 0, false, some 2⟩ ∧ (at_.core 0).watches = []
    ∧ (([⟨0x1B2, 0x800, 5⟩] : List Pend).filter (fun p => p.x / 2 ^ 12 == 0)) ≠ [] ∧ (([⟨0x1B2, 0x800, 5⟩] : List Pend).filter (fun p => p.x / 2 ^ 12 == 1)) = []
    ∧ ((pager 3).team 1).residency = .saved 3 4 false 0x5000 ∧ ((pager 1).team 1).residency = .saved 1 4 false 0x5000
    ∧ ((pager 3).grid ((pager 3).team 1).grid).status = 0 ∧ ((pager 3).grid ((pager 3).team 1).grid).complete = false
    ∧ (((pager 3).updGrid ((pager 3).team 1).grid (fun g => { g with status := 6 })).grid ((pager 3).team 1).grid).status ≠ 0 := by
  decide +kernel

theorem test_witness_SystemWordsRun : AtWord at_ st0 x0 [] ∧ GuardHolds (.region ⟨g7, .v 0, .v 32, 5⟩) at_ (stepLane st0 x0)
    ∧ GuardHolds (.perf (sf (.v 4) (.v 0) (.v 0) 3)) at_ (stepLane st0 x0) ∧ noChute (.perf (sf (.v 4) (.v 0) (.v 0) 3)) = true
    ∧ GuardHolds (.stamp (sf (.v 0) (.v 3) (.v 0) 9)) at_ (stepLane st0 x0) ∧ noChute (.stamp (sf (.v 0) (.v 3) (.v 0) 9)) = true
    ∧ GuardHolds (.wpclr (sf (.v 0) (.v 0) (.v 0) 1)) at_ (stepLane st0 x0) ∧ AtWord imaged stp xp []
    ∧ GuardHolds (.pctx pctx1) imaged (stepLane stp xp) ∧ noChute (.pctx pctx1) = true
    ∧ imaged.imageAt (operandVal (imaged.lane 0) pctx1.a 2) = some 1
    ∧ pctxOp (ctxOf stp xp) (operandVal (imaged.lane 0) pctx1.a 2) = 1
    ∧ pctxOp (ctxOf st0 x0) (operandVal (imaged.lane 0) pctx1.a 2) = 0 := by
  refine ⟨at_word, rfl, rfl, rfl, rfl, rfl, rfl, ⟨rfl, rfl, rfl⟩, rfl, rfl, by decide +kernel, by decide +kernel, by decide +kernel⟩

/-- The step of `at_` before its checks. -/
def stu : IssueStep := { st0 with checked := false }
def unchecked : State := { at_ with turn := .issue stu }
/-- Partition 0 holds cluster 0 and one channel of die 0; two feeds; the device authority. -/
def cfg : ConfigRecord := { ConfigRecord.none with map := [(0, [2 ^ 32 + 1, 1, 0, 0x200])], feeds := 2, authority := true, handlers := [(0, 0x10000)] }
def armed : State := { unchecked with dbg := { unchecked.dbg with att := true, brk := true } }

theorem test_witness_SpecialRegisterWordsRun_readOnly : unchecked.turn = .issue stu ∧ stu.todo = [x0] ∧ stu.checked = false
    ∧ GuardHolds (.swr { sf (.v 0) (.v 4) (.v 0) 0 with sr := 0x014 }) unchecked (stepLane stu x0) ∧ (0x014 : BitVec 12).toNat ≠ 0x020
    ∧ (0x014 : BitVec 12).toNat ≠ 0x021 ∧ (0x014 : BitVec 12).toNat ≠ 0x022 := ⟨rfl, rfl, rfl, rfl, by decide, by decide, by decide⟩

theorem test_witness_TrapAndBreakRun : unchecked.turn = .issue stu ∧ stu.todo = [x0] ∧ stu.checked = false
    ∧ order2 (ctxOf stu x0) (Instr.brk (sf (.v 0) (.v 0) (.v 0) 7)).view unchecked = false
    ∧ order3 (unchecked.team 0) (Instr.brk (sf (.v 0) (.v 0) (.v 0) 7)).view = false
    ∧ order4 (unchecked.group 0) (Instr.trap (sf (.v 0) (.v 0) (.v 0) 7)).view = false
    ∧ GuardHolds (.trap (sf (.v 0) (.v 0) (.v 0) 7)) unchecked (stepLane stu x0)
    ∧ ¬ GuardHolds (.trap { sf (.v 0) (.v 0) (.v 0) 7 with g := gNever }) unchecked (stepLane stu x0)
    ∧ unchecked.brkArmed 0 = false ∧ armed.turn = .issue stu ∧ armed.brkArmed 0 = true ∧ (armed.group 0).passBrk = false
    ∧ ((withGroup (fun g => { g with passBrk := true }) armed).group 0).passBrk = true
    ∧ (armed.team 0).record = none ∧ armed.recordsTrap 0 = true :=
  ⟨rfl, rfl, rfl, rfl, rfl, rfl, rfl, (nomatch · : ¬ (false = true)), rfl, rfl, rfl, rfl, rfl, rfl, rfl⟩

def rec0 : TrapRecord :=
  { stamp := 0, cycle := 3, mask := 1, cause := 30, stream := false, inhdl := false, group := 0, pc := 8, core := 0, tx := 0, ty := 0, tz := 0, phases := 0,
    detail := 0, step := 0 }
/-- A team whose trap record stands. -/
def trapped : State := withTeam (fun t => { t with record := some rec0, trigger := some (3, 0) }) at_

theorem test_witness_TrapIsTaken : at_.recordsTrap 0 = true ∧ trapped.recordsTrap 0 = false := by decide +kernel

/-- Lane 0 stands in a clause of one word that is no point. -/
def stray : State :=
  withLane (fun l => { l with clause := some { at_ := 0, hdr := 0b1010 * 2 ^ 60 + 15 * 2 ^ 24 + 15 * 2 ^ 20, words := [0xE1F] } }) { at_ with turn := .idle }

def strayStep : IssueStep :=
  { st0 with
    todo := [⟨0, 0xE1F, 8⟩], all := [⟨0, 0xE1F, 8⟩], ready := [(0, 0)], serial := stray.serial, oc0 := (stray.group 0).oc,
    skips0 := (stray.group 0).skips, tt0 := (stray.team 0).tt, reads := stray.sysReads 0 [⟨0, 0xE1F, 8⟩] }

theorem test_witness_FailingStepExecutesNowhere : stray.stepLanes 0 (classLanes [(0, 0)] 0) = [⟨0, 0xE1F, 8⟩] ∧ stray.breakHit 0 [⟨0, 0xE1F, 8⟩] = none
    ∧ (trapOfStep (stray.failing strayStep)).isSome = true ∧ stray.recordsTrap 0 = true := by
  decide +kernel

def goodBoot : BootIn := { flashReads := true, dramTrained := true, cleared := true, failed := [], domainClock := none }

/-- Whether an image or a record is signed is Config's (log 4): the clauses on each answer stand side by side, and one of them applies. -/
theorem test_witness_BootAndResetRun : State.reset.bootStage = 0 ∧ State.reset.bootError = 0 ∧ State.reset.held = false
    ∧ ({ State.reset with bootStage := 4 } : State).bootStage ≠ 0 ∧ ({ State.reset with bootError := 1 } : State).bootError ≠ 0
    ∧ ({ State.reset with held := true } : State).held = true ∧ ({ goodBoot with domainClock := some 5 } : BootIn).domainClock = some 5
    ∧ (∃ l ∈ ({ cfg with links := [2] } : ConfigRecord).links, l < 16)
    ∧ ({ goodBoot with flashReads := false } : BootIn).flashReads = false ∧ goodBoot.flashReads = true ∧ goodBoot.failed = []
    ∧ ({ goodBoot with dramTrained := false } : BootIn).dramTrained = false ∧ ({ goodBoot with cleared := false } : BootIn).cleared = false
    ∧ mapOk cfg.map = true ∧ cfg.device ≤ 1023 ∧ 1 ≤ cfg.feeds ∧ cfg.feeds ≤ 64 ∧ (95 ≤ 95 ∧ 95 < 105 ∧ 4 < 5 ∧ 105 ≤ 105) := by
  decide +kernel

def fwIn (st : Nat) (len : W32) : State := { at_ with bootStage := 4, fw := { at_.fw with state := st, len := len } }

theorem test_witness_FirmwareEventsRun : (fwIn 0 8).fw.state = 0 ∧ (fwIn 2 8).fw.state = 2 ∧ (fwIn 1 8).fw.state ≠ 0 ∧ (fwIn 1 8).fw.state ≠ 2
    ∧ (fwIn 1 8).fw.state = 1 ∧ (fwIn 1 0).fw.len.toNat = 0 ∧ 2 ^ 24 < (fwIn 1 0x1000001).fw.len.toNat ∧ (fwIn 1 8).fw.len.toNat ≠ 0
    ∧ (fwIn 1 0x1000000).fw.len.toNat ≤ 2 ^ 24 ∧ (fwIn 1 8).Inv ∧ (fwIn 3 8).fw.state = 3 ∧ (fwIn 3 8).fwHalted = false ∧ (fwIn 0 8).bootStage ≠ 0
    ∧ (fwIn 3 8).held = false ∧ ({ fwIn 3 8 with held := true } : State).held = true ∧ ({ fwIn 3 8 with bootStage := 0 } : State).bootStage = 0 := by
  refine ⟨rfl, rfl, by decide +kernel, by decide +kernel, rfl, rfl, by decide +kernel, by decide +kernel, by decide +kernel, rfl, rfl, rfl, by decide +kernel, rfl, rfl, rfl⟩

/-- The part has booted with `cfg`; feed 1 is enabled, or stopped. -/
def booted : State := { at_ with turn := .idle, bootStage := 4, config := some cfg }
def fed : State := booted.setFeed 1 { Feed.fresh with enable := true }
def fedStopped : State := booted.setFeed 1 { Feed.fresh with enable := true, stopped := true, stop := 2 }

theorem test_witness_RegisterAndFeedEventsRun : (fwIn 0 8).ownEvent 0x100 8 = false ∧ 0x100 % 4 = 0 ∧ (fwIn 0 8).fw.state ≠ 1 ∧ (fwIn 0 8).fw.state ≠ 3
    ∧ booted.bootStage = 4 ∧ ({ booted with bootStage := 3 } : State).bootStage ≠ 4
    ∧ booted.hasFeed 1 = true ∧ (booted.feed 1).idle = true ∧ (fed.feed 1).idle = false ∧ (0x30000 ≤ 0x3001C ∧ 0x3001C < 0x30020 ∧ 0x3001C % 4 = 0)
    ∧ 8 % 16 ≤ 8 ∧ (0x80000000 : Nat).testBit 31 = true ∧ bits 0x80000800 11 9 ≤ 4 ∧ 4 < bits 0x80000A00 11 9 ∧ booted.hasFeed 2 = false
    ∧ fed.hasFeed 1 = true ∧ (fed.feed 1).enable = true ∧ (fed.feed 1).stopped = false ∧ (fedStopped.feed 1).stopped = true
    ∧ 16 * 2 ^ (fed.feed 1).size < (BitVec.ofNat 32 17 - (fed.feed 1).tail).toNat
    ∧ (BitVec.ofNat 32 16 - (fed.feed 1).tail).toNat ≤ 16 * 2 ^ (fed.feed 1).size ∧ (BitVec.ofNat 32 16 - (fed.feed 1).head).toNat ≤ 16 * 2 ^ (fed.feed 1).size
    ∧ 15 < (BitVec.ofNat 32 16 - (fed.feed 1).tail).toNat ∧ booted.fwHalted = false ∧ booted.bootStage ≠ 0
    ∧ (booted.cmdLinks.getD 0 CmdLink.fresh).permits ≠ 0 ∧ (List.replicate 32 (0 : Byte)).length = 32
    ∧ (({ booted with cmdLinks := [(0, { permits := 7, inbox := [[1]] })] } : State).cmdLinks.getD 0 CmdLink.fresh).inbox = [1] :: [] := by
  decide +kernel

/-- The partition 0 of `cfg` with one page of 128 MiB at the bottom of die 0, and at its offset 0x100000 the header of an image of version 2 with 16 bytes of
code and one entry. -/
def mapped : State :=
  { booted with
    roots := [(0, 0x10000)],
    mem := [(2 ^ 40 + 0x10000, 1), (2 ^ 40 + 0x10002, 2), (2 ^ 40 + 0x20000, 0x0B), (2 ^ 40 + 0x100007, 2), (2 ^ 40 + 0x100008, 0x10),
      (2 ^ 40 + 0x10000E, 0x10)] }
def imageVa : Nat := 0xFFE0000000100000
/-- A launch of one team of 32 lanes of that image. -/
def launchEntry : List Byte := leBytes 8 imageVa ++ leBytes 8 (1 + 2 ^ 32 + 2 ^ 48) ++ leBytes 8 32 ++ List.replicate 40 0
def theKernel : Kernel := { image := imageVa, hdr := 2 ^ 57, idw := 0x10 + 2 ^ 52 }
def offered : State := mapped.setFeed 0 { Feed.fresh with enable := true, entries := [launchEntry] }

theorem test_image_read : (offered.kernelAt 0 imageVa).1 = some theKernel ∧ theKernel.version = 2 ∧ theKernel.codeSize = 16 ∧ theKernel.entries = 1 := by
  decide +kernel

theorem test_launch_passes : offered.launchCause (entryDesc launchEntry) 0 = 0 := by decide +kernel

/-- Channel 0 of die 0 has failed: in `booted`, which has no tables; in `mapped`, whose root lies in it; and with channel 1 beside it in the partition. -/
def failingOn (s : State) (chans : Nat) : State :=
  { s with health := [(0, { Health.fresh with failing := [0] })], config := some { cfg with map := [(0, [2 ^ 32 + 1, chans, 0, 0x200])] } }
def frameFound (s : State) : Option (Nat × Frame64) :=
  (List.range 256).findSome? (fun p => if s.partValid p then ((s.partFrames p).find? (fun f => f.lies 0 0)).map (fun f => (p, f)) else none)
def rootFrame : Frame64 := ⟨0, none, 0x10000, 16, false, 0⟩

theorem test_witness_HealthEventsRun : booted.recordsTrap (0 / 32) = true ∧ booted.fwHalted = false ∧ booted.held = false ∧ booted.unitOf (.cavern 0 0 .nobody) = none
    ∧ booted.unitOf (.scratch 1 0 .nobody) = some (.core 1)
    ∧ ((booted.eccLog ++ [(UnitId.core 1, booted.now)]).filter (fun e => e.1 == .core 1)).length < 64
    ∧ 64 ≤ ((List.replicate 64 (UnitId.core 1, 5)).filter (fun e => e.1 == .core 1)).length
    ∧ ((failingOn booted 1).dieHealth 0).failing.contains 0 = true ∧ frameFound (failingOn booted 1) = none := by
  decide +kernel
theorem test_witness_HealthEventsRun_frames : frameFound (failingOn mapped 1) = some (0, rootFrame) ∧ frameFound (failingOn mapped 3) = some (0, rootFrame)
    ∧ rootFrame.entry = none := by
  decide +kernel
theorem test_witness_HealthEventsRun_full : (failingOn mapped 1).freeFrame 0 0 0 rootFrame = none := by decide +kernel
theorem test_witness_HealthEventsRun_free : ((failingOn mapped 3).freeFrame 0 0 0 rootFrame).isSome = true := by decide +kernel

/-- Chute q1 with the command processor as its producer end; a feed that appends to it; one that appends to a team there is none of. -/
def cpDesc : BitVec 64 := BitVec.ofNat 64 (64 + 4 * 2 ^ 34 + 2 * 2 ^ 38 + 2 * 2 ^ 45)
def appending (launch : W64) : State :=
  (withChute { Chute.fresh with desc := some cpDesc, free := 16 } booted).setFeed 0
    { Feed.fresh with enable := true, work := true, wlaunch := launch, chute := 1, entries := [List.replicate 64 7] }
def windowed (closed : Bool) : State := { at_ with turn := .idle, cycle := 300, windows := [(5, { die := 0, opened := 40, closed := closed, children := [] })] }

theorem test_witness_FeedDispatchRun : (offered.feed 0).entries = [launchEntry] ∧ offered.liveFeed 0 = true ∧ (offered.feed 0).work = false
    ∧ dAfter (entryDesc launchEntry) = false ∧ (offered.feed 0).partition = 0 ∧ offered.launchCause (entryDesc launchEntry) 0 = 0
    ∧ (offered.kernelAt 0 (dImage (entryDesc launchEntry))).1 = some theKernel
    ∧ (offered.setFeed 0 { Feed.fresh with enable := true, entries := [List.replicate 64 0] }).launchCause (entryDesc (List.replicate 64 0)) 0 ≠ 0
    ∧ (appending 9).liveFeed 0 = true ∧ ((appending 9).feed 0).work = true ∧ (appending 9).findTeam 9 0 = none ∧ (appending 0).findTeam 0 0 = some 0
    ∧ (((appending 0).team 0).chute 1).desc = some cpDesc ∧ descPend cpDesc = 2 ∧ (appending 0).partitionOf 0 = 0
    ∧ ((appending 0).team 0).residency = .resident ∧ (((appending 0).team 0).chute 1).free ≠ 0 ∧ (appending 0).Inv
    ∧ 40 + 256 ≤ (windowed false).cycle ∧ ({ windowed false with fwHalted := true } : State).fwHalted = true ∧ (windowed true).fwHalted = false := by
  refine ⟨rfl, by decide +kernel, rfl, by decide +kernel, rfl, test_launch_passes, by decide +kernel, by decide +kernel, by decide +kernel, rfl,
    by decide +kernel, by decide +kernel, by decide +kernel, by decide +kernel, by decide +kernel, by decide +kernel, by decide +kernel, rfl, by decide +kernel, rfl, rfl⟩

/-- A grid of `n` teams dispatched to cluster `cl`. -/
def grid3 (cl n : Nat) (coop : Bool) : Grid :=
  { Grid.fresh with
    desc := entryDesc launchEntry, kernel := { theKernel with hdr := theKernel.hdr + (if coop then 2 ^ 7 else 0) }, teams := n, accepted := true,
    ranges := [(cl, [(0, n)])] }
/-- Two clusters of die 0 and one of die 1 in the partition. -/
def wide : State := { mapped with config := some { cfg with map := [(0, [2 ^ 32 + 0x103, 1, 0, 0x200])] }, teams := [], groups := [], lanes := [] }
def giving (cl n : Nat) (coop : Bool) : State := wide.setGrid 3 (grid3 cl n coop)

theorem test_kernel_coop : (grid3 0 1 true).kernel.coop = true ∧ (grid3 0 1 false).kernel.coop = false := by decide +kernel

def plan0 : List Share := [⟨0, 1, 0, [0]⟩]

/-- An earlier grid whose team needs more accumulators than a core has. -/
def heavy : State := (giving 0 3 false).setGrid 2 { grid3 0 1 false with kernel := { theKernel with hdr := theKernel.hdr + 7 * 2 ^ 32 } }

theorem test_witness_PlacementRuns : (giving 0 3 false).fwHalted = false ∧ (giving 0 3 false).startable 3 = true ∧ ((giving 0 3 false).grid 3).unstarted 0 ≠ 0
    ∧ (∀ o ∈ (giving 0 3 false).grids, o.1 ≠ 3 → o.2.unstarted 0 = 0)
    ∧ (heavy.grid 2).unstarted 0 ≠ 0 ∧ heavy.startable 2 = true ∧ heavy.before 2 3 = true ∧ heavy.startOn 2 0 = none
    ∧ ((giving 0 3 false).grid 3).nextIndex 0 = some 0 ∧ (giving 0 3 false).roomFor 3 0 = some plan0
    ∧ (((giving 0 3 false).updGrid 3 (fun g => g.takeIndex 0)).startTeam 3 0 plan0).isSome = true
    ∧ (giving 0 2 true).startable 3 = true ∧ (startAll 3 ((giving 0 2 true).clusters 0) 3 (giving 0 2 true)).isSome = true
    ∧ (giving 0 3 false).clusterSteal 0 1 = some (0, 3) ∧ ((giving 0 3 false).grid 3).longest 0 = some (0, 3) ∧ (giving 0 3 false).clusters 0 = [0, 1, 8]
    ∧ (giving 0 3 false).clusterSteal 0 0 = none ∧ (giving 0 3 false).dieSteal 0 1 = some (0, 3) ∧ (giving 0 3 false).dieSteal 0 0 = none := by
  decide +kernel

/-- Cores 0 and 1 have deques of two records; core 0 holds one whose task runs the mapped image. -/
def taskRecord : List Byte := leBytes 8 imageVa ++ List.replicate 56 0
def tasking : State :=
  ((({ wide with mem := wide.mem.writeBytes 0x8000 taskRecord }).setGrid 4 { grid3 0 1 false with tasks := 1 }).updCore 0 (fun c =>
    { c with dqbase := 0x8000, dqlim := 0x8080, dqCount := 1, dqTasks := [⟨4, 0, 0⟩] })).updCore 1 (fun c => { c with dqbase := 0x8000, dqlim := 0x8080 })
def msg (target : Nat) (refused : Bool) : Message := ⟨target, 0x7FF, 0, 0, 0, false, refused, [1, 2]⟩
def handled : State := { wide with config := some { cfg with map := [(0, [2 ^ 32 + 0x103, 1, 0, 0x200])], handlers := [(0, imageVa)] } }
def sending (refused : Bool) (n : Nat) : State :=
  (handled.updCore 0 (fun c => { c with outbox := [msg 1 refused] })).updCore 1 (fun c => { c with inbox := List.replicate n (msg 1 false) })

def farSending : State := handled.updCore 0 (fun c => { c with outbox := [{ msg 1 false with device := 5 }] })

theorem test_witness_TasksAndMessagesRun : tasking.fwHalted = false ∧ (tasking.grid 4).status = 0 ∧ tasking.dqRecords 0 = [(taskRecord, ⟨4, 0, 0⟩)] ∧ tasking.taskReleased ⟨4, 0, 0⟩ = true
    ∧ ((tasking.dqPop 0).runTask 0 taskRecord 4).isSome = true ∧ (tasking.core 1).dqCount = 0 ∧ taskPinned taskRecord = false
    ∧ (victims 1).find? (fun w => (tasking.corePart w == tasking.corePart 1)
            && (match tasking.dqRecords w with | r :: _ => !taskPinned r.1 && (tasking.grid r.2.grid).status == 0 && tasking.taskReleased r.2 | [] => false)) = some 0
    ∧ ((tasking.dqShift 0).runTask 1 taskRecord 4).isSome = true
    ∧ (sending false 0).nextOut (fun e => !e.refused) ((sending false 0).core 0).outbox = some (0, msg 1 false) ∧ (sending false 0).localTarget (msg 1 false) = true
    ∧ (sending false 0).handlerImage 0 0 ≠ 0 ∧ (sending false 0).corePart 1 = some 0 ∧ (sending false 0).chuteRoom 1 (msg 1 false) = true
    ∧ (sending false 56).chuteRoom 1 (msg 1 false) = false ∧ (sending true 0).nextOut (fun e => e.refused) ((sending true 0).core 0).outbox = some (0, msg 1 true)
    ∧ (sending true 0).chuteRoom 1 (msg 1 true) = true ∧ wide.handlerImage 0 5 = 0
    ∧ farSending.nextOut (fun e => !e.refused) (farSending.core 0).outbox = some (0, { msg 1 false with device := 5 })
    ∧ farSending.localTarget { msg 1 false with device := 5 } = false ∧ farSending.linkFor 5 = none
    ∧ ({ farSending with links := [(1, { Link.fresh with enabled := true, up := true })] } : State).linkFor 5 = some 1 := by
  decide +kernel

def arrived : State := sending false 1
theorem test_witness_HandlerRun : arrived.fwHalted = false ∧ (arrived.core 1).inbox = [msg 1 false] ∧ (arrived.kernelAt 0 (arrived.handlerImage 0 0)).1 = some theKernel
    ∧ arrived.planOn 0 theKernel 1 [1] true = some [⟨1, 1, 0, [0]⟩] ∧ arrived.coreGroups 1 = []
    ∧ ((arrived.bump.setGrid arrived.serial { Grid.fresh with
          desc := setDesc (setDesc 0 8 31 0 1) 8 47 32 1, kernel := theKernel, partition := 0, teams := 1, accepted := true,
          prio := 15 }).placeTeam arrived.serial 0 theKernel (.message 0) 32 0 [⟨1, 1, 0, [0]⟩] (firstRegs ([1, 2] : List Nat))).isSome = true := by
  decide +kernel

/-- No lane of the team lives; the team has a second group, which has not retired; the team is halted with a trap record and names no handler. -/
def exited : State := withTeam (fun t => { t with kind := .ordinary }) { at_ with turn := .idle, lanes := [] }
def exited2 : State := (withTeam (fun t => { t with groups := 2 }) exited).setGroup 1 Group.fresh
def halting : State :=
  withGroup (fun g => { g with halted := true }) (withTeam (fun t => { t with record := some rec0, trigger := some (3, 0) }) exited)
def ending : State := halting.updGrid 0 (fun g => { g with status := 2 })

/-- A launch that failed its checks, and names a completion signal. -/
def turnedAway (signal : Nat) : Grid := { Grid.fresh with status := 1, desc := setDesc (setDesc 0 32 63 0 signal) 16 31 24 (if signal = 0 then 0 else 1) }

theorem test_witness_RetirementRuns : (exited.groups.get? 0).isSome = true ∧ (exited.group 0).retired = false ∧ (exited.team (teamOf 0)).residency = .resident
    ∧ exited.liveLanes 0 = [] ∧ (exited.group 0).ops = [] ∧ exited.cmds = [] ∧ (exited.group 0).oc = [] ∧ (exited.team 0).kind = .ordinary ∧ (exited.team 0).record = none
    ∧ (exited.team 0).groups = 1 ∧ exited2.liveLanes 0 = [] ∧ (exited2.team 0).groups = 2 ∧ (exited2.group (groupKey 0 1)).retired = false
    ∧ (halting.grid 0).complete = false ∧ (halting.grid 0).status = 0
    ∧ (halting.teams.filter (fun t => t.2.grid == 0 && t.2.residency == .resident)).find? (fun t => halting.unhandled t.1) = some (0, halting.team 0)
    ∧ (ending.grid 0).status ≠ 0
    ∧ (ending.teams.filter (fun t => t.2.grid == 0 && t.2.residency == .resident)).find? (fun t => ending.drained t.1) = some (0, ending.team 0)
    ∧ (exited.grid 0).accepted = true ∧ ((exited.updGrid 0 (fun g => { g with retired := 1 })).grid 0).retired = 1 ∧ (exited.grid 0).teams = 1
    ∧ (exited.grid 0).tasks = 0 ∧ (exited.grid 0).children = [] ∧ exited.hasChild (exited.grid 0).id.toNat = false
    ∧ exited.canLeave (exited.grid 0).partition (exited.grid 0).desc = true ∧ (exited.grid 0).status = 0 ∧ exited.fwHalted = false
    ∧ (turnedAway 0).status = 1 ∧ (turnedAway 0).complete = false ∧ exited.canLeave 0 (turnedAway 0).desc = true
    ∧ mapped.canLeave 0 (turnedAway 0xFFE0000010000000).desc = false := by
  decide +kernel

/-- Chute q1 with a remote producer, with a remote consumer, and as a deque whose tail the producer's core wants. -/
def remoteP : BitVec 64 := BitVec.ofNat 64 (64 + 4 * 2 ^ 34 + 2 ^ 45)
def remoteC : BitVec 64 := BitVec.ofNat 64 (64 + 4 * 2 ^ 34 + 2 ^ 42)
def remoteDq : BitVec 64 := BitVec.ofNat 64 (64 + 4 * 2 ^ 34 + 2 ^ 40 + 2 ^ 42)
def linked (c : Chute) : State := withChute c { at_ with turn := .idle }
def push0 : Push := { serial := 0, lane := 0, pc := 8, step := 0, from_ := 0, bytes := [1, 2, 3, 4] }
def cP : Chute := { Chute.fresh with desc := some remoteP, arriving := [push0], notices := 2 }
def cC : Chute := { Chute.fresh with desc := some remoteC, elems := [el0], popped := 1 }
def cShut : Chute := { Chute.fresh with desc := some remoteC, elems := [{ el0 with forwarded := true }], closed := true }
def cDq : Chute := { Chute.fresh with desc := some remoteDq, elems := [{ el0 with forwarded := true }], window := [[1, 2, 3, 4]] }
/-- Three elements, of which the oldest is forwarded, after a withdrawal. -/
def cDrawn : Chute := { cDq with elems := [{ el0 with forwarded := true }, el0, el0], withdrawn := true }
/-- A word that pops q1, ADD v1, q1, z; lane 0 stands at it. -/
def popWord : Nat := encode (.add (rrr (.v 1) (.q 1) .z (.v 0)))
def wanting (c : Chute) : State :=
  withLane (fun l => { l with clause := some { at_ := 0, hdr := 0b1010 * 2 ^ 60 + 15 * 2 ^ 24 + 15 * 2 ^ 20, words := [popWord] } }) (linked c)

theorem test_witness_ChuteEventsRun : ((linked cP).Inv ∧ (linked cC).Inv ∧ (linked cShut).Inv ∧ (wanting cDq).Inv) ∧ (linked cP).liveChute 0 1 = some (cP, remoteP) ∧ descPend remoteP = 1 ∧ push0.bytes ≠ []
    ∧ push0.from_ ≤ (linked cP).cycle
    ∧ (linked cP).released (push0.lane / 32) push0.serial = true ∧ cP.elems.length < descCap remoteP ∧ cP.notices ≠ 0
    ∧ (linked cC).liveChute 0 1 = some (cC, remoteC) ∧ cC.nextForward = some (0, el0) ∧ remoteConsumer remoteC = true ∧ cC.window.length < 16 ∧ cC.withdrawn = false
    ∧ (linked cC).poppable el0 = true ∧ cC.popped ≠ 0
    ∧ (wanting cDq).liveChute 0 1 = some (cDq, remoteDq) ∧ (wanting cDq).wantsForwarded 0 1 cDq remoteDq = true
    ∧ (linked cDq).wantsForwarded 0 1 cDq remoteDq = false ∧ (cDrawn.withdrawn = true ∧ 1 + (wanting cDrawn).producerWants 0 1 remoteDq < cDrawn.elems.length)
    ∧ cDrawn.nextForward = some (1, el0) ∧ cDq.window ≠ [] ∧ (wanting { cDq with window := [] }).wantsForwarded 0 1 { cDq with window := [] } remoteDq = true ∧ cDq.poppedAt ≠ some (wanting cDq).cycle
    ∧ ({ cDq with window := [], poppedAt := some 100 } : Chute).poppedAt = some (wanting cDq).cycle
    ∧ (linked cShut).closedHere cShut = true ∧ cShut.closedThere = false ∧ (∀ e ∈ cShut.elems, e.forwarded = true) := by
  refine ⟨⟨rfl, rfl, rfl, rfl⟩, ?_⟩
  decide +kernel

/-- Team 0 runs the mapped image, whose code is one clause of ADD v1, v2, z; lane 0 has still to fetch it. -/
def addWord : Nat := encode (.add (rrr (.v 1) (.v 2) .z (.v 0)))
def addClause : Clause := { at_ := 0, hdr := 0b1010 * 2 ^ 60 + 15 * 2 ^ 24 + 15 * 2 ^ 20 + 16, words := [addWord] }
def coded (hdr : Nat) : State :=
  let s := { mapped with mem := mapped.mem.writeBytes (2 ^ 40 + 0x100000 + theKernel.codeAt) (leBytes 8 hdr ++ leBytes 8 addWord) }
  withLane (fun l => { l with clause := none }) (withTeam (fun t => { t with kernel := theKernel }) s)
/-- Lane 0 stands at its clause. -/
def standing : State := withLane (fun l => { l with clause := some addClause }) { at_ with turn := .idle }
/-- The state as the port serves it. -/
def refreshed : State := (standing.refresh 0 0).noteWhy
def xa : StepLane := ⟨0, addWord, 8⟩
def standing1 (r : State) : State :=
  (r.updCore 0 (fun c => { c with ptr := c.ptr.put 0 0, served := c.served.put 0 r.cycle })).updGroup 0 (fun g => { g with opps := g.opps + 1 })
def stepOf (r : State) : IssueStep :=
  { group := 0, cls := 1, todo := [xa], all := [xa], checked := true, ready := [(0, 1)], serial := r.serial, oc0 := (r.group 0).oc,
    skips0 := (r.group 0).skips, tt0 := (r.team 0).tt, reads := (standing1 r).sysReads 0 [xa], pend := [] }

theorem test_witness_IssueEventsRun : ((coded addClause.hdr).groups.get? 0).isSome = true ∧ ((coded 0).group 0).retired = false
    ∧ ((coded 0).team (teamOf 0)).residency = .resident ∧ ((coded 0).lane (laneKey 0 0)).fetching = true
    ∧ ((coded addClause.hdr).fetchClause 0 0).1 = some addClause ∧ addClause.valid theKernel.codeSize = true
    ∧ ((coded 0).fetchClause 0 0).1 = some { addClause with hdr := 0 } ∧ ({ addClause with hdr := 0 } : Clause).valid theKernel.codeSize = false
    ∧ standing.turn = .idle ∧ (standing.core 0).served.get? 0 ≠ some standing.cycle
    ∧ refreshed.nextSlot 0 0 = some (0, 0) ∧ (refreshed.group 0).core = 0 ∧ refreshed.badLanes 0 = []
    ∧ refreshed.readyLanes 0 = [(0, 1)] ∧ refreshed.stepLanes 0 (classLanes [(0, 1)] 1) = [xa]
    ∧ (standing1 refreshed).census 0 [(0, 1)] = some 1 ∧ (standing1 refreshed).breakHit 0 [xa] = none
    ∧ trapOfStep ((standing1 refreshed).failing (stepOf refreshed)) = none := by
  decide +kernel

def sealing : State := { inFlight (.sealing 2 true (.v 1)) with sealTables := [(0, [(2, { sealed_ with by_ := 7, ready := false })])] }
/-- An XTLD of core 0's copy in flight, whose copy is not loading yet, or is. -/
def loadKind : OpKind := .xtld 0 0 64 4096 [0] none
def loading : State := withTeam (fun t => { t with contexts := [(0, { Context.empty with cond := 1 })] }) (inFlight loadKind)
def unsealing : State := { inFlight (.sealing 18 false (.v 1)) with sealTables := [(0, [(18, sealed_)])] }

theorem test_witness_OperationsComplete : ((inFlight loadKind).group 0).op? 7 = some (flying loadKind) ∧ (inFlight loadKind).mayPerform 0 (flying loadKind) = true
    ∧ (((inFlight loadKind).team 0).contexts.getD (0 * 8 + 0) Context.empty).cond ≠ 1
    ∧ (loading.group 0).op? 7 = some (flying loadKind) ∧ loading.mayPerform 0 (flying loadKind) = true
    ∧ ((loading.team 0).contexts.getD (0 * 8 + 0) Context.empty).cond = 1
    ∧ ((inFlight (.waits 8 5 (.v 4) false)).group 0).op? 7 = some (flying (.waits 8 5 (.v 4) false))
    ∧ leNat ((inFlight (.waits 8 5 (.v 4) false)).mem.readBytes 8 4) ≠ (5 : W32).toNat
    ∧ (inFlight (.waits 8 5 (.v 4) false)).groupHalted 0 = false ∧ (inFlight (.waits 8 5 (.v 4) false)).mayPerform 0 (flying (.waits 8 5 (.v 4) false)) = true
    ∧ (inFlight (.waits 8 5 (.v 4) false)).storesTo 0 7 8 4 = false ∧ ((inFlight (.waits 8 5 (.v 4) false)).team 0).residency = .resident
    ∧ ((inFlight .fencei).group 0).op? 7 = some (flying .fencei)
    ∧ (sealing.group 0).op? 7 = some (flying (.sealing 2 true (.v 1)))
    ∧ List.find? (fun y => y.2.by_ == 7) (sealing.sealTables.getD (sealing.partitionOf 0) []) = some (2, { sealed_ with by_ := 7, ready := false })
    ∧ SealEntry.heard { sealed_ with by_ := 7, ready := false } sealing = true
    ∧ sealing.writesPending (sealing.partitionOf 0) 7 { sealed_ with by_ := 7, ready := false } = false
    ∧ (unsealing.group 0).op? 7 = some (flying (.sealing 18 false (.v 1)))
    ∧ (unsealing.sealTables.getD (unsealing.partitionOf 0) []).get? 18 = some sealed_ ∧ SealEntry.heard sealed_ unsealing = true ∧ sealed_.ready = true := by
  decide +kernel
theorem test_witness_operations_inv : loading.Inv ∧ (inFlight (.waits 8 5 (.v 4) false)).Inv := ⟨rfl, rfl⟩

/-- One command of the group in its queue. -/
def queued (c : Command) : State := { booted with cmds := [(9, c)], serial := 10 }
/-- CPY of 4 elements of one byte within the chamber; the same from another part, whose device is 5; and the same on its way. -/
def copyCmd : Command := { Command.fresh 0x140 0 with sd := chamberRecord, ss := chamberRecord, cnt := 4, seq := 1 }
def farRecord : BitVec 256 := BitVec.ofNat 256 (5 * 2 ^ 53 + 4096 * 2 ^ 64 + 3 * 2 ^ 112 + 2 * 2 ^ 116)
def farCmd : Command := { copyCmd with ss := farRecord }
def lateCmd : Command := { farCmd with st := .performing, sent := [(0, (1, 100, 5))] }
def queuedFar (c : Command) : State :=
  { queued c with links := [(1, { Link.fresh with enabled := true, up := true })], cycle := 2000000 }
/-- A signal on the mapped page: SWAIT, SIG, and the collective words on its address. -/
def signalRecord : BitVec 256 := BitVec.ofNat 256 (0xFFE0000000200000 + 4096 * 2 ^ 64 + 3 * 2 ^ 112 + 3 * 2 ^ 116)
def onSignal (op : Nat) : State :=
  { mapped with cmds := [(9, { Command.fresh op 0 with sd := signalRecord, sx := signalRecord, seq := 1 })], serial := 10 }

theorem test_record : recSpace farRecord = 3 ∧ recFmt farRecord = 2 ∧ recSize farRecord = 4 ∧ recFmt signalRecord = 3 := by decide +kernel

def started (c : Command) : Command := c.begin_.start (c.starting 0)
theorem test_witness_EngineEventsRun : (queued copyCmd).mayStart 9 copyCmd = true ∧ 0 < copyCmd.units ∧ copyCmd.performed.contains 0 = false
    ∧ (queued copyCmd).frontRoom copyCmd 0 = true ∧ (queued copyCmd).actOf copyCmd 0 = some (.read chamberRecord 0 0 0)
    ∧ ((queued copyCmd).setCmd 9 (started copyCmd)).farAct (started copyCmd) 0 (.read chamberRecord 0 0 0) = none
    ∧ (queuedFar farCmd).mayStart 9 farCmd = true ∧ (queuedFar farCmd).actOf farCmd 0 = some (.read farRecord 0 0 0)
    ∧ ((queuedFar farCmd).setCmd 9 (started farCmd)).farAct (started farCmd) 0 (.read farRecord 0 0 0) = some (5 * 2 ^ 53, .read 4)
    ∧ farCmd.sent.get? 0 = none ∧ vaDev (5 * 2 ^ 53) = 5 ∧ (queuedFar farCmd).linkFor 5 = some 1 ∧ (queued farCmd).linkFor 5 = none
    ∧ (queuedFar lateCmd).mayStart 9 lateCmd = true ∧ (queuedFar lateCmd).frontRoom lateCmd 0 = true
    ∧ (queuedFar lateCmd).actOf lateCmd 0 = some (.read farRecord 0 0 0) ∧ lateCmd.sent.get? 0 = some (1, 100, 5)
    ∧ ((queuedFar lateCmd).setCmd 9 (started lateCmd)).farAct (started lateCmd) 0 (.read farRecord 0 0 0) = some (5 * 2 ^ 53, .read 4)
    ∧ 100 + cyclesOf 1000000 ≤ (queuedFar lateCmd).cycle ∧ ({ queuedFar lateCmd with cycle := 101 } : State).cycle < 100 + cyclesOf 1000000
    ∧ ((queuedFar lateCmd).link 1).running = true ∧ ((queued lateCmd).link 1).running = false := by
  decide +kernel

def cmd9 (op : Nat) : Command := { Command.fresh op 0 with sd := signalRecord, sx := signalRecord, seq := 1 }
/-- The SWAIT has begun. -/
def begun : State := (onSignal 0x14F).updCmd 9 (fun c => c.begin_)
theorem test_witness_EngineEventsRun_signals : (onSignal 0x14F).mayStart 9 (cmd9 0x14F) = true ∧ (onSignal 0x14F).foreignAt (cmd9 0x14F) 0 signalRecord 0 false = none
    ∧ (match (begun.engineElem 0 0 signalRecord 0 none (begun.ownAnswer (cmd9 0x14F) (.read signalRecord 1 0 0) (.data []))).1 with
        | .bytes b => decide (0 ≤ leNat b) | _ => false) = true
    ∧ isSignal 0x14D = true ∧ (onSignal 0x14D).allBefore (cmd9 0x14D) 9 = true ∧ boundsOf (recBounds signalRecord) (recExtent signalRecord) 8 0 8 0 = .at_ 0
    ∧ vaReserved 0xFFE0000000200000 = false ∧ (onSignal 0x14D).ownAddr 0xFFE0000000200000 = true
    ∧ ((onSignal 0x14D).signalAt (.die 0) 0 0xFFE0000000200000 (fun x => (x + 0) % 2 ^ 64)).1 = none
    ∧ vaReserved (recBase signalRecord) = false ∧ (onSignal 0x152).ownAddr (recBase signalRecord) = true ∧ (onSignal 0x152).mayStart 9 (cmd9 0x152) = true
    ∧ (onSignal 0x152).inFrame (cmd9 0x152) = false ∧ (onSignal 0x151).colls.get? ((onSignal 0x151).collKey 0 (recBase signalRecord)) = none := by
  decide +kernel

/-- The leaf of page 0 of die 0, and a purge of it in progress. -/
def mappedLeaf : Option Leaf := match mapped.walk 0 0 0 with | .ok l => some l | .error _ => none
def purge0 : PurgeWait := { owner := 0, partition := 0, page := 0, span := 2048, leaf := 0x20000, waiting := [1, 8 + 5], untold := [8 + 5] }
def purging (p : PurgeWait) : State := { mapped with purges := [(4, p)] }
/-- A data flit with sequence number `seq`, of zero bytes, and its check. -/
def flitBody (seq : Nat) : List Byte := List.replicate 64 0 ++ [BitVec.ofNat 8 seq, BitVec.ofNat 8 (seq / 256), 0, 0]
def flit (seq : Nat) : List Byte := flitBody seq ++ leBytes 4 (crc32c (flitBody seq)).toNat
def linkOn : Link := { Link.fresh with enabled := true, up := true, retry := [(3, [])], failures := [(3, 8)] }
def onLink (l : Link) : State := { booted with links := [(2, l)] }

theorem test_leNat_leBytes4 (n : Nat) (h : n < 2 ^ 32) : leNat (leBytes 4 n) = n := by
  simp only [leBytes, leNat, BitVec.toNat_ofNat]
  omega

theorem test_flit_sound (seq : Nat) (h : seq < 4096) : flitLost (flit seq) = false ∧ flitType (flit seq) = 0 ∧ flitSeq (flit seq) = seq := by
  have hb : (flit seq).take 68 = flitBody seq := rfl
  have hd : (flit seq).drop 68 = leBytes 4 (crc32c (flitBody seq)).toNat := rfl
  have h4 : ((flit seq).drop 64).take 2 = [BitVec.ofNat 8 seq, BitVec.ofNat 8 (seq / 256)] := rfl
  have h6 : ((flit seq).drop 66).take 2 = [0, 0] := rfl
  have hl : (flit seq).length = 72 := rfl
  have hs : leNat [BitVec.ofNat 8 seq, BitVec.ofNat 8 (seq / 256)] = seq := by
    simp only [leNat, BitVec.toNat_ofNat]
    omega
  have ht : flitType (flit seq) = 0 := by
    simp only [flitType, h4, hs, bits]
    omega
  refine ⟨?_, ht, ?_⟩
  · simp only [flitLost, hb, hd, h6, hl, ht, test_leNat_leBytes4 _ (crc32c (flitBody seq)).isLt]
    simp [leNat, bits]
  · simp only [flitSeq, h4, hs, bits]
    omega

/-- A request of part 5 for bytes of die 0, and what serving it comes to: 0 it waits, 1 nothing is answered yet, 2 a fault, 3 an answer. -/
def ask (part : Nat) (act : OwnerAct) : OwnerReq := ⟨.part 5, 2, 0, part, 0x200000, act, false⟩
def servedAs (s : State) (r : OwnerReq) : Nat :=
  match s.serveReq r with
  | none => 0
  | some (none, _) => 1
  | some (some (.error _), _) => 2
  | some (some (.ok _), _) => 3
def answers (x : Except Nat (List Byte) × State) : Bool := match x.1 with | .ok _ => true | .error _ => false
/-- Die 0 has no room for another collective. -/
def full : State := { mapped with colls := (List.range 1024).map (fun n => (n, { desc := [], partition := 0, opened := 0, taken := [] })) }
/-- A launch of the mapped image is in flight. -/
def pinning : State := mapped.setGrid 3 { Grid.fresh with kernel := theKernel, pinned := true }

set_option maxRecDepth 8000 in
theorem test_witness_OwnerAndLinkEventsRun : mapped.held = false ∧ (ask 0 (.read 4)).owner < 5
    ∧ servedAs full (ask 0 (.coll 0 [])) = 0 ∧ servedAs mapped (ask 0 (.wait 1)) = 1 ∧ servedAs mapped (ask 5 (.read 4)) = 2 ∧ servedAs mapped (ask 0 (.read 4)) = 3
    ∧ answers (mapped.serve (.part 5) 0 0 0x200000 4 none) = true ∧ answers (mapped.serve (.part 5) 0 0 0x200000 4 (some [1, 2, 3, 4])) = true
    ∧ (match (mapped.look (ask 0 (.add 1))).1 with | .ok a => a == 2 ^ 40 + 0x200000 | .error _ => false) = true
    ∧ (mapped.signalAt (.part 5) 0 (ownerVa (ask 0 (.add 1))) (fun y => (y + 1) % 2 ^ 64)).1 = none
    ∧ 0 ≤ leNat ((mapped.look (ask 0 (.wait 0))).2.mem.readBytes (2 ^ 40 + 0x200000) 8) ∧ leNat ((mapped.look (ask 0 (.wait 1))).2.mem.readBytes (2 ^ 40 + 0x200000) 8) < 1
    ∧ mappedLeaf.isSome = true ∧ (mappedLeaf.all (fun l => l.page == 27)) = true
    ∧ mapped.pinnedPage 0 (0 * 2 ^ 50 + 0 / 2 ^ 27 * 2 ^ 27) (2 ^ 27) = false ∧ pinning.pinnedPage 0 (0 * 2 ^ 50 + 0 / 2 ^ 27 * 2 ^ 27) (2 ^ 27) = true := by
  decide +kernel

theorem test_witness_OwnerAndLinkEventsRun_purges : (purging purge0).purges.get? 4 = some purge0 ∧ 1 ∈ purge0.waiting ∧ purge0.untold.contains 1 = false
    ∧ 13 ∈ purge0.waiting ∧ purge0.untold.contains 13 = true ∧ (purging purge0).linkFor (13 - 8) = none
    ∧ ({ purging purge0 with links := [(2, linkOn)] } : State).linkFor (13 - 8) = some 2
    ∧ (purging { purge0 with waiting := [] }).purges.get? 4 = some { purge0 with waiting := [] } := by
  decide +kernel

/-- A link whose send window is full; one that is down; one that retrains. -/
def linkFull : Link := { linkOn with retry := List.replicate 1024 (3, []) }

theorem test_witness_OwnerAndLinkEventsRun_links : (onLink linkOn).link 2 = linkOn
    ∧ linkOn.enabled = true ∧ flitLost [] = true ∧ seqAhead linkOn.rxNext 0 = 0 ∧ (0 < seqAhead linkOn.rxNext 1023 ∧ seqAhead linkOn.rxNext 1023 < 1024)
    ∧ 1024 ≤ seqAhead linkOn.rxNext 1024 ∧ (∃ r ∈ linkOn.retry, r.1 = 3) ∧ linkOn.failures.getD 3 0 = 8
    ∧ ({ linkOn with failures := [] } : Link).failures.getD 3 0 ≠ 8 ∧ linkOn.running = true ∧ (3, []) ∈ linkOn.retry ∧ ({ linkOn with up := false } : Link).running = false
    ∧ linkOn.resend = [] ∧ linkOn.queue = [] ∧ linkOn.retry.length < 1024 ∧ 1024 ≤ linkFull.retry.length ∧ linkFull.running = true
    ∧ linkOn.up = true ∧ ({ linkOn with up := false } : Link).up = false ∧ ({ linkOn with retraining := true } : Link).retraining = true := by
  decide +kernel
/-- A flit that is not lost and carries no data: an acknowledgement. -/
theorem test_ack_sound : flitLost (flit (3 * 4096)) = false ∧ flitType (flit (3 * 4096)) = 3 := by
  have hd : (flit (3 * 4096)).drop 68 = leBytes 4 (crc32c (flitBody (3 * 4096))).toNat := rfl
  have hb : (flit (3 * 4096)).take 68 = flitBody (3 * 4096) := rfl
  have ht : flitType (flit (3 * 4096)) = 3 := by decide +kernel
  refine ⟨?_, ht⟩
  have h6 : ((flit (3 * 4096)).drop 66).take 2 = [0, 0] := rfl
  have hl : (flit (3 * 4096)).length = 72 := rfl
  simp only [flitLost, hb, hd, h6, hl, ht, test_leNat_leBytes4 _ (crc32c (flitBody (3 * 4096))).isLt]
  simp [leNat, bits]
theorem test_witness_owner_inv : mapped.Inv ∧ (purging purge0).Inv := ⟨rfl, rfl⟩

/-- The mapped image names handler 0 at entry 0: the team has recorded a trap and has stopped. -/
def handling0 : State :=
  withGroup (fun g => { g with halted := true }) (withTeam (fun t => { t with
    kernel := { theKernel with hdr := theKernel.hdr + 2 ^ 48 }, record := some rec0, trigger := some (3, 0) }) mapped)
theorem test_handler_named : (handling0.team 0).kernel.handler = 1 := by decide +kernel

def frame0 : Frame := { gi := 0, record := rec0, group := at_.group 0, lanes := [(0, at_.lane 0)], spill := [] }
def inHandler : State := withTeam (fun t => { t with frame := some frame0, record := some rec0, handling := true }) at_

theorem test_witness_HandlersRun : (trapped.groups.get? 0).isSome = true ∧ (trapped.team (teamOf 0)).trigger ≠ none ∧ (trapped.group 0).halted = false
    ∧ trapped.headGrant (trapped.group 0).core = none
    ∧ (withTeam (fun t => { t with trigger := some (3, 0) }) asking).headGrant 0 = some (0, 2)
    ∧ (handling0.team 0).record = some rec0 ∧ (handling0.team 0).residency = .resident ∧ (handling0.team 0).handling = false ∧ rec0.inhdl = false
    ∧ (handling0.team 0).stops = [] ∧ (handling0.team 0).kernel.handler ≠ 0 ∧ (handling0.team 0).frameHeld = true
    ∧ (handling0.grid (handling0.team 0).grid).status = 0 ∧ handling0.allStopped 0 = true ∧ handling0.allLanded 0 = true
    ∧ (handling0.team 0).saveFor = none ∧ (∀ k ∈ handling0.teamGroups 0, k ∉ (handling0.core (handling0.group k).core).grants)
    ∧ (handling0.readVa (handling0.partitionOf 0) ((handling0.team 0).kernel.image + 16 + 4 * (handling0.team 0).kernel.handler) 4).1 = some [0, 0, 0, 0]
    ∧ (inHandler.team (teamOf 0)).frame = some frame0 ∧ (inHandler.team (teamOf 0)).record = some rec0 ∧ frame0.gi < 128
    ∧ rec0.cause ≠ 32 ∧ rec0.mask.getLsbD 0 = true ∧ rec0.mask.getLsbD 1 = false
    ∧ (inHandler.grid (inHandler.team (teamOf 0)).grid).status = 0 ∧ (inHandler.grid (inHandler.team (teamOf 0)).grid).complete = false := by
  decide +kernel
theorem test_witness_handler_inv : handling0.Inv := rfl

/-- The team is to be saved and rests; it is saved and waits for its place. -/
def selectedTeam : State := withGroup (fun g => { g with halted := true }) (withTeam (fun t => { t with kind := .ordinary, saveFor := some (1, 0) }) booted)
def savedTeam : State := withTeam (fun t => { t with kind := .ordinary, kernel := { image := 0, hdr := 0, idw := 0 }, residency := .saved 1 0 true 64 }) booted
/-- The slice of grid 0 has ended, and grid 3 waits for its cores. -/
def sliced : State := { (withTeam (fun t => { t with kind := .ordinary }) booted).setGrid 3 (grid3 0 1 false) with cycle := 3000000 }
def vacated : State := { booted with vacateAt := [(0, 50)], vacating := [0] }
def parkedCmd : Command := { copyCmd with st := .parked, page := 4, frozen := true }

/-- The team is to be saved for the page that its command waits for. -/
def parkedTeam : State := { withTeam (fun t => { t with saveFor := some (3, 4) }) selectedTeam with cmds := [(9, { copyCmd with st := .parked, page := 4 })] }
def unparked : State := withTeam (fun t => { t with saveFor := some (3, 4) }) selectedTeam

theorem test_witness_PreemptionRuns : (selectedTeam.team 0).saveFor = some (1, 0) ∧ selectedTeam.canSave 0 = true
    ∧ (∀ k ∈ selectedTeam.teamGroups 0, k ∉ (selectedTeam.core (selectedTeam.group k).core).grants)
    ∧ (parkedTeam.team 0).saveFor = some (3, 4) ∧ parkedTeam.canSave 0 = true
    ∧ parkedTeam.cmds.find? (fun c => teamOf c.2.group == 0 && c.2.st == .parked) = some (9, { copyCmd with st := .parked, page := 4 })
    ∧ unparked.canSave 0 = true ∧ unparked.cmds.find? (fun c => teamOf c.2.group == 0 && c.2.st == .parked) = none
    ∧ ([(64, [1, 2]), (66, [3])] : List (Nat × List Byte)).Pairwise (fun x y => overlaps x.1 x.2.length y.1 y.2.length = false)
    ∧ ({ savedTeam with fwHalted := true } : State).fwHalted = true
    ∧ savedTeam.fwHalted = false ∧ (savedTeam.team 0).kernel.coop = false ∧ savedTeam.fitsBack 0 = true
    ∧ (queued parkedCmd).cmds.get? 9 = some parkedCmd
    ∧ (sliced.teams.filter (fun t => t.2.grid == 0 && t.2.residency == .resident && !t.2.cores.any sliced.askedNow)).isEmpty = false
    ∧ (sliced.grid 0).status = 0 ∧ sliced.fwHalted = false ∧ booted.fwHalted = false
    ∧ (sliced.grid 0).sliceAt + cyclesOf cfg.sliceNs ≤ sliced.cycle ∧ (∀ t ∈ sliced.teams, t.2.stops = [])
    ∧ sliced.coresWanted (sliced.grid 0).partition (sliced.grid 0).prio 0 = true
    ∧ ({ sliced with grids := sliced.grids.filter (fun g => g.1 == 0) } : State).coresWanted 0 0 0 = false
    ∧ booted.windowOver = [] ∧ vacated.windowOver ≠ [] ∧ (∃ c ∈ (vacated.team 0).cores, c ∈ vacated.windowOver ∧ vacated.holdsSlot 0 c = true)
    ∧ booted.vacateAt.get? 0 = none ∧ vacated.vacateAt.get? 0 = some 50 := by
  decide +kernel
theorem test_witness_save_inv : selectedTeam.Inv ∧ parkedTeam.Inv ∧ unparked.Inv ∧ savedTeam.Inv := ⟨rfl, rfl, rfl, rfl⟩

/-- A debugger is attached to partition 0 and has selected team 0 of launch 0; the team is stopped. -/
def attached : State := { booted with dbg := { booted.dbg with att := true } }
def stoppedBy (h : StopHold) (s : State) : State :=
  withGroup (fun g => { g with halted := true }) (withTeam (fun t => { t with stops := [h], trigger := some (3, 0) }) s)

/-- The team is stopped by a BRK of group 0. -/
def stoppedByBrk : State := withTeam (fun t => { t with record := some { rec0 with cause := 31 }, stopRecord := true }) (stoppedBy ⟨0, 0⟩ attached)

theorem test_witness_StopsAndResumesRun : booted.refusal 0 = some 5 ∧ attached.refusal 0 = none ∧ attached.selected = some 0
    ∧ ({ attached with dbg := { attached.dbg with team := 7 } } : State).selected = none ∧ (attached.team 0).residency = .resident
    ∧ (attached.team 0).stops.contains ⟨0, 0⟩ = false ∧ ((stoppedBy ⟨0, 0⟩ attached).team 0).stops = [⟨0, 0⟩]
    ∧ ((stoppedBy ⟨0, 0⟩ attached).team 0).record = none ∧ ((stoppedBy ⟨0, 0⟩ attached).team 0).saveFor = none ∧ (attached.team 0).handling = false
    ∧ attached.refusal 1 = none ∧ attached.partCluster attached.dbg.part (wTarget 1) = true ∧ attached.refusal 2 = none ∧ attached.refusal 3 = none
    ∧ (attached.teamsIn 1 0).length = 1 ∧ attached.dbg.stops.contains (1, 0) = false
    ∧ ({ attached with dbg := { attached.dbg with stops := [(3, 0)] } } : State).dbg.stops.contains (3, wTarget 3) = true
    ∧ attached.dbg.idleStops.contains (1, 0) = false ∧ attached.partCluster attached.dbg.part (wTarget (1 + 16 * 9)) = false
    ∧ ({ attached with dbg := { attached.dbg with idleStops := [(1, 9)] } } : State).dbg.idleStops.contains (1, 9) = true
    ∧ (stoppedByBrk.team 0).stops = [⟨0, 0⟩] ∧ (stoppedByBrk.team 0).stopRecord = true ∧ (stoppedByBrk.team 0).brkOf 0 = true
    ∧ ((stoppedBy ⟨0, 0⟩ (withTeam (fun t => { t with record := some rec0 }) attached)).team 0).record = some rec0
    ∧ ((stoppedBy ⟨0, 0⟩ (withTeam (fun t => { t with record := some rec0 }) attached)).team 0).stopRecord = false := by
  decide +kernel

def bpVal : Nat := 2 ^ 32 + 8
def wpVal : Nat := 2 ^ 34 + 2 ^ 28 + 64

theorem test_witness_DebugRegistersRun : (0 : Nat).testBit 8 = false ∧ booted.dbg.att = false ∧ attached.dbg.att = true
    ∧ ({ attached with dbg := { attached.dbg with team := 7 } } : State).selected = none ∧ attached.selected = some 0 ∧ attached.stopped 0 = false
    ∧ (stoppedBy ⟨0, 0⟩ attached).stopped 0 = true ∧ groupKey 0 (stoppedBy ⟨0, 0⟩ attached).dbg.group ∈ (stoppedBy ⟨0, 0⟩ attached).teamGroups 0
    ∧ groupKey 0 5 ∉ (stoppedBy ⟨0, 0⟩ attached).teamGroups 0
    ∧ ((withLane (fun l => { l with block := .park 90 10 }) (stoppedBy ⟨0, 0⟩ attached)).lane (laneKey 0 0)).block = .park 90 10
    ∧ (stoppedBy ⟨0, 0⟩ attached).dbg.stepping = none
    ∧ (3 ≤ bits (wpVal + 3 * 2 ^ 30) 32 30 ∧ bits (wpVal + 3 * 2 ^ 30) 32 30 ≤ 4 ∧ attached.authority = true)
    ∧ ({ attached with config := some { cfg with authority := false } } : State).authority = false
    ∧ 4 < bits (wpVal + 5 * 2 ^ 30) 32 30 ∧ bits (wpVal + 1) 19 0 % 8 ≠ 0 ∧ bits (wpVal - 2 ^ 28) 29 28 = 0
    ∧ attached.corePart (bits wpVal 27 20) = some attached.dbg.part ∧ attached.corePart (bits (wpVal + 200 * 2 ^ 20) 27 20) ≠ some attached.dbg.part
    ∧ (∀ w ∈ (attached.core (bits wpVal 27 20)).watches, w.1 = 0 → w.2.team = none) ∧ bits wpVal 19 0 % 8 = 0 ∧ bits wpVal 29 28 ≠ 0
    ∧ bpVal.testBit 32 = true ∧ bits bpVal 35 33 ≤ 1 ∧ wpVal.testBit 34 = true ∧ bits wpVal 32 30 ≤ 2
    ∧ (0 : Nat).testBit 34 = false := by
  decide +kernel

/-- The ninth cycle slot of a sample period: core 0 has a sample of team 0; the stopped team may be dumped. -/
def sampled : State :=
  ({ attached with cycle := 2048, dbg := { attached.dbg with trace := true } }).updCore 0 (fun c =>
    { c with samples := [(1, { group := 0, mask := 1, cls := 1, tag := 0, idle := false })], served := [(1, 2048)] })

def dumping : State := { stoppedBy ⟨0, 0⟩ attached with dbg := { attached.dbg with dumpBusy := true } }

theorem test_witness_TracesAndDumpsRun : (sampled.core 0).samples.get? 1 = some { group := 0, mask := 1, cls := 1, tag := 0, idle := false }
    ∧ sampled.dbg.trace = true ∧ sampled.watched (teamOf 0) = true ∧ sampled.cycle % 2 ^ sampled.dbg.k = 0 ∧ (sampled.core 0).served.get? 1 = some sampled.cycle
    ∧ attached.sampleDue 0 1 = none
    ∧ dumping.dbg.dumpBusy = true ∧ dumping.dbg.dumpAt = none
    ∧ (∀ c ∈ dumping.cmds, teamOf c.2.group = dumping.dbg.dumpTeam → c.2.op = 0x14F ∨ dumping.startedDone c.2 = true)
    ∧ ({ dumping with dbg := { dumping.dbg with dumpAt := some 5 } } : State).dbg.dumpAt ≠ none
    ∧ booted.dbg.att = false ∧ (stoppedBy ⟨0, 0⟩ attached).selected = some 0 ∧ (stoppedBy ⟨0, 0⟩ attached).stopped 0 = true ∧ attached.dbg.dumpBusy = false
    ∧ ({ attached with dbg := { attached.dbg with dumpBusy := true } } : State).dbg.dumpBusy = true ∧ attached.cmds = []
    ∧ ({ booted with fwHalted := true } : State).fwHalted = true := by
  decide +kernel
theorem test_witness_trace_inv : sampled.Inv ∧ (stoppedBy ⟨0, 0⟩ attached).Inv ∧ attached.Inv := ⟨rfl, rfl, rfl⟩

theorem test_witness_EncodingRoundTrips : (Instr.add (rrr (.v 1) (.q 1) .z (.v 0))).isWord = true ∧ (Instr.add (rrr (.v 1) (.q 1) .z (.v 0))).wf = true
    ∧ popWord < 2 ^ 64 := by decide +kernel
theorem test_witness_decoded : decodeWord 0x000000018140CE20 = .ok (.add ⟨⟨7, false⟩, .v 6, .v 5, .v 3, .v 0, 0, 0, false, 0, 0⟩) := rfl

/-- The step of `at_` before its checks, in a team that Fiaris did not place. -/
def ordinary : State := withTeam (fun t => { t with kind := .ordinary }) unchecked
theorem test_witness_ReservedCellsRefused : 14 ≤ bits 0x1C0 8 5 ∧ (rowOf 0x03F).isNone = false ∧ (rowOf 0x19F).isNone = true ∧ bits 0x18B 8 0 = 0x18B
    ∧ 14 ≤ ({ at_ := 0, hdr := 14 * 16, words := [] } : Clause).cls ∧ 0x1C0 ∈ ({ at_ := 0, hdr := 0, words := [0x1C0] } : Clause).words
    ∧ ordinary.turn = .issue stu ∧ stu.todo = [x0] ∧ stu.checked = false ∧ (ordinary.team (teamOf stu.group)).kind ≠ .service := by
  decide +kernel

theorem test_witness_OperandSpace : rowOf 0x020 = some (.rrr Rows.add) ∧ Rows.add.ok2 0x020 = true ∧ Rows.add.ok2 (0x109 * 2 ^ 13 + 0x020) = true
    ∧ 265 ≤ bits (0x109 * 2 ^ 13 + 0x020) 21 13 ∧ (match Rows.add.d with | .reg .. => true | _ => false) = true := by decide +kernel

theorem test_witness_AccumulatorPins : (∀ c ∈ [Cell.zero, { Cell.zero with v := 2 ^ 575 - 1 }], c.ovf = false) ∧ (0 : Int) + 5 ≤ 2 ^ 575 - 1
    ∧ (2 ^ 575 - 1 : Int) < ({ Cell.zero with v := 2 ^ 575 - 1 } : Cell).v + 1 ∧ ({ Cell.zero with v := -(2 ^ 575) } : Cell).v + -1 < -(2 ^ 575)
    ∧ ({ Cell.zero with ovf := true, pinf := true, ninf := true, nan := true } : Cell).ovf = true := by decide +kernel

/-- The next event of the schedule; the next word of the sequencer. -/
def scheduled : State := { booted with schedule := [.ev .scrub] }
def streamScheduled : State := { withSeqr (fun q => { q with run := true }) at_ with turn := .idle, schedule := [.seq 0] }
theorem test_witness_StepRunsTheDecoded : at_.turn = .issue st0 ∧ st0.todo = x0 :: [] ∧ (match decodeWord addWord with | .ok _ => true | .error _ => false) = true
    ∧ (match decodeWord 0x1C0 with | .ok _ => false | .error _ => true) = true ∧ stu.checked = false
    ∧ sq.turn = .stream 0 ∧ (sq.streamAt 0).isSome = true ∧ scheduled.turn = .idle ∧ scheduled.schedule = .ev .scrub :: []
    ∧ streamScheduled.turn = .idle ∧ streamScheduled.schedule = .seq 0 :: [] ∧ ({ streamScheduled with schedule := [] } : State).streamReady 0 = true
    ∧ ({ booted with schedule := [.tick 3] } : State).schedule = .tick 3 :: []
    ∧ (([⟨0x1A4, 1, 0⟩] : List Pend).filter (fun p => p.op == 0x1A4)).getLast? = some ⟨0x1A4, 1, 0⟩ ∧ (([⟨0x1AE, 1, 0⟩] : List Pend).filter (fun p => p.op == 0x1A4)) = [] := by
  decide +kernel

theorem test_witness_StepKeepsInvariant : scheduled.Inv ∧ ∃ t, step scheduled = .next t := ⟨rfl, _, rfl⟩

/-! ## Witnesses of the cases that a statement tells apart -/

/-- Chute q1 holds a slot that the CHWR or the push with serial 7 reserved; its other end sends elements, one of which waits for its record. -/
def slotKept : Chute := { Chute.fresh with desc := some localDesc, elems := [{ el0 with serial := 7, landed := false }] }
def sendKept : Chute := { Chute.fresh with desc := some remoteP, arriving := [⟨7, 0, 8, 1, 101, []⟩] }

theorem test_witness_MemoryOperationsPerform_more : MayComplete (.atomic 0 4 0 1 (.v 4) true false false true 4) ∧ MayComplete (.cas 0 4 0 5 (.v 4) false false true 4)
    ∧ MayComplete (.brld 0 3 true) ∧ MayComplete (.chwr 64 1 7 false) ∧ MayComplete (.chwr 0 1 7 true) ∧ MayComplete (.push 64 1 7 [1, 2, 3, 4])
    ∧ slotKept.elems.findIdx? (fun e => e.serial == 7 && !e.landed) = some 0 ∧ sendKept.elems.findIdx? (fun e => e.serial == 7 && !e.landed) = none
    ∧ ((withChute slotKept (inFlight (.chwr 64 1 7 false))).mayPerform 0 (flying (.chwr 64 1 7 false))) = true
    ∧ ((withChute sendKept (inFlight (.chwr 64 1 7 false))).mayPerform 0 (flying (.chwr 64 1 7 false))) = true := by
  refine ⟨⟨rfl, rfl, rfl, rfl⟩, ⟨rfl, rfl, rfl, rfl⟩, ⟨rfl, rfl, rfl, rfl⟩, ⟨rfl, rfl, rfl, rfl⟩, ⟨rfl, rfl, rfl, rfl⟩, ⟨rfl, rfl, rfl, rfl⟩, rfl, rfl, ?_, ?_⟩ <;>
    decide +kernel

/-- A deque whose both ends are on core 0; a remote end with one element in its window, and with none. -/
def dequeDesc : BitVec 64 := BitVec.ofNat 64 (64 + 4 * 2 ^ 34 + 2 ^ 40)
def windowFull : Chute := { Chute.fresh with desc := some remoteC, window := [[1, 2, 3, 4]], closedThere := true }

theorem test_witness_PopTakesTheHead_ends : descMode localDesc ≠ 1 ∧ descMode dequeDesc = 1 ∧ producerAt (at_.team 0) dequeDesc = some 0
    ∧ (at_.team 0).coreIndex (at_.group 0).core = 0 ∧ [el0, el0] = [el0] ++ [el0] ∧ el0.landed = true
    ∧ remoteConsumer remoteC = true ∧ remoteConsumer localDesc = false ∧ windowFull.window = [1, 2, 3, 4] :: [] ∧ windowFull.closedThere = true
    ∧ ({ windowFull with window := [], closedThere := false } : Chute).window = []
    ∧ (withChute { Chute.fresh with desc := some dequeDesc, elems := [el0, el0], closed := true } at_).closedHere
        { Chute.fresh with desc := some dequeDesc, elems := [el0, el0], closed := true } = true := by
  decide +kernel

/-- A push while a store of the group is in flight waits for it. -/
theorem test_witness_ChuteOperandForms_push : descPend localDesc = 0 ∧ atQ.released 0 atQ.serial = true
    ∧ ({ inFlight (.store 8 [1] false) with serial := 9 } : State).released 0 9 = false ∧ descPend remoteP ≠ 0 := by decide +kernel

theorem test_witness_SpecialRegisterWordsRun_odd : special64 0x014 = true ∧ (5 : Fin 256).val % 2 = 1
    ∧ GuardHolds (.srd { sf (.v 5) (.v 0) (.v 0) 0 with sr := 0x014 }) unchecked (stepLane stu x0)
    ∧ order2 (ctxOf stu x0) (Instr.srd { sf (.v 5) (.v 0) (.v 0) 0 with sr := 0x014 }).view unchecked = false
    ∧ order3 (unchecked.team 0) (Instr.srd { sf (.v 5) (.v 0) (.v 0) 0 with sr := 0x014 }).view = false
    ∧ order4 (unchecked.group 0) (Instr.srd { sf (.v 5) (.v 0) (.v 0) 0 with sr := 0x014 }).view = false
    ∧ order3 (unchecked.team 0) (Instr.swr { sf (.v 0) (.v 4) (.v 0) 0 with sr := 0x014 }).view = false
    ∧ order4 (unchecked.group 0) (Instr.swr { sf (.v 0) (.v 4) (.v 0) 0 with sr := 0x014 }).view = false :=
  ⟨rfl, rfl, rfl, rfl, rfl, rfl, rfl, rfl⟩

/-- Two windows are held, of which window 5 closed first; window 7, with a child of launch 5, is open. -/
def held1 : Window := { die := 0, opened := 1, closed := true, children := [], shut := 1 }
def held2 : Window := { held1 with shut := 2 }
def queueing : State := { waiting with windows := [(5, held1), (6, held2), (7, window0)], cycle := 300, turn := .idle }

theorem test_witness_windows : queueing.holding = true ∧ queueing.fwHalted = false ∧ window0.closed = false ∧ window0.opened + 256 ≤ queueing.cycle
    ∧ queueing.shutFirst held1 = true ∧ queueing.shutFirst held2 = false ∧ held2.closed = true ∧ waiting.holding = false
    ∧ (windowed false).holding = false ∧ (windowed false).cycle < 100 + 256
    ∧ (windowed true).shutFirst { die := 0, opened := 40, closed := true, children := [] } = true := by decide +kernel
theorem test_witness_inv : offered.Inv ∧ mapped.Inv ∧ handled.Inv := ⟨rfl, rfl, rfl⟩
theorem test_witness_inv_chutes : (withChute { Chute.fresh with desc := some dequeDesc, elems := [el0, el0] } at_).Inv ∧ (withChute windowFull at_).Inv := ⟨rfl, rfl⟩

/-- The tables of partition 0 on the hub die: root, directory and one leaf of 128 MiB, the page of die 0 at frame 0; in die 1, whose channel 0 fails. -/
def twoDies (chans : Nat) : State :=
  { booted with
    roots := [(0, 2 ^ 36 + 0x10000)],
    mem := [(2 ^ 40 + 2 ^ 36 + 0x10000, 1), (2 ^ 40 + 2 ^ 36 + 0x10002, 2), (2 ^ 40 + 2 ^ 36 + 0x10004, 0x10), (2 ^ 40 + 2 ^ 36 + 0x20000, 0x0B)],
    health := [(0, { Health.fresh with failing := [0] })], config := some { cfg with map := [(0, [2 ^ 32 + 1, chans, 0, 0x200])] } }
def move0 : Move := ⟨0, 0, 0, 0, 0, 27, 2 ^ 36 + 0x20000, 2 ^ 31, 5⟩
def moving (purges : AList PurgeWait) : State := { twoDies 3 with move := some move0, purges := purges }
def leaf0 : Frame64 := ⟨0, some (2 ^ 36 + 0x20000), 0, 27, true, 0⟩

theorem test_witness_HealthEventsRun_leaf : frameFound (twoDies 3) = some (0, leaf0) ∧ (twoDies 3).pinnedPage 0 (leaf0.owner * 2 ^ 50 + leaf0.off) (2 ^ leaf0.page) = false
    ∧ ((twoDies 3).setGrid 3 { Grid.fresh with kernel := theKernel, pinned := true }).pinnedPage 0 (leaf0.owner * 2 ^ 50 + leaf0.off) (2 ^ leaf0.page) = true
    ∧ (twoDies 3).move = none := by
  decide +kernel
theorem test_witness_HealthEventsRun_leaf_free : (twoDies 3).freeFrame 0 0 0 leaf0 = some (2 ^ 31) := by decide +kernel
theorem test_witness_HealthEventsRun_moves : (moving []).move = some move0 ∧ move0.die = 0 ∧ move0.chan = 0 ∧ (moving []).purges.get? move0.purge = none
    ∧ (moving [(5, purge0)]).purges.get? move0.purge ≠ none ∧ (move0.die ≠ 1) ∧ dramAddr move0.die move0.dst + 2 ^ move0.bits ≤ tableAddr move0.entry
    ∧ ((moving []).dieHealth 0).failing.contains 0 = true ∧ (moving []).fwHalted = false := by
  decide +kernel
theorem test_witness_HealthEventsRun_inv : (moving []).Inv ∧ (twoDies 3).Inv := ⟨rfl, rfl⟩
theorem test_witness_HealthEventsRun_readings : (94 < 95) ∧ (95 ≤ 95 ∧ 95 < 105) ∧ (95 ≤ 104 ∧ 104 < 105) ∧ 105 ≤ 105 := by decide

/-- A link that runs, and one that has not started. -/
def upLink : State := { handled with links := [(2, { Link.fresh with enabled := true, up := true })] }
theorem test_witness_TasksAndMessages_remote : upLink.held = false ∧ (∃ l ∈ upLink.links, upLink.linked l.1 = true) ∧ upLink.chuteRoom 1 ⟨1, 0x7FF, 0, 9, 0, false, false, [1]⟩ = true
    ∧ upLink.handlerImage 0 0 ≠ 0 ∧ upLink.corePart 1 = some 0 ∧ upLink.handlerImage 0 5 = 0 ∧ (∀ l ∈ handled.links, handled.linked l.1 = false)
    ∧ ({ upLink with held := true } : State).held = true := by decide +kernel

/-- The clause of lane 0 is in the instruction cache of its core. -/
def inCache : State := (coded addClause.hdr).updCore 0 (fun c => { c with icache := [(theKernel.image, addClause)] })
theorem test_witness_IssueEventsRun_cached : inCache.cached 0 (inCache.lane (laneKey 0 0)).pc.toNat = some addClause ∧ (inCache.lane (laneKey 0 0)).fetching = true
    ∧ (coded addClause.hdr).cached 0 ((coded addClause.hdr).lane (laneKey 0 0)).pc.toNat = none
    ∧ (coded 0).cached 0 ((coded 0).lane (laneKey 0 0)).pc.toNat = none := by decide +kernel

theorem test_witness_OwnerAndLink_requests : ({ mapped with links := [(2, linkOn)] } : State).linked 2 = true ∧ mapped.linked 2 = false
    ∧ (∀ n, (ask 0 (.read 4)).src = .part n → n = 5) := by
  refine ⟨by decide +kernel, by decide +kernel, ?_⟩
  intro n h
  cases h
  rfl

/-- A read on its way to part 5, on whose page a purge of part 5 falls. -/
def asked5 : State := { queuedFar lateCmd with links := [(1, { Link.fresh with enabled := true, up := true })] }
theorem test_witness_OwnerAndLink_far_purge : asked5.linked 1 = true ∧ asked5.held = false ∧ asked5.cmds.get? 9 = some lateCmd ∧ lateCmd.sent.get? 0 = some (1, 100, 5)
    ∧ asked5.partitionOf (teamOf lateCmd.group) = 0 ∧ booted.linked 1 = false
    ∧ ((asked5.discardReplicas (fun _ => true) 0 (5 * 2 ^ 37) 2).readAsked lateCmd 0).any
        (fun va => 5 * 2 ^ 37 ≤ asked5.pageOf va && asked5.pageOf va < 5 * 2 ^ 37 + 2) = true := by decide +kernel
theorem test_witness_OwnerAndLink_inv : asked5.Inv := rfl
theorem test_witness_OwnerAndLink_halted : ({ purging purge0 with fwHalted := true } : State).fwHalted = true ∧ (purging { purge0 with waiting := [] }).fwHalted = false
    ∧ ({ linkOn with requests := [0] } : Link).asked = true ∧ linkOn.asked = false ∧ linkOn.rxNext = 0 ∧ mapped.held = false := by decide +kernel

theorem test_witness_PreemptionRuns_asks : sliced.askedNow 0 = false ∧ ({ sliced with vacateAt := [(0, 3055000)] } : State).askedNow 0 = true
    ∧ ([0, 1] : List Nat) ≠ [] ∧ vacated.fwHalted = false := by decide +kernel

/-- A BRK that stopped a handler's team: the handler's own record stands behind it. -/
def stoppedInHandler : State := withTeam (fun t => { t with frame := some frame0 }) stoppedByBrk
theorem test_witness_StopsAndResumes_frames : (stoppedByBrk.team 0).frame.map (fun f => f.record) = none ∧ (stoppedInHandler.team 0).frame.map (fun f => f.record) = some rec0
    ∧ attached.expiredNow 0 = false ∧ (stoppedByBrk.team 0).saveFor = none ∧ (stoppedByBrk.team 0).residency = .resident := by decide +kernel

/-- Lane 0 runs in a handler group: it arrives under a number of its own. -/
theorem test_witness_BarrierWordsRun_party : at_.party 0 = 0 ∧ (withGroup (fun g => { g with handler := true }) at_).party 0 = 256 := by decide +kernel

theorem test_witness_CommandWordsEnter_reserved_for : (reserved.team 0).reservedFor Rows.cpy (ef (.v 2)) { Command.fresh 0x140 0 with cnt := 3, sd := chamberRecord, ss := chamberRecord } = some (1, 2 ^ 63, 0)
    ∧ (at_.team 0).reservedFor Rows.cpy (ef (.v 2)) { Command.fresh 0x140 0 with cnt := 3, sd := chamberRecord, ss := chamberRecord } = none := by decide +kernel

/-- The record of slot 1 begins in die 4 of this part, and its third element of 8 bytes lies past the end of that die. -/
def crossing : BitVec 256 := BitVec.ofNat 256 (0x7FF * 2 ^ 53 + 5 * 2 ^ 50 - 16 + 4096 * 2 ^ 64 + 3 * 2 ^ 112 + 3 * 2 ^ 116)
/-- The same record that begins in die 5. -/
def beyond : BitVec 256 := BitVec.ofNat 256 (0x7FF * 2 ^ 53 + 5 * 2 ^ 50 + 4096 * 2 ^ 64 + 3 * 2 ^ 112 + 3 * 2 ^ 116)
theorem test_witness_CommandWordsEnter_element :
    ((withTeam (fun t => { t with slots := [(1, crossing)] }) at_).team 0).reservedFor Rows.cpy (ef (.v 2))
      { Command.fresh 0x140 0 with cnt := 3, sd := crossing, ss := chamberRecord, sdN := 1, ssN := 1 } = some (1, 0x7FF * 2 ^ 53 + 5 * 2 ^ 50, 2)
    ∧ ((withTeam (fun t => { t with slots := [(1, beyond)] }) at_).team 0).reservedFor Rows.cpy (ef (.v 2))
      { Command.fresh 0x140 0 with cnt := 1, d := 1, sd := beyond, ss := chamberRecord, sdN := 1, ssN := 1 } = some (1, 0x7FF * 2 ^ 53 + 5 * 2 ^ 50 + 8, 0) := by
  decide +kernel

/-- A word of each format one of whose operands is 265, the least reserved value, and the rest as its row has it. -/
def spoilt (i : Instr) (lo : Nat) : Nat := encode i + 265 * 2 ^ lo
theorem test_witness_OperandSpace_formats :
    (match rowOf (spoilt (.movi ⟨g7, .v 0, .v 0, 5⟩) 13) with
      | some (.ri r) => r.ok2 (spoilt (.movi ⟨g7, .v 0, .v 0, 5⟩) 13) && (r.d matches .reg ..) | _ => false) = true
    ∧ (match rowOf (spoilt (.ld32 (mf (.v 0) .z 8)) 13) with
      | some (.m r) => r.ok2 (spoilt (.ld32 (mf (.v 0) .z 8)) 13) && (r.d matches .reg ..) | _ => false) = true
    ∧ (match rowOf (spoilt (.cas ⟨g7, .v 0, 1, .z, .v 6, 0, 7, 0, 0, 0⟩) 13) with
      | some (.a r) => r.ok2 (spoilt (.cas ⟨g7, .v 0, 1, .z, .v 6, 0, 7, 0, 0, 0⟩) 13) && (r.d matches .reg ..) | _ => false) = true
    ∧ (match rowOf (spoilt (.brrNz ⟨g7, 8, .v 0, false⟩) 54) with
      | some (.b r) => r.ok2 (spoilt (.brrNz ⟨g7, 8, .v 0, false⟩) 54) && (r.reg matches .reg ..) | _ => false) = true
    ∧ (match rowOf (spoilt (.cpy { ef (.v 2) with sx := 0, cnt := .v 0 }) 40) with
      | some (.e r) => r.ok2 (spoilt (.cpy { ef (.v 2) with sx := 0, cnt := .v 0 }) 40) && (r.cnt matches .reg ..) | _ => false) = true
    ∧ (match rowOf (spoilt (.gsumI32 ⟨g7, .v 0, 1, .v 2, .v 0, .v 0, 0, 0⟩) 13) with
      | some (.g r) => r.ok2 (spoilt (.gsumI32 ⟨g7, .v 0, 1, .v 2, .v 0, .v 0, 0, 0⟩) 13) && (r.d matches .reg ..) | _ => false) = true
    ∧ (match rowOf (spoilt (.xdg (xf (.v 0) (.v 5))) 13) with
      | some (.x r) => r.ok2 (spoilt (.xdg (xf (.v 0) (.v 5))) 13) && (r.d matches .reg ..) | _ => false) = true
    ∧ (match rowOf (spoilt (.mstat (sf (.v 0) (.v 0) (.v 0) 0)) 13) with
      | some (.s r) => r.ok2 (spoilt (.mstat (sf (.v 0) (.v 0) (.v 0) 0)) 13) && (r.d matches .reg ..) | _ => false) = true := by
  decide +kernel

end Sys2Proof.Tests
end

section
/-! SUPPORT. THE INVARIANT OF A STEP: every operation of the model, every meaning of an instruction and the step itself keep the memory in its
canonical form. A lemma about an operation that answers a state is `State.Inv.<operation>`, about one that may answer none `OptInv.<operation>`, and
about a meaning `OutInv.<meaning>`; each follows the shape of the definition, and its proof names the operations that the definition calls. -/

namespace Sys2Proof.Machine

/-! ## What an answer of the model keeps -/

/-- Every state that an option holds has its memory in canonical form. -/
def OptInv (o : Option State) : Prop := ∀ t, o = some t → t.Inv

/-- The next state of an outcome, where there is one, has its memory in canonical form. -/
def OutInv (r : Result) : Prop := ∀ t, r = .next t → t.Inv

/-- Every answer that an option holds leaves the machine in a state with its memory in canonical form. -/
def Yields {α : Type} (π : α → State) (o : Option α) : Prop := ∀ r, o = some r → (π r).Inv

/-- The state in which a request to another part leaves the machine. -/
def Reply.state : Reply → State
  | .sent s => s
  | .answered _ s => s

/-- A point whose effect keeps the memory in canonical form. -/
def Point.Keeps (p : Point) : Prop := ∀ c s, s.Inv → (p.eff c s).Inv

/-- A stream word whose effect keeps the memory in canonical form. -/
def StreamPoint.Keeps (p : StreamPoint) : Prop := ∀ tk s, s.Inv → (p.eff tk s).Inv

/-! ## The shapes of the model's definitions

One lemma per shape and kind of answer: a conditional, a match on an option, a result, a list, a number or an element, and a run over a list. -/

theorem State.Inv.ite {p : Prop} [Decidable p] {s t : State} (hs : s.Inv) (ht : t.Inv) : (if p then s else t).Inv := by
  split <;> assumption

theorem State.Inv.ite_snd {α : Type} {p : Prop} [Decidable p] {x y : α × State} (hx : x.2.Inv) (hy : y.2.Inv) : (if p then x else y).2.Inv := by
  split <;> assumption

theorem State.Inv.snd_of_eq {α : Type} {r : α × State} {x : α} {t : State} (h : r.2.Inv) (e : r = (x, t)) : t.Inv := by
  subst e; exact h

/-- A run over a list keeps what each of its turns keeps. -/
theorem State.Inv.foldl {α : Type} {f : State → α → State} {l : List α} {s : State} (hf : ∀ s x, s.Inv → (f s x).Inv) (h : s.Inv) :
    (l.foldl f s).Inv := List.foldlRecOn l f h fun s hs x _ => hf s x hs

theorem OptInv.none : OptInv none := fun _ e => nomatch e

theorem OptInv.some {t : State} (h : t.Inv) : OptInv (some t) := fun _ e => Option.some.inj e ▸ h

theorem OptInv.ite {p : Prop} [Decidable p] {a b : Option State} (ha : OptInv a) (hb : OptInv b) : OptInv (if p then a else b) := by
  split <;> assumption

theorem OptInv.map {α : Type} {f : α → State} {o : Option α} (hf : ∀ x, o = .some x → (f x).Inv) : OptInv (o.map f) := by
  intro t e
  obtain ⟨x, hx, rfl⟩ := Option.map_eq_some_iff.mp e
  exact hf x hx

theorem State.Inv.getD {o : Option State} {s : State} (ho : OptInv o) (h : s.Inv) : (o.getD s).Inv := by
  cases o with
  | none => exact h
  | some t => exact ho t rfl

theorem OutInv.next {t : State} (h : t.Inv) : OutInv (.next t) := fun _ e => Host.Outcome.next.inj e ▸ h

theorem OutInv.fault {x : Fault} : OutInv (.fault x) := fun _ e => nomatch e

theorem OutInv.ite {p : Prop} [Decidable p] {a b : Result} (ha : OutInv a) (hb : OutInv b) : OutInv (if p then a else b) := by
  split <;> assumption

/-- An event leaves the state that it makes, or the state as it stands. -/
theorem OutInv.happens {s : State} {o : Option State} (h : s.Inv) (ho : OptInv o) : OutInv (s.happens o) := .next (.getD ho h)

theorem State.Inv.option {α : Type} {o : Option α} {a : State} {f : α → State} (ha : a.Inv) (hf : ∀ x, (f x).Inv) :
    (Option.casesOn (motive := fun _ => State) o a f).Inv := by
  cases o with
  | none => exact ha
  | some x => exact hf x

theorem State.Inv.option_eq {α : Type} {o : Option α} {a : State} {f : α → State} (ha : a.Inv) (hf : ∀ x, o = some x → (f x).Inv) :
    (Option.casesOn (motive := fun _ => State) o a f).Inv := by
  cases o with
  | none => exact ha
  | some x => exact hf x rfl

theorem State.Inv.option_snd {α β : Type} {o : Option α} {a : β × State} {f : α → β × State} (ha : a.2.Inv) (hf : ∀ x, (f x).2.Inv) :
    (Option.casesOn (motive := fun _ => β × State) o a f).2.Inv := by
  cases o with
  | none => exact ha
  | some x => exact hf x

theorem State.Inv.option_eq_snd {α β : Type} {o : Option α} {a : β × State} {f : α → β × State} (ha : a.2.Inv)
    (hf : ∀ x, o = some x → (f x).2.Inv) :
    (Option.casesOn (motive := fun _ => β × State) o a f).2.Inv := by
  cases o with
  | none => exact ha
  | some x => exact hf x rfl

theorem State.Inv.some_or {α : Type} {o : Option α} {a : State} {f : α → State} (hf : ∀ x, (f x).Inv) (ha : a.Inv) :
    (match o with | some x => f x | _ => a).Inv := by
  cases o with
  | none => exact ha
  | some x => exact hf x

theorem State.Inv.some_or_snd {α β : Type} {o : Option α} {a : β × State} {f : α → β × State} (hf : ∀ x, (f x).2.Inv) (ha : a.2.Inv) :
    (match o with | some x => f x | _ => a).2.Inv := by
  cases o with
  | none => exact ha
  | some x => exact hf x

theorem State.Inv.except {ε α : Type} {o : Except ε α} {f : ε → State} {g : α → State} (hf : ∀ x, (f x).Inv) (hg : ∀ x, (g x).Inv) :
    (Except.casesOn (motive := fun _ => State) o f g).Inv := by
  cases o with
  | error x => exact hf x
  | ok x => exact hg x

theorem State.Inv.except_snd {ε α β : Type} {o : Except ε α} {f : ε → β × State} {g : α → β × State} (hf : ∀ x, (f x).2.Inv)
    (hg : ∀ x, (g x).2.Inv) :
    (Except.casesOn (motive := fun _ => β × State) o f g).2.Inv := by
  cases o with
  | error x => exact hf x
  | ok x => exact hg x

theorem State.Inv.list {α : Type} {l : List α} {a : State} {f : α → List α → State} (ha : a.Inv) (hf : ∀ x xs, (f x xs).Inv) :
    (List.casesOn (motive := fun _ => State) l a f).Inv := by
  cases l with
  | nil => exact ha
  | cons x xs => exact hf x xs

/-- A match on a number: its first literal, and what follows it. -/
theorem State.Inv.literal {n k : Nat} {a b : State} (ha : a.Inv) (hb : b.Inv) :
    (dite (n = k) (Eq.ndrec_symm (motive := fun _ => State) a) fun _ => b).Inv := by
  split
  · subst n; exact ha
  · exact hb

theorem State.Inv.literal_snd {α : Type} {n k : Nat} {a b : α × State} (ha : a.2.Inv) (hb : b.2.Inv) :
    (dite (n = k) (Eq.ndrec_symm (motive := fun _ => α × State) a) fun _ => b).2.Inv := by
  split
  · subst n; exact ha
  · exact hb

theorem State.Inv.elem {e : Elem} {b : List Byte → State} {d s : State} {f : Nat → Nat → State} (hb : ∀ x, (b x).Inv) (hd : d.Inv) (hs : s.Inv)
    (hf : ∀ x y, (f x y).Inv) :
    (Elem.casesOn (motive := fun _ => State) e b d s f).Inv := by
  cases e with
  | bytes x => exact hb x
  | dropped => exact hd
  | skipped => exact hs
  | fault x y => exact hf x y

theorem State.Inv.bounded_snd {α : Type} {b : Bounded} {a : Int → α × State} {t d s : α × State} (ha : ∀ i, (a i).2.Inv) (ht : t.2.Inv)
    (hd : d.2.Inv) (hs : s.2.Inv) :
    (Bounded.casesOn (motive := fun _ => α × State) b a t d s).2.Inv := by
  cases b with
  | at_ i => exact ha i
  | trap => exact ht
  | drop => exact hd
  | skip => exact hs

/-- A request that goes out, or the state as it stands. -/
theorem State.Inv.sent_or {s : State} {o : Option Reply} (h : s.Inv) (ho : ∀ {r}, o = some r → r.state.Inv) :
    (match o with | some (.sent t) => t | _ => s).Inv := by
  rcases o with _ | ⟨t⟩ | _
  · exact h
  · exact ho rfl
  · exact h

theorem OptInv.option {α : Type} {o : Option α} {a : Option State} {f : α → Option State} (ha : OptInv a) (hf : ∀ x, OptInv (f x)) :
    OptInv (Option.casesOn (motive := fun _ => Option State) o a f) := by
  cases o with
  | none => exact ha
  | some x => exact hf x

theorem OptInv.option_eq {α : Type} {o : Option α} {a : Option State} {f : α → Option State} (ha : OptInv a) (hf : ∀ x, o = .some x → OptInv (f x)) :
    OptInv (Option.casesOn (motive := fun _ => Option State) o a f) := by
  cases o with
  | none => exact ha
  | some x => exact hf x rfl

theorem OptInv.some_or {α : Type} {o : Option α} {a : Option State} {f : α → Option State} (hf : ∀ x, OptInv (f x)) (ha : OptInv a) :
    OptInv (match o with | .some x => f x | _ => a) := by
  cases o with
  | none => exact ha
  | some x => exact hf x

theorem OptInv.except {ε α : Type} {o : Except ε α} {f : ε → Option State} {g : α → Option State} (hf : ∀ x, OptInv (f x)) (hg : ∀ x, OptInv (g x)) :
    OptInv (Except.casesOn (motive := fun _ => Option State) o f g) := by
  cases o with
  | error x => exact hf x
  | ok x => exact hg x

theorem OptInv.list {α : Type} {l : List α} {a : Option State} {f : α → List α → Option State} (ha : OptInv a) (hf : ∀ x xs, OptInv (f x xs)) :
    OptInv (List.casesOn (motive := fun _ => Option State) l a f) := by
  cases l with
  | nil => exact ha
  | cons x xs => exact hf x xs

theorem OptInv.literal {n k : Nat} {a b : Option State} (ha : OptInv a) (hb : OptInv b) :
    OptInv (dite (n = k) (Eq.ndrec_symm (motive := fun _ => Option State) a) fun _ => b) := by
  split
  · subst n; exact ha
  · exact hb

theorem OptInv.elem {e : Elem} {b : List Byte → Option State} {d s : Option State} {f : Nat → Nat → Option State} (hb : ∀ x, OptInv (b x))
    (hd : OptInv d) (hs : OptInv s) (hf : ∀ x y, OptInv (f x y)) :
    OptInv (Elem.casesOn (motive := fun _ => Option State) e b d s f) := by
  cases e with
  | bytes x => exact hb x
  | dropped => exact hd
  | skipped => exact hs
  | fault x y => exact hf x y

theorem OptInv.bounded {b : Bounded} {a : Int → Option State} {t d s : Option State} (ha : ∀ i, OptInv (a i)) (ht : OptInv t) (hd : OptInv d)
    (hs : OptInv s) :
    OptInv (Bounded.casesOn (motive := fun _ => Option State) b a t d s) := by
  cases b with
  | at_ i => exact ha i
  | trap => exact ht
  | drop => exact hd
  | skip => exact hs

theorem OutInv.option_eq {α : Type} {o : Option α} {a : Result} {f : α → Result} (ha : OutInv a) (hf : ∀ x, o = some x → OutInv (f x)) :
    OutInv (Option.casesOn (motive := fun _ => Result) o a f) := by
  cases o with
  | none => exact ha
  | some x => exact hf x rfl

theorem OutInv.option {α : Type} {o : Option α} {a : Result} {f : α → Result} (ha : OutInv a) (hf : ∀ x, OutInv (f x)) :
    OutInv (Option.casesOn (motive := fun _ => Result) o a f) := .option_eq ha fun x _ => hf x

theorem OutInv.except {ε α : Type} {o : Except ε α} {f : ε → Result} {g : α → Result} (hf : ∀ x, OutInv (f x)) (hg : ∀ x, OutInv (g x)) :
    OutInv (Except.casesOn (motive := fun _ => Result) o f g) := by
  cases o with
  | error x => exact hf x
  | ok x => exact hg x

theorem OutInv.list {α : Type} {l : List α} {a : Result} {f : α → List α → Result} (ha : OutInv a) (hf : ∀ x xs, OutInv (f x xs)) :
    OutInv (List.casesOn (motive := fun _ => Result) l a f) := by
  cases l with
  | nil => exact ha
  | cons x xs => exact hf x xs

theorem Yields.none {α : Type} {π : α → State} : Yields π none := fun _ e => nomatch e

theorem Yields.some {α : Type} {π : α → State} {r : α} (h : (π r).Inv) : Yields π (some r) := fun _ e => Option.some.inj e ▸ h

theorem Yields.ite {α : Type} {π : α → State} {p : Prop} [Decidable p] {a b : Option α} (ha : Yields π a) (hb : Yields π b) :
    Yields π (if p then a else b) := by
  split <;> assumption

theorem Yields.map {α β : Type} {π : α → State} {f : β → α} {o : Option β} (hf : ∀ x, o = .some x → (π (f x)).Inv) : Yields π (o.map f) := by
  intro r e
  obtain ⟨x, hx, rfl⟩ := Option.map_eq_some_iff.mp e
  exact hf x hx

theorem Yields.option {α β : Type} {π : α → State} {o : Option β} {a : Option α} {f : β → Option α} (ha : Yields π a) (hf : ∀ x, Yields π (f x)) :
    Yields π (Option.casesOn (motive := fun _ => Option α) o a f) := by
  cases o with
  | none => exact ha
  | some x => exact hf x

theorem Yields.some_or {α β : Type} {π : α → State} {o : Option β} {a : Option α} {f : β → Option α} (hf : ∀ x, Yields π (f x)) (ha : Yields π a) :
    Yields π (match o with | .some x => f x | _ => a) := by
  cases o with
  | none => exact ha
  | some x => exact hf x

theorem Yields.except {α ε β : Type} {π : α → State} {o : Except ε β} {f : ε → Option α} {g : β → Option α} (hf : ∀ x, Yields π (f x))
    (hg : ∀ x, Yields π (g x)) :
    Yields π (Except.casesOn (motive := fun _ => Option α) o f g) := by
  cases o with
  | error x => exact hf x
  | ok x => exact hg x

theorem Point.Keeps.plain {eff : Ctx → State → State} (h : ∀ c s, s.Inv → (eff c s).Inv) : (plain eff).Keeps := h

/-! ## The operations that write memory -/

/-- The invariant reads the memory alone: every other field may change. -/
theorem State.Inv.update {s : State} {turn schedule cycle clockBase gtsHigh serial freeN lanes groups teams grids cores cmds windows launchQueue colls
    feeds sealTables replicas roots tcache purges move farSeals farWaits links absent cmdLinks fw fwHalted stoppedCores vacating vacateAt dbg report
    health eccLog healthWord bootStage bootError held flash config netOut} (h : s.Inv) :
    (State.mk turn schedule cycle clockBase gtsHigh serial freeN s.mem lanes groups teams grids cores cmds windows launchQueue colls feeds sealTables
      replicas roots tcache purges move farSeals farWaits links absent cmdLinks fw fwHalted stoppedCores vacating vacateAt dbg report health eccLog
      healthWord bootStage bootError held flash config netOut).Inv := h

theorem State.Inv.write {s t : State} {a : Nat} {b : Byte} (h : s.Inv) : (t.setMem (s.mem.write a b)).Inv := Memory.write_wf h a b

theorem State.Inv.writeBytes {s t : State} {a : Nat} {bs : List Byte} (h : s.Inv) : (t.setMem (s.mem.writeBytes a bs)).Inv :=
  Memory.writeBytes_wf h a bs

theorem State.Inv.clear {s t : State} {a n : Nat} (h : s.Inv) : (t.setMem (s.mem.clear a n)).Inv := Memory.clear_wf h a n

/-- A region cleared and then filled from its start. -/
theorem State.Inv.clear_writeBytes {s t : State} {a n : Nat} {bs : List Byte} (h : s.Inv) :
    (t.setMem (Memory.writeBytes (s.mem.clear a n) a bs)).Inv := Memory.writeBytes_wf (Memory.clear_wf h a n) a bs

theorem State.Inv.copyRange {s t : State} {src dst n : Nat} (h : s.Inv) : (t.setMem (s.mem.copyRange src dst n)).Inv :=
  Memory.copyRange_wf h src dst n

theorem State.Inv.chamberWrite {s : State} {t : Team} {o : Nat} {bs : List Byte} (h : s.Inv) : (s.chamberWrite t o bs).Inv := by
  induction bs generalizing s o with
  | nil => exact h
  | cons b bs ih => exact ih (.write h)

section Operations

-- The lemmas on shapes are about `casesOn`, into which every `match` of the model unfolds once smart unfolding does not hold it back.
set_option smartUnfolding false

variable {s : State} {c : Ctx} {gk tk part k core lk t g n q va die key a off nb w link page scope u entry x grid target len cmd owner ord port dst :
  Nat} {f : SF} {o : LaneOp} {ans : Answer} {row : RRRRow} {st : IssueStep} {ps : List Nat} {pc : W32} {fw : Bool} {bs : List Byte} {r : OwnerReq}

/-! ## The operations over the state (Machine/Ops) -/

theorem State.Inv.setLane {l : Lane} (h : s.Inv) : (s.setLane lk l).Inv := h

theorem State.Inv.setGroup {g : Group} (h : s.Inv) : (s.setGroup gk g).Inv := h

theorem State.Inv.setTeam {x : Team} (h : s.Inv) : (s.setTeam t x).Inv := h

theorem State.Inv.setGrid {x : Grid} (h : s.Inv) : (s.setGrid g x).Inv := h

theorem State.Inv.setCore {c : Nat} {x : Core} (h : s.Inv) : (s.setCore c x).Inv := h

theorem State.Inv.setFeed {f : Nat} {x : Feed} (h : s.Inv) : (s.setFeed f x).Inv := h

theorem State.Inv.setLink {l : Nat} {x : Link} (h : s.Inv) : (s.setLink l x).Inv := h

theorem State.Inv.setHealth {d : Nat} {x : Health} (h : s.Inv) : (s.setHealth d x).Inv := h

theorem State.Inv.setCmd {x : Command} (h : s.Inv) : (s.setCmd k x).Inv := h

theorem State.Inv.setTurn {t : Turn} (h : s.Inv) : (s.setTurn t).Inv := h

theorem State.Inv.updLane {f : Lane → Lane} (h : s.Inv) : (s.updLane lk f).Inv := .setLane h

theorem State.Inv.updGroup {f : Group → Group} (h : s.Inv) : (s.updGroup gk f).Inv := .setGroup h

theorem State.Inv.updTeam {f : Team → Team} (h : s.Inv) : (s.updTeam t f).Inv := .setTeam h

theorem State.Inv.updGrid {f : Grid → Grid} (h : s.Inv) : (s.updGrid g f).Inv := .setGrid h

theorem State.Inv.updCore {c : Nat} {f : Core → Core} (h : s.Inv) : (s.updCore c f).Inv := .setCore h

theorem State.Inv.updFeed {f : Feed → Feed} (h : s.Inv) : (s.updFeed k f).Inv := .setFeed h

theorem State.Inv.updCmd {f : Command → Command} (h : s.Inv) : (s.updCmd k f).Inv := .option h fun _ => .setCmd h

theorem State.Inv.bump (h : s.Inv) : s.bump.Inv := h

theorem State.Inv.updHealth {d : Nat} {f : Health → Health} (h : s.Inv) : (s.updHealth d f).Inv := .setHealth h

theorem State.Inv.freshenHealth (h : s.Inv) : s.freshenHealth.Inv := .ite h (.foldl (fun _ _ h1 => .ite (.updHealth h1) h1) h)

theorem State.Inv.updLanes {f : Nat → Lane → Lane} (h : s.Inv) : (s.updLanes gk f).Inv := .foldl (fun _ _ h1 => .updLane h1) h

theorem State.Inv.haltGroup (h : s.Inv) : (s.haltGroup gk).Inv := (haltGroup_calm _ _).wf h

theorem State.Inv.triggerTeam (h : s.Inv) : (s.triggerTeam t core).Inv := (triggerTeam_calm _ _ _).wf h

theorem State.Inv.markReported {detail : Nat} (h : s.Inv) : (s.markReported gk detail).Inv := (markReported_calm _ _ _).wf h

theorem State.Inv.takeTrap {tr : Trap} {mask : BitVec 32} {stream : Bool} (h : s.Inv) : (takeTrap s gk tr mask pc stream).Inv :=
  (takeTrap_calm _ _ _ _ _ _).wf h

theorem State.Inv.retire (h : s.Inv) : (s.retire lk a).Inv := .updLane h

theorem State.Inv.resumeTeam (h : s.Inv) : (s.resumeTeam t).Inv := (resumeTeam_calm _ _).wf h

theorem State.Inv.dropSlice (h : s.Inv) : (s.dropSlice tk).Inv := (dropSlice_calm _ _).wf h

theorem State.Inv.enterHandler {r : TrapRecord} (h : s.Inv) : (s.enterHandler t entry r).Inv :=
  .updLanes (.setGroup (.setTeam (.clear (.ite (.markReported h) h))))

theorem State.Inv.leaveHandler {skip : Bool} (h : s.Inv) : (s.leaveHandler t skip).Inv :=
  .option h fun _ => .option (.resumeTeam (.setTeam (.update (.clear_writeBytes (.updLanes (.setGroup h)))))) fun _ => .updTeam
    (.triggerTeam (.resumeTeam (.setTeam (.update (.clear_writeBytes (.updLanes (.setGroup h)))))))

/-! ## Stops, trace records and watchpoints (Machine/Watch) -/

theorem State.Inv.stopScope (h : s.Inv) : (s.stopScope scope target fw).Inv := (stopScope_calm _ _ _ _).wf h

theorem State.Inv.stopOne (h : s.Inv) : (s.stopOne tk fw).Inv := (stopOne_calm _ _ _).wf h

theorem State.Inv.trace {kind src b : Nat} (h : s.Inv) : (s.trace gk kind src a b).Inv := (trace_calm _ _ _ _ _ _).wf h

theorem State.Inv.traceStops {reach : List (Nat × Nat)} {origin : Nat} (h : s.Inv) : (s.traceStops reach gk scope fw origin).Inv :=
  (traceStops_calm _ _ _ _ _ _).wf h

theorem State.Inv.takeStop {origin : Nat} (h : s.Inv) : (s.takeStop gk core scope fw origin).Inv := (takeStop_calm _ _ _ _ _ _).wf h

theorem State.Inv.watch {reads writes : Bool} {kind : Nat} {mask : BitVec 32} {step : Nat} (h : s.Inv) :
    (s.watch gk a n reads writes kind mask pc step).Inv :=
  (watch_calm _ _ _ _ _ _ _ _ _ _).wf h

theorem State.Inv.watchChute {pushes : Bool} {step : Nat} (h : s.Inv) : (s.watchChute lk a n pushes pc step).Inv :=
  (watchChute_calm _ _ _ _ _ _ _).wf h

/-! ## Chutes and operands (Machine/Operands) -/

theorem State.Inv.updChute {f : Chute → Chute} (h : s.Inv) : (s.updChute tk q f).Inv := .updTeam h

theorem State.Inv.pop (h : s.Inv) : (s.pop lk q).2.Inv := (pop_calm _ _ _).wf h

theorem State.Inv.land {lk : Option Nat} {serial from_ : Nat} {bytes : List Byte} {landed : Bool} {step : Nat} (h : s.Inv) :
    (s.land tk q lk serial from_ bytes landed pc step).Inv :=
  .option h fun _ => .updChute (.option (.writeBytes h) fun _ => .watchChute (.writeBytes h))

theorem State.Inv.push {bytes : List Byte} (h : s.Inv) : (s.push lk q bytes).Inv := by
  obtain ⟨_, hwf, _⟩ := push_calm s lk q bytes
  exact hwf h

theorem State.Inv.readOp {o : Operand} (h : s.Inv) : (s.readOp lk o w).2.Inv := (readOp_calm _ _ _ _).wf h

theorem State.Inv.writeOp {o : Operand} (h : s.Inv) : (s.writeOp lk o w x).Inv := by
  cases o with
  | v _ => exact .updLane h
  | q _ => exact .push h
  | z => exact h

/-! ## Links (Machine/Flit) -/

theorem State.Inv.onWire {fs : List (List Byte)} (h : s.Inv) : (s.onWire link fs).Inv := h

theorem State.Inv.pump (h : s.Inv) : (s.pump link).Inv := .onWire (.setLink h)

theorem State.Inv.sendPacket {packet : List Nat} (h : s.Inv) : (s.sendPacket link packet).Inv := .pump (.setLink h)

/-! ## Translation, service at the owner and the elements of commands (Machine/Fabric) -/

theorem State.Inv.orWord (h : s.Inv) : (s.orWord a x).Inv := .writeBytes h

theorem State.Inv.translate {req : Requester} {write dirties : Bool} (h : s.Inv) : (s.translate req owner part off write dirties).2.Inv :=
  .except_snd (fun _ => h) fun _ => .ite_snd h (.option_snd h fun _ => .ite (.orWord (.orWord h)) (.orWord h))

theorem State.Inv.serve {req : Requester} {write : Option (List Byte)} (h : s.Inv) : (s.serve req owner part off len write).2.Inv :=
  .except_snd (fun _ => .translate h) fun _ => .option_snd (.translate h) fun _ => .ite_snd (.updHealth (.translate h)) (.writeBytes (.translate h))

theorem State.Inv.addReplica {at_ : Nat} (h : s.Inv) : (s.addReplica die part va at_).Inv := h

theorem State.Inv.readMain {policy : Nat} (h : s.Inv) : (s.readMain die part policy va len).2.Inv := by
  unfold State.readMain
  dsimp only
  cases (s.serve (.die die) (vaDie va) part (vaOff va) len none).1 with
  | error _ => exact .serve h
  | ok _ =>
    refine .some_or_snd (fun _ => .except_snd (fun _ => .serve h) fun _ => ?_) (.serve h)
    exact .addReplica (.copyRange (.translate (.serve h)))

theorem State.Inv.requestTo {s : State} {part va partition source : Nat} {act : OwnerAct} {r : Nat × State} (h : s.Inv)
    (e : s.requestTo part va partition source act = some r) :
    r.2.Inv := by
  have key : Yields Prod.snd (s.requestTo part va partition source act) := .option .none fun _ => .some (.setLink (.sendPacket h))
  exact key r e

theorem State.Inv.answerTo {r : Requester} {out : List Nat} (h : s.Inv) : (s.answerTo r link out).Inv := by
  cases r with
  | part _ => exact .sendPacket h
  | _ => exact h

theorem State.Inv.mainAccess {policy : Nat} {write : Option (List Byte)} (h : s.Inv) : (s.mainAccess die part policy va len write ans).2.Inv := by
  refine .ite_snd h ?_
  cases write with
  | none =>
    cases s.replicaFor die part policy va with
    | some _ => exact h
    | none =>
      cases ans with
      | data _ =>
        exact .ite_snd (.ite_snd (.option h fun _ => .addReplica (.writeBytes h)) h) (.except_snd (fun _ => .readMain h) fun _ => .readMain h)
      | fault _ => exact .ite_snd h (.except_snd (fun _ => .readMain h) fun _ => .literal_snd (.readMain h) (.readMain h))
  | some _ =>
    refine .ite_snd ?_ (.except_snd (fun _ => .serve h) fun _ => .serve h)
    cases ans <;> exact h

theorem State.Inv.engineElem {pc : Nat} {r : BitVec 256} {f : Int} {write : Option (List Byte)} (h : s.Inv) :
    (s.engineElem gk pc r f write ans).2.Inv := by
  refine .bounded_snd (fun _ => .ite_snd (.mainAccess h) (.option_snd h fun _ => .option_snd ?_ fun _ => .watch (.writeBytes h))) h h h
  cases ans with
  | data _ => exact .watch h
  | fault _ => exact .literal_snd h (.watch h)

/-! ## Lane words (Machine/Words) -/

theorem State.Inv.laneStep {v : View} {p : Point} {st : IssueStep} {x : StepLane} {rest : List StepLane} {s : State} (hp : p.Keeps) (h : s.Inv) :
    (laneStep v p st x rest s).Inv :=
  .ite (hp _ _ (.updLane (.updLane (.setTurn h)))) (.ite (hp _ _ (.retire (.updLane (.setTurn h)))) (.retire (.updLane (.setTurn h))))

/-- A lane word runs its point in a lane, takes its trap, or drops the lane from the step. -/
theorem OutInv.laneWord {v : View} {p : Point} {s : State} (hp : p.Keeps) (h : s.Inv) : OutInv (laneWord v p s) := by
  unfold Machine.laneWord
  cases s.turn with
  | issue st =>
    dsimp only
    cases st.todo with
    | nil => exact .fault
    | cons x rest =>
      refine .ite (.next (.laneStep hp h)) ?_
      cases laneCheck v p st x s with
      | error _ => exact .next (.takeTrap h)
      | ok b =>
        cases b with
        | true => exact .next (.laneStep hp h)
        | false => exact .next (.setTurn h)
  | _ => exact .fault

theorem State.Inv.leave {p : Pend} (h : s.Inv) : (s.leave p).Inv := by
  unfold State.leave
  cases s.turn with
  | issue _ => exact .setTurn h
  | _ => exact h

theorem State.Inv.addOp {fsel space : Nat} {kind : OpKind} (h : s.Inv) : (s.addOp c fsel space off kind).Inv := .bump (.updGroup (.updLane h))

theorem State.Inv.dropOp (h : s.Inv) : (s.dropOp gk o).Inv := .foldl (fun _ _ h1 => .updLane h1) (.updGroup h)

theorem State.Inv.landRegs {writes : List (Nat × W32)} {flags : BitVec 9} (h : s.Inv) : (s.landRegs lk writes flags).Inv := .updLane h

/-! ## Engine commands (Machine/Commands) -/

theorem State.Inv.readCommand {op : Nat} {r : ERow} {f : EF} (h : s.Inv) : (readCommand op r f lk s).2.Inv := by
  unfold Machine.readCommand
  extract_lets rd d wide aux cnt
  have hrd {sl : Slot} {o : Operand} {t : State} (ht : t.Inv) : (rd sl o t).2.Inv := by
    dsimp only [rd]
    cases sl with
    | reg _ dir _ _ =>
      cases dir with
      | src => exact .readOp ht
      | _ => exact ht
    | lax dir =>
      cases dir with
      | src => exact .readOp ht
      | _ => exact ht
    | _ => exact ht
  have haux : aux.2.Inv := .ite_snd (.readOp (hrd h)) (hrd (hrd h))
  exact hrd haux

theorem State.Inv.updCmdGroup {c : Command} {f : Group → Group} (h : s.Inv) : (s.updCmdGroup c f).Inv := .ite (.updTeam h) (.updGroup h)

theorem State.Inv.updCmdLane {c : Command} {f : Lane → Lane} (h : s.Inv) : (s.updCmdLane c f).Inv := .ite (.updTeam h) (.updLane h)

theorem State.Inv.convert (h : s.Inv) : (s.convert gk page).Inv := .ite h (.haltGroup (.triggerTeam (.updTeam h)))

theorem State.Inv.checkWait {pos : Nat} (h : s.Inv) : (s.checkWait gk pos).Inv := by
  unfold State.checkWait
  dsimp only
  cases (s.lane (laneKey gk pos)).block with
  | waitc _ _ _ => exact .ite h (.ite (.option (.updLane (.retire h)) fun _ => .takeTrap h) (.option h fun _ => .convert h))
  | _ => exact h

theorem State.Inv.checkExit (h : s.Inv) : (s.checkExit gk).Inv := .ite (.option h fun _ => .option h fun _ => .takeTrap h) h

theorem State.Inv.checkWaits (h : s.Inv) : (s.checkWaits gk).Inv := .setTurn (.checkExit (.foldl (fun _ _ h1 => .checkWait h1) h))

theorem State.Inv.settle {own : Command} (h : s.Inv) : (s.settle own).Inv := .update (.updCmdGroup (.foldl (fun _ _ h1 => .updCmd h1) h))

theorem State.Inv.addSkips {c : Command} (h : s.Inv) : (s.addSkips c n).Inv := .ite h (.updCmdGroup h)

theorem State.Inv.flushPend {us : Nat → Bool} (h : s.Inv) : (s.flushPend k us).Inv := .option h fun _ => .ite (.setCmd h) (.addSkips (.setCmd h))

theorem State.Inv.finish (h : s.Inv) : (s.finish k).Inv :=
  .option (.flushPend h) fun _ => .checkWaits
    (.settle (.updCmdGroup (.ite (.addSkips (.updCmdLane (.setCmd (.flushPend h)))) (.updCmdLane (.setCmd (.flushPend h))))))

theorem State.Inv.answered {l : Nat} (h : s.Inv) : (s.answered l part).Inv := .setLink h

theorem State.Inv.giveUp {c : Command} (h : s.Inv) : (s.giveUp c).Inv := .foldl (fun _ _ h1 => .answered h1) h

theorem State.Inv.cancel (h : s.Inv) : (s.cancel k).Inv := .option h fun _ => .finish (.updCmd (.giveUp h))

theorem State.Inv.issueCommand {x : Command} (h : s.Inv) : (s.issueCommand c x).Inv :=
  .ite (.finish (.bump (.setCmd (.setGroup h)))) (.bump (.setCmd (.setGroup h)))

theorem State.Inv.reservedIssue {c : Command} {z : Nat × Nat × Nat} (h : s.Inv) : (s.reservedIssue k c z).Inv :=
  .ite h (.finish (.updCmd (.updCmd h)))

theorem State.Inv.commandEff {op : Nat} {r : ERow} {f : EF} (h : s.Inv) : (commandEff op r f c s).Inv :=
  .option (.issueCommand (.readCommand h)) fun _ => .reservedIssue (.issueCommand (.readCommand h))

theorem State.Inv.dropRequests {c : Command} (h : s.Inv) : (s.dropRequests k c).Inv := .ite (.updCmd (.giveUp h)) h

theorem State.Inv.park (h : s.Inv) : (s.park k page).Inv :=
  .option h fun _ => .checkWaits (.update (.updCmd (.foldl (fun _ _ h1 => .dropRequests h1) h)))

theorem State.Inv.resumeParked {own : Command} (h : s.Inv) : (s.resumeParked own).Inv := .foldl (fun _ _ h1 => .updCmd h1) h

theorem State.Inv.pageDone {served : Bool} (h : s.Inv) : (s.pageDone page served).Inv := .foldl (fun _ _ h1 => .resumeParked h1) h

/-! ## The elements of engine commands (Machine/Engine) -/

theorem State.Inv.farStep {s : State} {k u : Nat} {c : Command} {va : Nat} {act : OwnerAct} {ans : Answer} {late : Bool} {r : Reply} (h : s.Inv)
    (e : s.farStep k u c va act ans late = some r) :
    r.state.Inv := by
  have key : Yields Reply.state (s.farStep k u c va act ans late) := by
    refine .option (.ite .none (.map fun x hx => ?_)) fun x => ?_
    · exact .updCmd (.requestTo h hx)
    · have back {f : Command → Command} : ((s.answered x.1 x.2.2).updCmd k f).Inv := .updCmd (.answered h)
      refine .ite (.ite .none (.some back)) (.ite .none ?_)
      cases ans with
      | data _ => exact .some back
      | fault _ => exact .ite (.some back) .none
  exact key r e

/-- What follows a request to another part, sent or answered, keeps the form where both of its continuations do. -/
theorem OptInv.farStep {s : State} {k u : Nat} {c : Command} {va : Nat} {act : OwnerAct} {ans : Answer} {late : Bool} {f : Reply → State}
    (h : s.Inv) (hsent : ∀ t, t.Inv → (f (.sent t)).Inv) (hans : ∀ a t, t.Inv → (f (.answered a t)).Inv) :
    OptInv ((s.farStep k u c va act ans late).map f) :=
  .map fun r e => match r, State.Inv.farStep h e with
    | .sent t, ht => hsent t ht
    | .answered a t, ht => hans a t ht

/-- The same where what was sent needs nothing more and the two kinds of answer go on apart. -/
theorem OptInv.farStep_code {s : State} {k u : Nat} {c : Command} {va : Nat} {act : OwnerAct} {ans : Answer} {late : Bool} {f : Reply → State}
    (h : s.Inv) (hsent : ∀ t, t.Inv → (f (.sent t)).Inv) (hdata : ∀ b t, t.Inv → (f (.answered (.data b) t)).Inv)
    (hfault : ∀ n t, t.Inv → (f (.answered (.fault n) t)).Inv) :
    OptInv ((s.farStep k u c va act ans late).map f) :=
  .farStep h hsent fun a t ht => match a with
    | .data b => hdata b t ht
    | .fault n => hfault n t ht

theorem State.Inv.performed_ {us : List Nat} (h : s.Inv) : (s.performed_ k us).Inv :=
  .option h fun _ => .ite (.finish (.flushPend (.setCmd h))) (.flushPend (.setCmd h))

theorem State.Inv.note {skips : Nat} {f : Flags} (h : s.Inv) : (s.note k u skips f).Inv := .updCmd h

theorem State.Inv.countSkip (h : s.Inv) : (s.countSkip k u).Inv := .note h

theorem State.Inv.noteFlags {f : Flags} (h : s.Inv) : (s.noteFlags k u f).Inv := .note h

theorem State.Inv.advance (h : s.Inv) : (s.advance k u).Inv := .updCmd h

theorem State.Inv.settleElem {s : State} {k u slot : Nat} {r : Elem} {zeros : List Byte} {got : List Byte → State → State} {gone : State → State}
    (h : s.Inv) (hgot : ∀ b t, t.Inv → (got b t).Inv) (hgone : ∀ t, t.Inv → (gone t).Inv) :
    (s.settleElem k u slot r zeros got gone).Inv :=
  .option h fun _ => .elem (fun _ => hgot _ _ h) (hgot _ _ (.noteFlags h)) (hgone _ (.countSkip h)) fun _ _ =>
    .ite (.park (.setCmd h)) (hgone _ (.setCmd h))

theorem State.Inv.keep {b : List Byte} (h : s.Inv) : (s.keep k u key b).Inv := .advance (.updCmd h)

theorem State.Inv.moved (h : s.Inv) : (s.moved k n).Inv := .updCmd h

theorem State.Inv.fillTensor {c : Command} (h : s.Inv) : (s.fillTensor k c).Inv := by
  unfold State.fillTensor
  extract_lets rb out t s1
  have h1 : s1.Inv := .foldl (fun _ _ h0 => .ite (.moved (.watch (.write h0))) (.updCmd h0)) h
  exact .performed_ (.ite (.noteFlags h1) h1)

theorem State.Inv.probe {c : Command} (h : s.Inv) : (s.probe c ans).2.Inv :=
  .bounded_snd (fun _ => .ite_snd (.ite_snd h (.ite_snd h (.translate h))) (.option_snd h fun _ => h)) h h h

theorem State.Inv.testSwait (h : s.Inv) : (s.testSwait k a).Inv := by
  refine .option h fun c => .ite ?_ h
  dsimp only
  cases boundsOf (recBounds c.sd) (recExtent c.sd) 8 0 8 (idx32 c.aux) with
  | at_ _ => exact .ite (.ite (.finish (.translate h)) (.translate h)) h
  | _ => exact h

theorem State.Inv.testFarWait {w : FarWait} (h : s.Inv) : (s.testFarWait a w).Inv := .ite h (.ite (.answerTo (.update (.translate h))) (.translate h))

theorem State.Inv.testSwaits (h : s.Inv) : (s.testSwaits a).Inv := .foldl (fun _ _ h1 => .testFarWait h1) (.foldl (fun _ _ h1 => .testSwait h1) h)

theorem State.Inv.signalAt {req : Requester} {fn : Nat → Nat} (h : s.Inv) : (s.signalAt req part va fn).2.Inv :=
  .except_snd (fun _ => .translate h) fun _ => .ite_snd (.updHealth (.translate h)) (.testSwaits (.writeBytes (.translate h)))

theorem State.Inv.landCmd {c : Command} (h : s.Inv) : (s.landCmd c w x).Inv := .updCmdLane h

theorem State.Inv.engineAct {c : Command} {a : Act} (h : s.Inv) : (s.engineAct k u c a ans).Inv := by
  cases a with
  | done => exact .performed_ h
  | step => exact .advance h
  | fail _ _ _ => exact .performed_ (.setCmd h)
  | result => exact .ite (.finish (.landCmd (.probe h))) (.fillTensor h)
  | list f e =>
    refine .settleElem (.engineElem h) (fun b _ h1 => ?_) (fun _ h1 => .performed_ h1)
    dsimp only
    cases rowOf c.op c.table (leNat b) with
    | row _ => exact .ite (.performed_ (.updCmd (.updCmd h1))) (.updCmd h1)
    | zero => exact .ite (.updCmd h1) (.performed_ (.noteFlags (.updCmd h1)))
    | skip => exact .performed_ (.countSkip (.updCmd h1))
    | fault _ => exact .performed_ (.updCmd (.updCmd h1))
  | read r slot f key =>
    refine .settleElem (.engineElem h) (fun _ _ h1 => .ite (.performed_ (.keep h1)) (.keep h1)) (fun _ h1 => .ite ?_ ?_)
    · cases (s.engineElem c.group c.pc r f none ans).1 <;> exact .performed_ (.keep h1)
    · exact .ite (.advance h1) (.performed_ h1)
  | write _ _ _ _ =>
    exact .settleElem (.ite (.noteFlags (.engineElem h)) (.engineElem h)) (fun _ _ h1 => .advance (.moved h1)) (fun _ h1 => .advance h1)
  | cast _ _ _ =>
    exact .settleElem (.bounded_snd (fun _ => .ite_snd (.watch (.writeBytes h)) h) h h h) (fun _ _ h1 => .advance (.moved h1))
      (fun _ h1 => .advance h1)
  | add r slot f b =>
    unfold State.engineAct
    dsimp only
    cases (s.engineElem c.group c.pc r f none ans).1 with
    | bytes _ =>
      exact .settleElem (.ite_snd (.engineElem h) (.engineElem h)) (fun _ _ h1 => .advance (.moved (.noteFlags h1))) (fun _ h1 => .advance h1)
    | _ => exact .settleElem (.engineElem h) (fun _ _ h1 => .advance h1) (fun _ h1 => .advance h1)

theorem State.Inv.closeUnit (h : s.Inv) : (s.closeUnit k u).Inv := by
  refine .option h fun c => ?_
  dsimp only
  cases s.actOf c u with
  | none => exact h
  | some a =>
    cases a with
    | done => exact .ite h (.ite (.performed_ (.noteFlags h)) (.performed_ h))
    | _ => exact h

theorem OptInv.engineGo {s : State} {k u : Nat} {ans : Answer} {late ecc : Bool} (h : s.Inv) : OptInv (s.engineGo k u ans late ecc) :=
  .option .none fun _ => .ite .none (.option .none fun _ => .option (.ite .none (.some (.closeUnit (.engineAct (.setCmd h))))) fun _ => .farStep
    (.setCmd h) (fun _ ht => ht) (fun _ _ ht => .closeUnit (.engineAct ht)))

theorem State.Inv.failCmd {code addr slot : Nat} (h : s.Inv) : (s.failCmd k code addr slot).Inv := .finish (.updCmd h)

theorem State.Inv.faultCmd {c : Command} {code addr slot : Nat} (h : s.Inv) : (s.faultCmd k c code addr slot).Inv := .ite (.park h) (.failCmd h)

theorem OptInv.swaitArrive {s : State} {k : Nat} {c : Command} {ans : Answer} (h : s.Inv) : OptInv (s.swaitArrive k c ans) := by
  have hx {i : Int} {a : Answer} : ((s.updCmd k (fun c => c.begin_)).engineElem c.group c.pc c.sd i Option.none a).2.Inv := .engineElem (.updCmd h)
  refine .ite .none (.option (.some ?_) fun _ => ?_)
  · exact .elem (fun _ => .ite (.finish hx) hx) (.finish (.noteFlags hx)) (.finish (.countSkip hx)) fun _ _ => .faultCmd hx
  · exact .farStep_code h (fun _ ht => ht) (fun _ _ ht => .finish ht) (fun _ _ ht => .faultCmd ht)

theorem OptInv.elementGo {a : Answer} (h : s.Inv) : OptInv (s.elementGo cmd ord a) :=
  .option .none fun _ => .ite (.ite (.swaitArrive h) .none) (.engineGo h)

theorem OptInv.signalGo {s : State} {cmd : Nat} {a : Answer} {late ecc : Bool} (h : s.Inv) : OptInv (s.signalGo cmd a late ecc) := by
  refine .option .none fun c => .ite .none
    (.bounded (fun _ => ?_) (.some (.failCmd h)) (.some (.finish (.noteFlags h))) (.some (.finish (.countSkip h))))
  refine .ite (.some (.failCmd h)) (.ite (.some (.failCmd h)) (.ite .none (.ite (.ite .none ?_) ?_)))
  · refine .except (fun _ => .some (.faultCmd (.translate h))) fun _ => .ite (.some (.faultCmd (.translate h))) (.some ?_)
    exact .option (.finish (.moved (.signalAt h))) fun _ => .faultCmd (.signalAt h)
  · exact .farStep_code h (fun _ ht => ht) (fun _ _ ht => .finish (.moved ht)) (fun _ _ ht => .faultCmd ht)

theorem State.Inv.waitcEff {f : EF} (h : s.Inv) : (waitcEff f c s).Inv := .checkWait (.updLane h)

theorem State.Inv.rdcEff {f : EF} (h : s.Inv) : (rdcEff f c s).Inv := .ite (.updGroup (.writeOp h)) (.writeOp h)

theorem State.Inv.cancelClass {cls : Nat} (h : s.Inv) : (s.cancelClass gk cls).2.Inv := .foldl (fun _ _ h1 => .cancel h1) h

theorem State.Inv.ecanEff {f : EF} (h : s.Inv) : (ecanEff f c s).Inv := .writeOp (.cancelClass h)

theorem State.Inv.fenceeEff (h : s.Inv) : (fenceeEff c s).Inv := .updGroup h

/-! ## Collectives (Machine/Collect) -/

theorem State.Inv.collAsk {act : OwnerAct} (h : s.Inv) : (s.collAsk key part va act).2.Inv :=
  .ite_snd h (.option_eq_snd h fun _ e => .answered (State.Inv.requestTo h e))

theorem State.Inv.writeRun (h : s.Inv) : (s.writeRun key part va bs).2.Inv := .ite_snd h (.ite_snd (.serve h) (.collAsk h))

theorem State.Inv.writeMain {s : State} {key part sz va n : Nat} {bs : List Byte} (h : s.Inv) : (s.writeMain key part sz va bs n).2.Inv := by
  induction n generalizing s va bs with
  | zero => exact h
  | succ n ih => exact .ite_snd h (.ite_snd (ih (.writeRun h)) (.writeRun h))

theorem State.Inv.collSignalled (h : s.Inv) : (s.collSignalled key part va).Inv := .ite h (.ite (.signalAt h) (.collAsk h))

theorem State.Inv.endColl {x : Collective} {state : Nat} (h : s.Inv) : (s.endColl key x state).Inv := by
  unfold State.endColl
  extract_lets s1 s2
  have h2 : s2.Inv := .update (.ite h (.writeRun h))
  exact .ite h2 (.collSignalled h2)

theorem State.Inv.completeColl {x : Collective} (h : s.Inv) : (s.completeColl key x).Inv := .endColl (.writeMain h)

theorem State.Inv.openColl {s : State} {key part va : Nat} {r : Collective × State} (h : s.Inv) (e : s.openColl key part va = some r) : r.2.Inv := by
  have key : Yields Prod.snd (s.openColl key part va) := .option (.ite (.some h) .none) fun _ => .some h
  exact key r e

theorem State.Inv.takeColl {x : Collective} {r : Nat} {b : List Byte} (h : s.Inv) : (s.takeColl key x r b).Inv := .ite (.completeColl h) h

theorem State.Inv.freeBytes {sz : Nat} (h : s.Inv) : (s.freeBytes sz).2.Inv := h

theorem State.Inv.readContribution {s : State} {k : Nat} {c : Command} {ans : Answer} {sz n : Nat} {acc : List Byte} (h : s.Inv) :
    (s.readContribution k c ans sz n acc).2.2.Inv := by
  induction n generalizing s acc with
  | zero => exact h
  | succ n ih =>
    unfold State.readContribution
    dsimp only
    split
    · exact ih h
    · split
      · exact ih (.engineElem h)
      · exact ih (.noteFlags (.engineElem h))
      · exact ih (.freeBytes (.countSkip (.engineElem h)))
      · split
        · exact .engineElem h
        · exact ih (.freeBytes (.updCmd (.engineElem h)))

theorem OptInv.collElem {s : State} {k e : Nat} {c : Command} {ans : Answer} {late : Bool} (h : s.Inv) : OptInv (s.collElem k e c ans late) := by
  refine .some_or (fun _ => .some_or (fun va => .ite .none (.farStep h (fun _ ht => ht) fun a t ht => ?_)) .none) .none
  dsimp only
  cases (t.engineElem c.group c.pc c.ss (idx32 c.d + e) Option.none a).1 with
  | bytes _ => exact .updCmd (.engineElem ht)
  | fault _ _ => exact .ite (.park (.engineElem ht)) (.updCmd (.freeBytes (.engineElem ht)))
  | _ => exact .engineElem ht

theorem State.Inv.keepDesc {d : List Byte} (h : s.Inv) : (s.keepDesc k d).Inv := .updCmd h

theorem OptInv.gather {s : State} {k : Nat} {c : Command} {d : List Byte} {ans : Answer} {give : List Byte → State → State} (h : s.Inv)
    (hgive : ∀ b t, t.Inv → (give b t).Inv) :
    OptInv (s.gather k c d ans give) :=
  .ite (.some (.failCmd h))
    (.ite (.ite .none (.some (.keepDesc h))) (.some (.option (hgive _ _ (.readContribution h)) fun _ => .park (.updCmd (.readContribution h)))))

theorem OptInv.contribute {c : Command} {x : Collective} (h : s.Inv) : OptInv (s.contribute k c key va x ans) :=
  .option (.gather h (fun _ _ h1 => .takeColl (.finish h1))) fun _ => .some (.failCmd h)

theorem OptInv.collHere {c : Command} {ecc : Bool} (h : s.Inv) : OptInv (s.collHere k c va ans ecc) := by
  refine .literal (.option (.some (.finish h)) fun _ => .some (.finish (.endColl h))) (.literal (.some (.finish (.landCmd h))) ?_)
  refine .option_eq .none fun _ e => ?_
  have ht := State.Inv.openColl h e
  refine .ite (.contribute h) (.elem (fun _ => .contribute (.engineElem ht)) (.contribute (.noteFlags (.engineElem ht))) ?_ fun _ _ => ?_)
  · exact .some (.finish (.countSkip (.engineElem ht)))
  · exact .some (.faultCmd (.engineElem ht))

theorem OptInv.collThere {s : State} {k : Nat} {c : Command} {va : Nat} {ans : Answer} {late : Bool} (h : s.Inv) :
    OptInv (s.collThere k c va ans late) := by
  have ask {act : OwnerAct} {got : List Byte → State → State} (hgot : ∀ b t, t.Inv → (got b t).Inv) :
      OptInv ((s.farStep k 0 c va act ans late).map fun
        | .sent s => s
        | .answered (.data b) s => got b s
        | .answered (.fault code) s => s.faultCmd k c code va c.sxN) :=
    .farStep_code h (fun _ ht => ht) hgot (fun _ _ ht => .faultCmd ht)
  refine .literal (ask fun _ _ ht => .finish ht) (.literal (ask fun _ _ ht => .finish (.landCmd ht)) ?_)
  dsimp only
  cases boundsOf (recBounds c.sx) (recExtent c.sx) 64 0 64 0 with
  | trap => exact .some (.failCmd h)
  | skip => exact .some (.finish (.countSkip h))
  | at_ _ =>
    cases c.descriptor with
    | none => exact ask fun _ _ ht => .keepDesc ht
    | some _ => exact .option (.ite .none (.gather h fun _ _ ht => .sent_or ht (State.Inv.farStep ht))) fun _ => ask fun _ _ ht => .finish ht
  | drop =>
    cases c.descriptor with
    | none => exact .some (.keepDesc (.noteFlags h))
    | some _ => exact .option (.ite .none (.gather h fun _ _ ht => .sent_or ht (State.Inv.farStep ht))) fun _ => ask fun _ _ ht => .finish ht

theorem OptInv.collGo {a : Answer} {late ecc : Bool} (h : s.Inv) : OptInv (s.collGo cmd a late ecc) :=
  .option .none fun _ => .ite .none (.ite (.some (.failCmd h)) (.ite (.ite .none (.collHere (.updCmd h))) (.ite (.some (.failCmd h)) (.collThere h))))

theorem OutInv.execEngineRequestResponse {a : Answer} (h : s.Inv) : OutInv (execEngineRequestResponse cmd ord a s) :=
  .happens h (.option .none fun _ => .ite (.collElem h) (.elementGo h))

theorem OutInv.execRequestTimeout (h : s.Inv) : OutInv (execRequestTimeout cmd ord s) :=
  .happens h (.option .none fun _ => .ite .none (.ite (.signalGo h) (.ite (.collElem h) (.ite (.collGo h) (.engineGo h)))))

theorem State.Inv.farColl {s : State} {req : Requester} {part va r : Nat} {b : List Byte} {x : Except Nat (List Byte) × State} (h : s.Inv)
    (e : s.farColl req part va r b = some x) :
    x.2.Inv := by
  obtain ⟨o, ho, rfl⟩ := Option.map_eq_some_iff.mp e
  have hd {f l : Nat} : (if o.1.desc.isEmpty then o.2.serve req (vaDie va) part f l none else (.ok o.1.desc, o.2)).2.Inv :=
    .ite_snd (.serve (.openColl h ho)) (.openColl h ho)
  refine .except_snd (fun _ => hd) fun _ => ?_
  exact .option_snd (.ite_snd (.update hd) (.takeColl (.update hd))) fun _ => .update hd

theorem State.Inv.farEnd {state : Nat} {r : Option Nat} (h : s.Inv) : (s.farEnd part va state r).Inv := .option h fun _ => .ite h (.endColl h)

theorem State.Inv.abandonColls (h : s.Inv) : (s.abandonColls tk).Inv :=
  .foldl (fun _ _ h1 => .ite h1 (.ite (.option h1 fun _ => .endColl h1) (.collAsk h1))) h

/-! ## Points that compute (Machine/Integer) -/

theorem State.Inv.readSlot {r : Slot} {o : Operand} (h : s.Inv) : (readSlot r lk o s).2.Inv := (readSlot_calm _ _ _ _).wf h

theorem State.Inv.readRRR {f : RRR} (h : s.Inv) : (readRRR row f lk s).2.Inv := (readRRR_calm _ _ _ _).wf h

theorem State.Inv.computeRRR {f : RRR} {fn : Fn} (h : s.Inv) : (computeRRR row f fn c s).Inv := .writeOp (.updLane (.readRRR h))

theorem State.Inv.computeBoth {f : RRR} {fn : Lane → Nat → Nat → Nat → Nat × Bool} (h : s.Inv) : (computeBoth row f fn c s).Inv :=
  .writeOp (.updLane (.readRRR h))

theorem State.Inv.computePred {f : RRR} {fn : Lane → Nat → Nat → Nat → Bool × Flags} (h : s.Inv) : (computePred row f fn c s).Inv :=
  .updLane (.readRRR h)

theorem State.Inv.plogEff {f : RRR} (h : s.Inv) : (plogEff f c s).Inv := .updLane h

theorem State.Inv.riEff {row : RIRow} {f : RI} (h : s.Inv) : (riEff row f c s).Inv := .writeOp (.readSlot h)

theorem State.Inv.taccEff {f : RRR} (h : s.Inv) : (taccEff f c s).Inv := .writeOp (.updLane (.readOp (.readRRR h)))

/-! ## Control transfers and waits (Machine/Control) -/

theorem State.Inv.jumpTo (h : s.Inv) : (s.jumpTo lk target).Inv := .updLane h

theorem State.Inv.brrEff {f : BF} {taken : Nat → Bool} (h : s.Inv) : (brrEff f taken c s).Inv := .ite (.jumpTo (.readOp h)) (.readOp h)

theorem State.Inv.brpEff {f : BF} (h : s.Inv) : (brpEff f c s).Inv := .ite (.jumpTo h) h

theorem State.Inv.loopEff {f : BF} (h : s.Inv) : (loopEff f c s).Inv := by
  unfold Machine.loopEff
  exact .ite (.jumpTo (.writeOp (.readOp h))) (.writeOp (.readOp h))

theorem State.Inv.brtEff {f : BF} (h : s.Inv) : (brtEff f c s).Inv := .jumpTo (.readOp h)

theorem State.Inv.pushReturn (h : s.Inv) : (s.pushReturn c).Inv := .updLane (.addOp h)

theorem State.Inv.callEff {f : BF} (h : s.Inv) : (callEff f c s).Inv := .jumpTo (.pushReturn h)

theorem State.Inv.calliEff {f : BF} (h : s.Inv) : (calliEff f c s).Inv := .jumpTo (.pushReturn (.readOp h))

theorem State.Inv.jmpiEff {f : BF} (h : s.Inv) : (jmpiEff f c s).Inv := .jumpTo (.readOp h)

theorem State.Inv.retEff (h : s.Inv) : (retEff c s).Inv := .jumpTo (.updLane (.watch h))

theorem State.Inv.exitEff (h : s.Inv) : (exitEff c s).Inv := .updTeam (.updLane h)

theorem State.Inv.parkEff {f : BF} (h : s.Inv) : (parkEff f c s).Inv := .updLane (.readOp h)

theorem State.Inv.yieldEff (h : s.Inv) : (yieldEff c s).Inv := .updLane h

theorem OutInv.execParkExpire {lane : Nat} (h : s.Inv) : OutInv (execParkExpire gk lane s) := by
  refine .happens h ?_
  dsimp only
  cases (s.lane (laneKey gk lane)).block with
  | park _ _ => exact .ite (.some (.updLane h)) .none
  | _ => exact .none

theorem OutInv.execYieldExpire {lane : Nat} (h : s.Inv) : OutInv (execYieldExpire gk lane s) := by
  refine .happens h ?_
  dsimp only
  cases (s.lane (laneKey gk lane)).block with
  | yield _ _ => exact .ite (.some (.updLane h)) .none
  | _ => exact .none

/-! ## Memory words and chutes (Machine/Mems) -/

theorem State.Inv.accessM {f : MF} (h : s.Inv) : (accessM f w c s).2.Inv := .readOp h

theorem State.Inv.accessSpill {f : MF} (h : s.Inv) : (accessSpill f c s).2.Inv := .readOp h

theorem State.Inv.withAccess {a : Except Trap Access × State} {k : Access → State → State} (h : a.2.Inv) (hk : ∀ x t, t.Inv → (k x t).Inv) :
    (withAccess a k).Inv := .except (fun _ => h) fun _ => hk _ _ h

theorem State.Inv.loadEff {acc : Ctx → State → Except Trap Access × State} {f : MF} {w regs : Nat} {signed : Bool} {c : Ctx} {s : State}
    (hacc : (acc c s).2.Inv) :
    (loadEff acc f w regs signed c s).Inv := .withAccess hacc (fun _ _ h => .addOp h)

theorem State.Inv.storeEff {acc : Ctx → State → Except Trap Access × State} {f : MF} {w regs : Nat} {c : Ctx} {s : State}
    (hacc : (acc c s).2.Inv) :
    (storeEff acc f w regs c s).Inv := .withAccess hacc (fun _ _ h => .addOp (.readOp h))

theorem State.Inv.accessA {f : AF} {w : Nat} {c : Ctx} {s : State} (h : s.Inv) : (accessA f w c s).2.2.Inv := .readOp (.readOp h)

theorem State.Inv.atomEff {f : AF} {ret : Bool} (h : s.Inv) : (atomEff f w ret c s).Inv := .withAccess (.accessA h) (fun _ _ h1 => .addOp h1)

theorem State.Inv.casEff {f : AF} (h : s.Inv) : (casEff f w c s).Inv := .withAccess (.accessA h) (fun _ _ h1 => .addOp (.readOp h1))

theorem State.Inv.brldEff {f : MF} (h : s.Inv) : (brldEff f c s).Inv := .withAccess (.accessM h) (fun _ _ h1 => .addOp h1)

theorem State.Inv.chcfgEff {f : MF} (h : s.Inv) : (chcfgEff f c s).Inv := .leave (.readOp h)

theorem State.Inv.configure {d : BitVec 64} (h : s.Inv) : (s.configure tk q d).Inv := .updTeam h

theorem State.Inv.chrdEff {f : MF} (h : s.Inv) : (chrdEff f c s).Inv := .withAccess (.accessM h) (fun _ _ h1 => .addOp (.pop h1))

theorem State.Inv.reserve (h : s.Inv) : (s.reserve c q).Inv := .updChute h

theorem State.Inv.chwrEff {f : MF} (h : s.Inv) : (chwrEff f c s).Inv := .withAccess (.accessM h) (fun _ _ h1 => .addOp (.reserve h1))

theorem State.Inv.chcntEff {f : MF} (h : s.Inv) : (chcntEff f c s).Inv := .writeOp h

theorem State.Inv.chclsEff {f : MF} (h : s.Inv) : (chclsEff f c s).Inv := .bump (.updChute h)

theorem State.Inv.watchLane {reads writes : Bool} (h : s.Inv) : (s.watchLane gk o a n reads writes).Inv := .watch h

theorem State.Inv.landRecord (h : s.Inv) : (s.landRecord tk q entry bs o).Inv :=
  .option h fun _ => .option (.updChute h) fun _ => .updChute (.watchChute (.writeBytes h))

theorem State.Inv.perform (h : s.Inv) : (s.perform gk o).Inv := by
  unfold State.perform
  dsimp only
  cases o.kind with
  | load _ _ _ _ _ drop =>
    cases drop with
    | true => exact .landRegs (.landRegs h)
    | false => exact .landRegs (.watchLane h)
  | store _ _ drop =>
    cases drop with
    | true => exact .landRegs h
    | false => exact .watchLane (.writeBytes h)
  | atomic _ _ _ _ _ _ _ _ drop _ =>
    cases drop with
    | true => exact .ite (.landRegs (.landRegs h)) (.landRegs h)
    | false => exact .landRegs (.watchLane (.writeBytes h))
  | cas _ _ _ _ _ _ _ drop _ =>
    cases drop with
    | true => exact .landRegs (.landRegs h)
    | false => exact .landRegs (.watchLane (.ite (.writeBytes h) h))
  | brld _ _ drop =>
    cases drop with
    | true => exact .updTeam (.landRegs h)
    | false => exact .updTeam (.watchLane h)
  | chwr _ _ _ drop =>
    cases drop with
    | true => exact .landRecord (.landRegs h)
    | false => exact .landRecord (.watchLane h)
  | push _ _ _ _ => exact .landRecord h
  | _ => exact h

/-! ## Chute events (Machine/Chutes) -/

theorem OutInv.execChuteRemotePushArrive (h : s.Inv) : OutInv (execChuteRemotePushArrive t q s) :=
  .happens h (.option .none fun _ => .list .none fun _ _ => .ite (.some (.land (.updChute h))) .none)

theorem OutInv.execChuteFreeNotice (h : s.Inv) : OutInv (execChuteFreeNotice t q s) :=
  .happens h (.option .none fun _ => .ite .none (.some (.updChute h)))

theorem OutInv.execChuteForward (h : s.Inv) : OutInv (execChuteForward t q s) :=
  .happens h (.option .none fun _ => .option .none fun _ => .ite (.some (.updChute h)) .none)

theorem State.Inv.countPop {d : BitVec 64} (h : s.Inv) : (s.countPop t q d).Inv := .updChute h

theorem OutInv.execChutePopNotice (h : s.Inv) : OutInv (execChutePopNotice t q s) :=
  .happens h (.option .none fun _ => .ite .none (.some (.countPop h)))

theorem OutInv.execChuteWithdraw (h : s.Inv) : OutInv (execChuteWithdraw t q s) :=
  .happens h (.option .none fun _ => .ite .none (.list (.ite .none (.some (.countPop h))) fun _ _ => .some (.updChute h)))

theorem OutInv.execChuteCloseNotice (h : s.Inv) : OutInv (execChuteCloseNotice t q s) :=
  .happens h (.option .none fun _ => .ite (.some (.updChute h)) .none)

/-! ## Rendezvous and register grants (Machine/Rendezvous) -/

theorem State.Inv.arriveEff {op : Nat} {row : GRow} {f : GF} (h : s.Inv) : (arriveEff op row f c s).Inv := .setLane h

theorem State.Inv.pass (h : s.Inv) : (s.pass lk).Inv := .updLane (.retire h)

theorem State.Inv.runGroupOp {base : Nat} {arr : AList Arrival} (h : s.Inv) : (s.runGroupOp gk base n arr).Inv :=
  .list h fun _ _ => .foldl (fun _ _ h1 => .pass h1) (.foldl (fun _ _ h1 => .updLane h1) h)

theorem State.Inv.clearRegs {lo hi : Nat} (h : s.Inv) : (s.clearRegs gk lo hi).Inv := .updLanes h

theorem State.Inv.grantNow (h : s.Inv) : (s.grantNow gk n).Inv := .foldl (fun _ _ h1 => .pass h1) (.clearRegs (.setGroup h))

theorem State.Inv.serveGrant (h : s.Inv) : (s.serveGrant core gk n).Inv := .grantNow (.updCore h)

theorem State.Inv.receiveHalt (h : s.Inv) : (s.receiveHalt gk).Inv := .option (.haltGroup h) fun _ => .ite (.haltGroup (.serveGrant h)) (.haltGroup h)

theorem State.Inv.withdraw (h : s.Inv) : (s.withdraw gk ps).Inv := .foldl (fun _ _ h1 => .updLane h1) h

theorem State.Inv.trapArrived {tr : Trap} (h : s.Inv) : (s.trapArrived gk tr ps).Inv := .takeTrap (.withdraw h)

theorem State.Inv.runGrant {a : Arrival} (h : s.Inv) : (s.runGrant gk a ps).Inv :=
  .ite (.ite (.trapArrived h) (.ite (.trapArrived h) (.updCore (.setGroup h))))
    (.ite (.trapArrived h) (.foldl (fun _ _ h1 => .pass h1) (.setGroup h)))

theorem State.Inv.endDomain {base : Nat} (h : s.Inv) : (s.endDomain gk base n).Inv :=
  .list h fun _ _ => .ite h (.ite (.trapArrived h) (.ite (.runGrant h) (.runGroupOp h)))

theorem State.Inv.endRendezvous (h : s.Inv) : (s.endRendezvous gk).Inv := .ite h (.ite (.endDomain (.endDomain h)) (.endDomain h))

/-! ## Fences, barriers, seals (Machine/Sync) -/

theorem State.Inv.fenceEff (h : s.Inv) : (fenceEff f c s).Inv := .updGroup h

theorem State.Inv.pruneFences (h : s.Inv) : (s.pruneFences gk).Inv := .ite h (.updGroup h)

theorem State.Inv.setBarrier {b : Barrier} (h : s.Inv) : (s.setBarrier tk nb b).Inv := .updTeam h

theorem State.Inv.arriveLane {pos : Nat} (h : s.Inv) : (s.arriveLane gk nb pos).Inv := .setBarrier h

theorem State.Inv.baraEff (h : s.Inv) : (baraEff nb c s).Inv := .ite (.updLane h) (.retire (.arriveLane h))

theorem State.Inv.barwEff (h : s.Inv) : (barwEff nb c s).Inv := .ite (.updLane h) (.retire h)

theorem State.Inv.barEff (h : s.Inv) : (barEff nb c s).Inv := .ite (.updLane h) (.updLane (.arriveLane h))

theorem State.Inv.bariEff (h : s.Inv) : (bariEff f c s).Inv := .leave h

theorem State.Inv.countGroups (h : s.Inv) : (s.countGroups tk nb).Inv := .foldl (fun _ _ h1 => .ite (.setBarrier h1) h1) h

theorem State.Inv.releaseWaiters (h : s.Inv) : (s.releaseWaiters tk nb).Inv := by
  refine .foldl (fun s gk h1 => .foldl (fun s p h2 => ?_) h1) h
  dsimp only
  cases (s.lane (laneKey gk p)).block with
  | barWait _ _ => exact .ite (.updLane (.retire h2)) h2
  | barArrive _ _ => exact .ite (.ite (.updLane (.arriveLane h2)) (.updLane (.retire (.arriveLane h2)))) h2
  | _ => exact h2

theorem State.Inv.releaseSequencer (h : s.Inv) : (s.releaseSequencer tk nb).Inv := by
  refine .ite h ?_
  cases (s.team tk).seqr.wait with
  | barWait _ _ => exact .ite (.setTeam h) h
  | barArrive _ => exact .ite (.setBarrier (.setTeam h)) h
  | _ => exact h

theorem State.Inv.completePhase (h : s.Inv) : (s.completePhase tk nb).Inv :=
  .releaseSequencer (.releaseWaiters (.ite (.updTeam (.setBarrier h)) (.setBarrier h)))

theorem State.Inv.updateBarrier {atStep : Bool} (h : s.Inv) : (s.updateBarrier tk nb atStep).Inv :=
  .ite (.completePhase (.countGroups h)) (.countGroups h)

theorem State.Inv.updateGridBarrier (h : s.Inv) : (s.updateGridBarrier tk).Inv :=
  .ite h (.ite (.foldl (fun _ _ h1 => .completePhase h1) (.countGroups h)) (.countGroups h))

theorem State.Inv.updateBarriers {atStep : Bool} (h : s.Inv) : (s.updateBarriers tk atStep).Inv :=
  .foldl (fun _ _ h1 => .updateBarrier h1) (.foldl (fun _ _ h1 => .releaseWaiters h1) (.updateGridBarrier h))

theorem State.Inv.awaitSeals (h : s.Inv) : (s.awaitSeals c).Inv := .updLane h

theorem State.Inv.tellSeal {act : OwnerAct} (h : s.Inv) : (s.tellSeal gk part key act).Inv :=
  .option h fun _ => .ite h (.option_eq h fun _ e => .update (.answered (State.Inv.requestTo h e)))

theorem State.Inv.sealEff (h : s.Inv) : (sealEff f c s).Inv := .option (.awaitSeals (.writeOp h)) fun _ => .awaitSeals (.tellSeal (.addOp h))

theorem State.Inv.unsealEff (h : s.Inv) : (unsealEff f c s).Inv := .option (.awaitSeals (.writeOp h)) fun _ => .awaitSeals (.tellSeal (.addOp h))

theorem State.Inv.endSeals {step : Nat} (h : s.Inv) : (s.endSeals gk step).Inv := by
  refine .ite h (.foldl (fun s p h1 => ?_) h)
  dsimp only
  cases (s.lane (laneKey gk p)).block with
  | op _ => exact .ite (.updLane (.retire h1)) h1
  | _ => exact h1

theorem State.Inv.waitsEff {f : MF} (h : s.Inv) : (waitsEff f c s).Inv :=
  .withAccess (.accessM h) (fun _ _ h1 => .ite (.retire (.landRegs h1)) (.updLane (.addOp (.readOp h1))))

theorem State.Inv.fenceiEff (h : s.Inv) : (fenceiEff c s).Inv := .updLane (.addOp h)

theorem State.Inv.invalidate (h : s.Inv) : (s.invalidate tk).Inv := .foldl (fun _ _ h1 => .updCore h1) h

theorem State.Inv.passOp (h : s.Inv) : (s.passOp o).Inv := .updLane (.retire h)

theorem OutInv.execMemsComplete {op : Nat} (h : s.Inv) : OutInv (execMemsComplete gk op s) :=
  .happens h (.option .none fun _ => .ite (.some (.updateBarriers (.pruneFences (.dropOp (.perform h))))) .none)

theorem OutInv.execWaitsWake {op : Nat} (h : s.Inv) : OutInv (execWaitsWake gk op s) := by
  refine .happens h (.option .none fun o => ?_)
  dsimp only
  cases o.kind with
  | waits _ _ _ _ => exact .ite (.some (.pruneFences (.passOp (.dropOp (.landRegs (.watchLane h)))))) .none
  | _ => exact .none

theorem OutInv.execFenceiComplete {op : Nat} (h : s.Inv) : OutInv (execFenceiComplete gk op s) := by
  refine .happens h (.option .none fun o => ?_)
  dsimp only
  cases o.kind with
  | fencei => exact .some (.passOp (.dropOp (.invalidate h)))
  | _ => exact .none

theorem State.Inv.sealDone {x : SealEntry} {dst : Operand} {e : Nat} (h : s.Inv) : (s.sealDone gk part key x o dst e).Inv :=
  .endSeals (.dropOp (.landRegs h))

theorem State.Inv.unsealDone {x : SealEntry} {dst : Operand} (h : s.Inv) : (s.unsealDone gk part key x o dst).Inv := .endSeals (.dropOp (.landRegs h))

theorem OutInv.execSealComplete {op : Nat} (h : s.Inv) : OutInv (execSealComplete gk op s) := by
  refine .happens h (.option .none fun o => ?_)
  dsimp only
  cases o.kind with
  | sealing _ _ _ =>
    refine .ite (.option .none fun _ => ?_) (.option .none fun _ => ?_)
    · exact .ite (.some (.tellSeal h)) (.ite .none (.some (.sealDone h)))
    · exact .ite (.some (.tellSeal h)) (.ite .none (.some (.unsealDone h)))
  | _ => exact .none

/-! ## The sequencer and its stream (Machine/Matrix) -/

theorem State.Inv.endStream {fault : Bool} (h : s.Inv) : (s.endStream tk fault).Inv := .finish (.updTeam h)

theorem State.Inv.streamTrap {cause detail : Nat} (h : s.Inv) : (s.streamTrap tk cause detail).Inv := .endStream (.takeTrap h)

theorem State.Inv.watchSeq {rs : List (Nat × Nat)} {reads writes : Bool} (h : s.Inv) : (s.watchSeq tk rs reads writes).Inv :=
  .foldl (fun _ _ h1 => .watch h1) h

theorem State.Inv.updSeqr {f : Sequencer → Sequencer} (h : s.Inv) : (s.updSeqr tk f).Inv := .updTeam h

theorem State.Inv.nextWord (h : s.Inv) : (s.nextWord tk).Inv := .updSeqr h

theorem State.Inv.putBytes {bs : List (Nat × Byte)} (h : s.Inv) : (s.putBytes tk bs).Inv := .foldl (fun _ _ h1 => .write h1) h

/-- A stream word ends the stream with its trap, or fetches and has its effect. -/
theorem OutInv.streamWord {p : StreamPoint} {s : State} (hp : p.Keeps) (h : s.Inv) : OutInv (streamWord p s) := by
  unfold Machine.streamWord
  cases s.turn with
  | stream _ => exact .next (.option (hp _ _ (.watchSeq (.setTurn h))) fun _ => .streamTrap (.setTurn h))
  | _ => exact .fault

theorem State.Inv.noteMatrix {f : Flags} (h : s.Inv) : (s.noteMatrix tk f).Inv := .updSeqr h

theorem StreamPoint.Keeps.mmacPoint {f : MSF} : (mmacPoint f).Keeps :=
  fun _ _ h => .some_or (fun _ => .some_or (fun _ => .nextWord (.noteMatrix (.watchSeq (.updTeam h)))) h) h

theorem StreamPoint.Keeps.mloopEndPoint : mloopEndPoint.Keeps := fun _ _ h => .list h fun _ _ => .ite (.nextWord (.updSeqr h)) (.updSeqr h)

theorem State.Inv.mjmpEff {f : MSF} (h : s.Inv) : (mjmpEff f tk s).Inv := .updSeqr h

theorem State.Inv.setRed {on : Bool} (h : s.Inv) : (s.setRed tk on).Inv := .updTeam h

theorem State.Inv.mwaitcEff {f : MSF} (h : s.Inv) : (mwaitcEff f tk s).Inv := .ite (.nextWord h) (.updSeqr h)

theorem State.Inv.mbaraEff {f : MSF} (h : s.Inv) : (mbaraEff f tk s).Inv := .ite (.updSeqr h) (.updateBarrier (.nextWord (.setBarrier h)))

theorem State.Inv.mbarwEff {f : MSF} (h : s.Inv) : (mbarwEff f tk s).Inv := .option (.nextWord h) fun _ => .ite (.updSeqr h) (.nextWord h)

theorem State.Inv.mendEff (h : s.Inv) : (mendEff tk s).Inv := .endStream (.nextWord h)

theorem State.Inv.ttsetEff (h : s.Inv) : (ttsetEff f c s).Inv := .leave h

theorem State.Inv.ttgetEff (h : s.Inv) : (ttgetEff f c s).Inv := .writeOp h

theorem State.Inv.mstartEff (h : s.Inv) : (mstartEff f c s).Inv := .ite h (.setRed (.updSeqr (.issueCommand h)))

theorem State.Inv.mstopEff (h : s.Inv) : (mstopEff c s).Inv := .ite (.endStream h) h

theorem State.Inv.mstatEff (h : s.Inv) : (mstatEff f c s).Inv := .writeOp h

/-! ## Launches and teams (Machine/Place) -/

theorem State.Inv.readVaGo {die part n : Nat} {s : State} {va len : Nat} (h : s.Inv) : (readVaGo die part n s va len).2.Inv := by
  induction n generalizing s va len with
  | zero => exact h
  | succ n ih => exact .ite_snd h (.ite_snd h (.except_snd (fun _ => .serve h) fun _ => ih (.serve h)))

theorem State.Inv.readVaFrom (h : s.Inv) : (s.readVaFrom die part va len).2.Inv := .readVaGo h

theorem State.Inv.readVa (h : s.Inv) : (s.readVa part va len).2.Inv := .readVaFrom h

theorem State.Inv.writeVaGo {part n : Nat} {s : State} {va : Nat} {bs : List Byte} (h : s.Inv) : (writeVaGo part n s va bs).Inv := by
  induction n generalizing s va bs with
  | zero => exact h
  | succ n ih => exact .ite h (ih (.serve h))

theorem State.Inv.writeVa (h : s.Inv) : (s.writeVa part va bs).Inv := .writeVaGo h

theorem State.Inv.kernelAt {image : Nat} (h : s.Inv) : (s.kernelAt part image).2.Inv := .readVa h

theorem State.Inv.lookedUp {image : Nat} (h : s.Inv) : (s.lookedUp part image).Inv := .option (.kernelAt h) fun _ => .readVa (.kernelAt h)

theorem State.Inv.spawn {gi spillAt lanes : Nat} {producer : Bool} {v : AList W32} (h : s.Inv) :
    (s.spawn tk gi core spillAt lanes producer entry v).Inv :=
  .updLanes (.setGroup (.clear h))

theorem State.Inv.startSlice (h : s.Inv) : (s.startSlice g tk).Inv := .ite h (.updGrid h)

theorem State.Inv.placeTeam {s : State} {g index : Nat} {kn : Kernel} {kind : TeamKind} {lanes split : Nat} {plan : List Share} {v : AList W32}
    {r : Nat × State} (h : s.Inv) (e : s.placeTeam g index kn kind lanes split plan v = some r) :
    r.2.Inv := by
  have key : Yields Prod.snd (s.placeTeam g index kn kind lanes split plan v) := by
    refine .some_or (fun _ => .some_or (fun _ => .some (.startSlice (.foldl (fun _ _ h1 => .spawn h1) ?_))) .none) .none
    exact .chamberWrite (.setTeam (.foldl (fun _ _ h1 => .clear h1) (.bump (.readVa (.readVa h)))))
  exact key r e

theorem State.Inv.dispatch {kn : Kernel} {teams : Nat} (h : s.Inv) : (s.dispatch g kn teams).Inv := .updGrid h

theorem State.Inv.report1 {e : List Byte} (h : s.Inv) : (s.report1 e).Inv := .ite h (.ite h (.update (.writeBytes h)))

theorem OptInv.tellPart {act : OwnerAct} (h : s.Inv) : OptInv (s.tellPart part va act) := .map fun _ e => .answered (.requestTo h e)

theorem State.Inv.closeTime {at_ dispatch end_ fault io engine : Nat} (h : s.Inv) : (s.closeTime part at_ dispatch end_ fault io engine).Inv :=
  .ite (.getD (.tellPart h) h) (.writeVa h)

theorem State.Inv.leaveBehind {id : W64} {d : BitVec 512} {feed status cause : Nat} {record : Option TrapRecord}
    {dispatch end_ fault io engine : Nat} (h : s.Inv) :
    (s.leaveBehind part id d feed status cause record dispatch end_ fault io engine).Inv := by
  unfold State.leaveBehind
  extract_lets s1 s2
  have h1 : s1.Inv := .ite (.closeTime h) h
  have h2 : s2.Inv := .ite h1 (.report1 h1)
  exact .ite h2 (.ite (.signalAt h2) (.ite (.getD (.tellPart h2) h2) h2))

theorem State.Inv.reject {feed cause : Nat} (h : s.Inv) : (s.reject g feed cause).Inv := .updGrid (.ite (.leaveBehind h) h)

theorem State.Inv.dqPush {rec : List Byte} {e : TaskEntry} (h : s.Inv) : (s.dqPush core rec e).Inv := .updGrid (.updCore (.writeBytes h))

theorem State.Inv.dqPop (h : s.Inv) : (s.dqPop core).Inv := .updCore h

theorem State.Inv.dqShift (h : s.Inv) : (s.dqShift core).Inv := .updCore h

theorem State.Inv.dqSet {rs : List (List Byte × TaskEntry)} (h : s.Inv) : (s.dqSet core rs).Inv := .updCore (.foldl (fun _ _ h1 => .writeBytes h1) h)

theorem State.Inv.dqDiscard (h : s.Inv) : (s.dqDiscard g).Inv := .foldl (fun _ _ h1 => .ite (.dqSet h1) h1) h

theorem State.Inv.countOut (h : s.Inv) : (s.countOut tk).Inv := by
  unfold State.countOut
  dsimp only
  cases (s.team tk).kind <;> exact .updGrid h

theorem State.Inv.release {r : Residency} (h : s.Inv) : (s.release tk r).Inv := .update (.setTeam (.foldl (fun _ _ h1 => .updCore h1) h))

theorem State.Inv.cancelTeam (h : s.Inv) : (s.cancelTeam tk).Inv := .foldl (fun _ _ h1 => .cancel (.updCmd h1)) (.abandonColls h)

theorem State.Inv.beginEnd {status : Nat} {record : Option TrapRecord} (h : s.Inv) : (s.beginEnd g status record).Inv := by
  refine .ite h (.foldl (fun _ t h1 => ?_) (.updGrid (.dqDiscard (.updGrid h))))
  cases t.2.residency with
  | resident => exact .updTeam (.cancelTeam (.foldl (fun _ _ h2 => .haltGroup h2) (.triggerTeam h1)))
  | saved _ _ _ _ => exact .release (.countOut (.cancelTeam h1))
  | _ => exact h1

/-! ## System words (Machine/Syst) -/

theorem State.Inv.free (h : s.Inv) : s.free.2.Inv := h

theorem State.Inv.gridDim (h : s.Inv) : (s.gridDim tk x).2.Inv := .ite_snd (.free h) h

theorem State.Inv.special {pos : Nat} (h : s.Inv) : (s.special gk pos n).2.Inv := by
  repeat' apply State.Inv.literal_snd
  any_goals exact h
  all_goals exact .gridDim h

theorem State.Inv.srdEff (h : s.Inv) : (srdEff f c s).Inv := .writeOp (.special h)

theorem State.Inv.swrEff (h : s.Inv) : (swrEff f c s).Inv := .literal (.updLane (.readOp h)) (.literal (.updLane (.readOp h)) (.updGroup (.readOp h)))

theorem State.Inv.brkStop {armed : Bool} (h : s.Inv) : (s.brkStop gk armed).Inv := .ite (.updTeam (.takeStop h)) h

theorem State.Inv.rethEff (h : s.Inv) : (rethEff f c s).Inv := .leave h

theorem State.Inv.recordAccess (h : s.Inv) : (recordAccess f c s).2.Inv := .readOp h

theorem State.Inv.noteDrop {x : Access} (h : s.Inv) : (s.noteDrop lk x).Inv := .ite (.updLane h) h

theorem State.Inv.checkChildren {s : State} {gs : List Nat} (h : s.Inv) : (s.checkChildren gs).2.2.Inv :=
  List.foldlRecOn (motive := fun acc : List Child × Nat × State => acc.2.2.Inv) gs _ h fun _ hacc _ _ => .ite (.lookedUp hacc) (.leaveBehind
    (.lookedUp hacc))

theorem State.Inv.handOn (h : s.Inv) : (s.handOn w).Inv := .option h fun _ => .option (.update (.checkChildren h)) fun _ =>
    .ite (.setGrid (.update (.bump (.checkChildren h)))) (.dispatch (.setGrid (.update (.bump (.checkChildren h)))))

theorem State.Inv.closeWindow (h : s.Inv) : (s.closeWindow w).Inv := .ite h (.handOn h)

theorem State.Inv.wakeLaunchers (h : s.Inv) : s.wakeLaunchers.Inv := by
  refine .foldl (fun s e h1 => ?_) h
  cases (s.lane e.1).block with
  | children _ => exact .ite h1 (.updLane (.retire h1))
  | _ => exact h1

theorem State.Inv.aggregate (h : s.Inv) : (s.aggregate die g).Inv :=
  .option (.update (.bump (.lookedUp h))) fun _ => .ite (.update (.bump (.closeWindow (.lookedUp h))))
    (.ite (.closeWindow (.update (.lookedUp h))) (.update (.lookedUp h)))

theorem State.Inv.launchEff (h : s.Inv) : (launchEff f c s).Inv :=
  .withAccess (.recordAccess h) (fun _ _ h1 => .ite (.writeOp (.noteDrop h1)) (.writeOp (.aggregate (.update (.setGrid (.bump (.noteDrop h1)))))))

theorem State.Inv.launchwEff (h : s.Inv) : (launchwEff c s).Inv := .updLane (.leave h)

theorem State.Inv.closeWindowsOf {id : Nat} (h : s.Inv) : (s.closeWindowsOf id).Inv := .foldl (fun _ _ h1 => .closeWindow h1) h

theorem State.Inv.taskEff (h : s.Inv) : (taskEff f c s).Inv :=
  .withAccess (.recordAccess h) (fun _ _ h1 => .ite (.writeOp (.noteDrop h1)) (.writeOp (.dqPush (.lookedUp (.noteDrop h1)))))

theorem State.Inv.taskpEff (h : s.Inv) : (taskpEff f c s).Inv :=
  .withAccess (.recordAccess h) (fun _ _ h1 => .option (.writeOp h1) fun _ => .writeOp (.addOp (.noteDrop (.updGrid (.dqPop h1)))))

theorem State.Inv.tasksEff (h : s.Inv) : (tasksEff f c s).Inv := .updTeam (.readOp h)

theorem State.Inv.sendMessage {reply : Bool} (h : s.Inv) : (s.sendMessage f c target reply).Inv := .updCore h

theorem State.Inv.amsgEff (h : s.Inv) : (amsgEff f c s).Inv := .sendMessage (.readOp h)

theorem State.Inv.amsgrEff (h : s.Inv) : (amsgrEff f c s).Inv := .sendMessage h

theorem State.Inv.regionEff {f : RI} (h : s.Inv) : (regionEff f c s).Inv := .updGroup h

theorem State.Inv.perfEff (h : s.Inv) : (perfEff f c s).Inv := .writeOp h

theorem State.Inv.stampEff (h : s.Inv) : (stampEff f c s).Inv := .leave (.readOp h)

theorem State.Inv.hintEff (h : s.Inv) : (hintEff f c s).Inv := .leave h

theorem State.Inv.wpsetEff (h : s.Inv) : (wpsetEff f c s).Inv := .leave (.readOp h)

theorem State.Inv.endWpset {ps : List Pend} (h : s.Inv) : (s.endWpset gk ps).Inv :=
  .option h fun _ => .foldl (fun _ _ h1 => .writeOp h1) (.ite h (.updCore h))

theorem State.Inv.wpclrEff (h : s.Inv) : (wpclrEff f c s).Inv := .foldl (fun _ _ h1 => .updCore h1) h

theorem State.Inv.pswrEff (h : s.Inv) : (pswrEff f c s).Inv := .leave (.readOp (.readOp h))

theorem State.Inv.endPswr {ps : List Pend} (h : s.Inv) : (s.endPswr ps).Inv := .foldl (fun _ _ h1 => .updCore h1) h

theorem State.Inv.pctxEff (h : s.Inv) : (pctxEff f c s).Inv :=
  .option (.readOp h) fun _ => .ite (.writeOp (.readOp h)) (.writeOp (.leave (.readOp h)))

theorem State.Inv.future {served : Bool} (h : s.Inv) : (s.future page served).Inv := .update (.pageDone h)

theorem State.Inv.endPctx {ps : List Pend} (h : s.Inv) : (s.endPctx ps).Inv := by
  refine .foldl (fun s p h1 => ?_) h
  cases (s.team p.y).residency with
  | saved _ _ _ _ => exact .ite (.beginEnd h1) (.future h1)
  | _ => exact h1

/-- BRK is a lane word whose trap may come with the debugger's stop. -/
theorem OutInv.execBrk {f : SF} {s : State} (h : s.Inv) : OutInv (execBrk f s) := by
  have word {own : Ctx → State → Option Trap} {v : View} : OutInv (Machine.laneWord v (trapping own (fun _ s => s)) s) :=
    .laneWord (fun _ _ h => h) h
  unfold Machine.execBrk
  split
  · rename_i t e
    have ht := word t e
    split
    · exact .next (.brkStop ht)
    · exact .next ht
  · rename_i e
    exact fun t ht => (e t ht).elim

/-! ## Dispatch, placement, tasks and messages (Machine/Launches) -/

theorem State.Inv.consume {f : Nat} (h : s.Inv) : (s.consume f).Inv := .updFeed h

theorem OutInv.execFeedEntryDispatch {f : Nat} (h : s.Inv) : OutInv (execFeedEntryDispatch f s) := by
  refine .happens h (.list .none fun _ _ => .ite .none (.ite (.map fun _ _ => ?_) (.some ?_)))
  · exact .dispatch (.setGrid (.updFeed (.consume (.bump (.lookedUp h)))))
  · exact .reject (.updFeed (.setGrid (.updFeed (.consume (.bump (.lookedUp h))))))

theorem OutInv.execWorkRecordAppend {f : Nat} (h : s.Inv) : OutInv (execWorkRecordAppend f s) := by
  refine .happens h (.list .none fun _ _ => .ite .none (.option (.some (.updFeed h)) fun _ => .option (.some (.updFeed h)) fun _ => ?_))
  exact .ite (.some (.updFeed h)) (.ite .none (.some (.consume (.updChute (.bump (.land h))))))

theorem OutInv.execWindowTimeout (h : s.Inv) : OutInv (execWindowTimeout w s) :=
  .happens h (.option .none fun _ => .ite (.ite .none (.some (.wakeLaunchers (.handOn h)))) (.ite (.some (.wakeLaunchers (.closeWindow h))) .none))

theorem OptInv.startTeam {i : Nat} {plan : List Share} (h : s.Inv) : OptInv (s.startTeam g i plan) := .map fun _ e => .placeTeam h e

theorem OptInv.startNext {cl : Nat} (h : s.Inv) : OptInv (s.startNext g cl) :=
  .some_or (fun _ => .some_or (fun _ => .startTeam (.updGrid h)) .none) .none

theorem OptInv.startAll {g : Nat} {cls : List Nat} {n : Nat} {s : State} (h : s.Inv) : OptInv (startAll g cls n s) := by
  induction n generalizing s with
  | zero => exact .none
  | succ n ih =>
    refine .option (.some h) fun _ => .option_eq ?_ fun _ e => ih (OptInv.startNext h _ e)
    exact .some_or (fun _ => .some_or (fun _ => .option_eq .none fun _ e => ih (OptInv.startTeam (.updGrid h) _ e)) .none) .none

theorem OptInv.startOn {cluster : Nat} (h : s.Inv) : OptInv (s.startOn grid cluster) := .ite (.startAll h) (.startNext h)

theorem OutInv.execClusterSteal {cluster : Nat} (h : s.Inv) : OutInv (execClusterSteal cluster grid s) :=
  .happens h (.option .none fun _ => .ite .none (.map (fun _ _ => .setGrid h)))

theorem OutInv.execDieSteal (h : s.Inv) : OutInv (execDieSteal die grid s) :=
  .happens h (.option .none fun _ => .ite .none (.map (fun _ _ => .setGrid h)))

theorem State.Inv.looseCoords (h : s.Inv) : (s.looseCoords tk).Inv := .updTeam (.free (.free (.free h)))

theorem OptInv.runTask {rec : List Byte} (h : s.Inv) : OptInv (s.runTask core rec g) :=
  .option .none fun _ => .option .none fun _ => .map fun _ e => .looseCoords (.placeTeam h e)

theorem OutInv.execTaskRun (h : s.Inv) : OutInv (execTaskRun core s) := .happens h (.option .none fun _ => .ite .none (.runTask (.dqPop h)))

theorem OutInv.execTaskSteal (h : s.Inv) : OutInv (execTaskSteal core s) :=
  .happens h (.ite .none (.option .none fun _ => .list .none fun _ _ => .runTask (.dqShift h)))

theorem State.Inv.receive {m : Message} (h : s.Inv) : (s.receive core m).Inv := .ite (.updHealth h) (.updCore h)

theorem OptInv.deliver {m : Message} (h : s.Inv) : OptInv (s.deliver core k m) :=
  .ite (.map (fun _ _ => .sendPacket (.updCore h))) (.ite (.some (.receive (.updCore h))) (.some (.updCore h)))

theorem OutInv.execMessageArrive {src : MsgSource} (h : s.Inv) : OutInv (execMessageArrive src s) := by
  refine .happens h ?_
  cases src with
  | core _ => exact .option .none fun _ => .deliver h
  | remote _ _ _ _ _ _ => exact .ite (.some (.receive h)) .none

theorem OutInv.execMessageRetry (h : s.Inv) : OutInv (execMessageRetry core s) := .happens h (.option .none fun _ => .ite (.deliver h) .none)

theorem OutInv.execHandlerRun (h : s.Inv) : OutInv (execHandlerRun core s) := by
  refine .happens h (.list .none fun _ _ => .option .none fun _ => .option .none fun _ => .ite .none (.option_eq .none fun _ e => ?_))
  exact .some (.updCore (.looseCoords (State.Inv.placeTeam (.setGrid (.bump h)) e)))

theorem OptInv.pushSuccessor {task : List Byte} (h : s.Inv) : OptInv (s.pushSuccessor g part core task) :=
  .ite (.some (.beginEnd (.lookedUp h))) (.map (fun _ _ => .dqPush (.lookedUp h)))

theorem OptInv.successor {s : State} {tk core : Nat} (h : s.Inv) : OptInv (s.successor tk core) := by
  unfold State.successor
  dsimp only
  cases (s.team tk).kind with
  | task _ succ =>
    refine .ite (.some h) (.ite (.option_eq .none fun t e => ?_) (.ite (.some h) ?_))
    · have ht := OptInv.tellPart (State.Inv.update h) t e
      exact .ite (.some ht) (.pushSuccessor (.getD (.tellPart ht) ht))
    · rcases e : s.readVaFrom (core / 64) (s.partitionOf tk) succ 72 with ⟨_ | _, t⟩
      · exact .none
      · have ht := State.Inv.snd_of_eq (State.Inv.readVaFrom h) e
        exact .ite (.some (.signalAt ht)) (.pushSuccessor (.signalAt ht))
  | _ => exact .some h

theorem State.Inv.updateGridBarrierOf (h : s.Inv) : (s.updateGridBarrierOf g).Inv := .option h fun _ => .updateGridBarrier h

theorem OutInv.execGroupRetire (h : s.Inv) : OutInv (execGroupRetire gk s) := by
  refine .happens h (.ite .none (.ite (.option_eq .none fun t e => ?_) (.some (.updateBarriers (.update (.setGroup h))))))
  exact .some (.updateGridBarrierOf (.release (.countOut (OptInv.successor (.update (.setGroup h)) t e))))

theorem OutInv.execLaunchEnd (h : s.Inv) : OutInv (execLaunchEnd grid s) :=
  .happens h (.ite .none (.ite (.option .none fun _ => .some (.beginEnd h)) (.option .none fun _ => .some (.release (.countOut h)))))

theorem OutInv.execLaunchComplete (h : s.Inv) : OutInv (execLaunchComplete grid s) := by
  refine .happens h (.ite .none (.ite (.ite (.some (.reject h)) .none) (.ite .none (.ite (.ite .none ?_) (.option ?_ fun _ => .some ?_)))))
  · exact .some (.updGrid (.ite h (.leaveBehind h)))
  · exact .ite (.some (.updGrid h)) .none
  · exact .ite (.updGrid (.updGrid (.ite (.leaveBehind h) (.leaveBehind h)))) (.updGrid (.ite (.leaveBehind h) (.leaveBehind h)))

/-! ## Halts, saving and restoring (Machine/Preempt) -/

theorem State.Inv.haltAll (h : s.Inv) : (s.haltAll tk).Inv := .foldl (fun _ _ h1 => .receiveHalt h1) h

theorem State.Inv.selectTeam {why : Nat} (h : s.Inv) : (s.selectTeam tk why core).Inv := .triggerTeam (.updTeam h)

theorem OutInv.execHandlerStart (h : s.Inv) : OutInv (execHandlerStart t s) := by
  refine .happens h (.option .none fun r => .ite .none ?_)
  dsimp only
  rcases e : s.readVa (s.partitionOf t) ((s.team t).kernel.image + 16 + 4 * (s.team t).kernel.handler) 4 with ⟨_ | _, s1⟩
  · exact .none
  · have h1 := State.Inv.snd_of_eq (State.Inv.readVa h) e
    exact .some (.ite (.triggerTeam (.enterHandler (.haltAll h1))) (.enterHandler (.haltAll h1)))

theorem State.Inv.updTeamLanes {f : Lane → Lane} (h : s.Inv) : (s.updTeamLanes tk f).Inv := .updTeam (.foldl (fun _ _ h1 => .updLanes h1) h)

theorem OutInv.execTeamSave (h : s.Inv) : OutInv (execTeamSave t s) :=
  .happens h (.option .none fun _ => .ite .none
    (.some (.update (.foldl (fun _ _ h1 => .giveUp h1) (.updTeam (.foldl (fun _ _ h1 => .updCore h1) (.updTeamLanes (.bump (.haltAll h)))))))))

theorem State.Inv.restore (h : s.Inv) : (s.restore tk).Inv := by
  unfold State.restore
  extract_lets img s1 gks s2 counts s3 s4 s5 s6 thaw s7 s8
  have h1 : s1.Inv := .foldl (fun _ _ h0 => .clear_writeBytes h0) h
  have h3 : s3.Inv := .foldl (fun _ _ h2 => .updGroup h2) (.updTeamLanes h1)
  have h6 : s6.Inv := .foldl (fun _ _ h5 => .updTeam (.setGroup h5)) (.update (.updTeam h3))
  have h8 : s8.Inv := .startSlice (.update h6)
  exact .ite (.resumeTeam h8) (.updTeam h8)

theorem OptInv.restoreAll {ts : List Nat} {s : State} (h : s.Inv) : OptInv (restoreAll ts s) := by
  induction ts generalizing s with
  | nil => exact .some h
  | cons tk ts ih => exact .ite (ih (.restore h)) .none

theorem OutInv.execTeamRestore (h : s.Inv) : OutInv (execTeamRestore t s) :=
  .happens h (.ite .none (.option_eq .none fun _ e => .some (OptInv.restoreAll h _ e)))

theorem OutInv.execTimeSliceExpire (h : s.Inv) : OutInv (execTimeSliceExpire grid s) :=
  .happens h (.ite .none (.ite (.some (.updGrid h)) (.some (.foldl (fun _ _ h1 => .selectTeam h1) (.updGrid h)))))

theorem OutInv.execSpatialPreempt {cores : List Nat} (h : s.Inv) : OutInv (execSpatialPreempt cores s) :=
  .happens h (.ite .none (.ite (.some h) (.some (.update (.foldl (fun _ _ h1 => .dropSlice h1) h)))))

theorem State.Inv.redistribute (h : s.Inv) : (s.redistribute g).Inv := .foldl (fun _ _ h1 => .foldl (fun _ _ h2 => .updGrid h2) (.updGrid h1)) h

theorem OutInv.execSpatialWindowExpire (h : s.Inv) : OutInv (execSpatialWindowExpire s) :=
  .happens h (.ite .none (.some (.foldl (fun _ _ h1 => .redistribute h1) (.foldl (fun _ _ h1 => .selectTeam h1) h))))

/-! ## The debugger (Machine/Debugger) -/

theorem State.Inv.setDbg {f : Debug → Debug} (h : s.Inv) : (s.setDbg f).Inv := h

theorem State.Inv.dbgError {e : Nat} (h : s.Inv) : (s.dbgError e).Inv := .setDbg h

theorem OutInv.dbgStop {word : W64} (h : s.Inv) : OutInv (dbgStop scope word s) :=
  .happens h (.ite .none
    (.option (.ite (.option (.some (.dbgError h)) fun _ => .some (.dbgError (.traceStops (.stopOne h))))
    (.some (.dbgError (.traceStops (.stopScope h))))) fun _ => .some (.dbgError h)))

theorem State.Inv.stepsOver (h : s.Inv) : s.stepsOver.Inv := .option (.setDbg h) fun _ => .ite (.setDbg h) (.setDbg (.updLanes h))

theorem State.Inv.unstop {h : StopHold} (hs : s.Inv) : (s.unstop tk h).Inv := by
  refine .ite hs (.ite (.setTeam hs) ?_)
  extract_lets s1 s2 s3 s4
  have h2 : s2.Inv := .updGrid (.setTeam hs)
  have h4 : s4.Inv := .foldl (fun _ _ h1 => .updGroup h1) (.ite (.stepsOver h2) h2)
  exact .ite (.resumeTeam h4) h4

theorem State.Inv.lift (h : s.Inv) : (s.lift scope target).Inv := .foldl (fun _ _ h1 => .unstop h1) h

theorem State.Inv.liftIdle (h : s.Inv) : (s.liftIdle scope target).Inv := h

theorem OutInv.dbgResume {word : W64} (h : s.Inv) : OutInv (dbgResume scope word s) := by
  refine .happens h (.ite .none ?_)
  refine .option ?_ fun _ => .some (.dbgError h)
  extract_lets fw s1
  have h1 : s1.Inv := .dbgError (.ite h h)
  refine .ite ?_ (.ite (.some (.wakeLaunchers (.lift h1))) (.ite (.some (.liftIdle h1)) (.some (.dbgError h1))))
  refine .option (.some (.dbgError h1)) fun _ => ?_
  exact .ite (.some (.wakeLaunchers (.unstop h1))) (.some (.dbgError h1))

theorem State.Inv.disarm (h : s.Inv) : s.disarm.Inv := h

theorem OutInv.execDbgStep (h : s.Inv) : OutInv (execDbgStep n s) :=
  .happens h (.ite .none
    (.ite (.some (.dbgError h))
    (.option (.some (.dbgError h)) fun _ => .ite (.some (.dbgError h)) (.ite (.some (.dbgError h)) (.some (.setDbg (.updLanes (.stepsOver h))))))))

theorem OutInv.execBreakpointSet {half val : Nat} (h : s.Inv) : OutInv (execBreakpointSet k half val s) :=
  .happens h (.ite .none (.ite (.some (.setDbg h)) (.ite (.some (.dbgError h)) (.ite (.some (.dbgError h)) (.ite (.some (.dbgError h)) (.some (.setDbg
    h)))))))

theorem OutInv.execWatchpointSet {val : Nat} (h : s.Inv) : OutInv (execWatchpointSet k val s) :=
  .happens h (.ite .none (.ite (.some (.dbgError h)) (.ite (.some (.dbgError h)) (.ite (.some (.setDbg h)) (.ite (.some (.dbgError (.setDbg h)))
    (.some (.updCore (.setDbg h))))))))

theorem State.Inv.writeSample {x : Sample} (h : s.Inv) : (s.writeSample core port x).Inv := .trace (.updCore h)

theorem State.Inv.writeSamples (h : s.Inv) : s.writeSamples.Inv :=
  .ite h (.foldl (fun _ _ h1 => .foldl (fun _ _ h2 => .option h2 fun _ => .writeSample h2) h1) h)

theorem OutInv.execDbgDump {addr : Nat} (h : s.Inv) : OutInv (execDbgDump addr s) :=
  .ite (.next (.dbgError h)) (.option (.next (.dbgError h)) fun _ => .ite (.next (.setDbg h)) (.next (.dbgError h)))

theorem State.Inv.takeDump (h : s.Inv) : s.takeDump.Inv := .ite (.setDbg h) h

theorem OutInv.bark {path : Nat} (h : s.Inv) : OutInv (s.bark path x) := .happens h (.ite (.some h) .none)

/-! ## The owner and the links (Machine/Links) -/

theorem State.Inv.look (h : s.Inv) : (s.look r).2.Inv := .translate h

theorem State.Inv.changeAt {fn : Nat → Nat} (h : s.Inv) : (s.changeAt r n fn).2.Inv :=
  .except_snd (fun _ => .translate h) fun _ => .ite_snd (.updHealth (.translate h)) (.writeBytes (.translate h))

theorem State.Inv.signalFor {fn : Nat → Nat} (h : s.Inv) : (s.signalFor r fn).2.Inv := .option_snd (.signalAt h) fun _ => .signalAt h

theorem State.Inv.serveReq {s : State} {r : OwnerReq} {x : Option (Except Nat (List Byte)) × State} (h : s.Inv) (e : s.serveReq r = some x) :
    x.2.Inv := by
  have key : Yields Prod.snd (s.serveReq r) := by
    unfold State.serveReq
    dsimp only
    cases r.act with
    | read _ => exact .some (.except_snd (fun _ => .serve h) fun _ => .ite_snd (.serve h) (.serve h))
    | write _ => exact .some (.serve h)
    | fadd _ => exact .some (.changeAt h)
    | add _ => exact .some (.signalFor h)
    | set _ => exact .some (.signalFor h)
    | wait _ => exact .except (fun _ => .some (.look h)) fun _ => .ite (.some (.look h)) (.some (.update (.look h)))
    | coll _ _ => exact .map fun _ hy => .farColl h hy
    | ccan => exact .some (.farEnd h)
    | cabandon _ => exact .some (.farEnd h)
    | cstat => exact .some h
    | probe => exact .some (.except_snd (fun _ => .look h) fun _ => .look h)
    | register _ => exact .some h
    | unregister _ => exact .some h
  exact key x e

theorem OutInv.execOwnerTranslate (h : s.Inv) : OutInv (execOwnerTranslate r s) :=
  .happens h (.ite .none (.map fun _ e => .option (.serveReq h e) fun _ =>
    .except (fun _ => .answerTo (.serveReq h e)) fun _ => .answerTo (.serveReq h e)))

theorem State.Inv.purgeLeaf (h : s.Inv) : (s.purgeLeaf owner part off page entry).Inv := .update (.bump h)

theorem OutInv.execPageUnmap {pte : W64} (h : s.Inv) : OutInv (execPageUnmap die part off pte s) :=
  .happens h (.ite .none (.except (fun _ => .none) fun _ => .ite .none (.some (.purgeLeaf (.writeBytes h)))))

theorem State.Inv.discardReplicas {on : Nat → Bool} {span : Nat} (h : s.Inv) : (s.discardReplicas on part page span).Inv := h

theorem State.Inv.askAfresh {span : Nat} (h : s.Inv) : (s.askAfresh part page span).Inv :=
  .foldl (fun _ _ h1 => .ite h1 (.foldl (fun _ _ h2 => .ite (.updCmd (.answered h2)) h2) h1)) h

theorem OutInv.execPurge {src : PurgeSource} {receiver : Nat} (h : s.Inv) : OutInv (execPurge src receiver s) := by
  refine .happens h ?_
  cases src with
  | own _ => exact .option .none fun _ => .ite .none (.ite (.map fun _ _ => .sendPacket h) (.some (.discardReplicas h)))
  | far _ _ _ _ _ => exact .ite .none (.some (.sendPacket (.askAfresh (.discardReplicas h))))

theorem OutInv.execPurgeComplete {id : Nat} (h : s.Inv) : OutInv (execPurgeComplete id s) :=
  .happens h (.option .none fun _ => .ite .none (.some (.update (.writeBytes h))))

theorem State.Inv.control {type : Nat} {beats : List Nat} (h : s.Inv) : (s.control link type beats).Inv := .ite (.onWire h) h

theorem State.Inv.askReplay (h : s.Inv) : (s.askReplay link).Inv := .control (.setLink h)

theorem State.Inv.takeData {flit : List Byte} (h : s.Inv) : (s.takeData link flit).Inv :=
  .ite (.ite (.control (.setLink h)) (.askReplay (.setLink h))) (.ite (.ite (.setLink h) (.askReplay (.setLink h))) (.control h))

theorem OutInv.execFlitReceive {flit : List Byte} (h : s.Inv) : OutInv (execFlitReceive link flit s) :=
  .happens h (.ite .none
    (.ite (.some (.ite (.askReplay (.updHealth h)) (.updHealth h))) (.some (.pump (.ite (.takeData (.setLink h)) (.setLink h))))))

theorem OutInv.execLinkRetrainComplete {lane : Option Nat} (h : s.Inv) : OutInv (execLinkRetrainComplete link lane s) :=
  .happens h (.ite .none (.option (.some (.pump (.setLink h))) fun _ => .some (.pump (.updHealth (.update (.setLink h))))))

/-! ## Boot, registers, errors and migration (Machine/Boot) -/

theorem State.Inv.afterReset {s : State} (h : s.Inv) : s.afterReset.Inv := Memory.filter_wfFrom h _

theorem State.Inv.endOn {pick : Nat → Group → Bool} (h : s.Inv) : (s.endOn pick).Inv := .foldl (fun _ _ h1 => .beginEnd h1) h

theorem State.Inv.moveTasks (h : s.Inv) : (s.moveTasks core).Inv := .option h fun _ => .foldl (fun _ _ h1 => .updGrid (.dqPush h1)) (.dqSet h)

theorem State.Inv.retireUnit {u : UnitId} (h : s.Inv) : (s.retireUnit u).Inv := by
  cases u with
  | core _ => exact .moveTasks (.endOn (.updCore (.updHealth h)))
  | port _ _ => exact .endOn (.updCore (.updHealth h))
  | bank _ _ => exact .updCore (.updHealth h)
  | channel _ _ => exact .updHealth (.updHealth h)
  | lane _ _ => exact .setLink (.updHealth h)

theorem State.Inv.retireBanks (h : s.Inv) : s.retireBanks.Inv := .foldl (fun _ _ h1 => .foldl (fun _ _ h2 => .ite h2 (.retireUnit h2)) h1) h

theorem State.Inv.failUnit {u : UnitId} (h : s.Inv) : (s.failUnit u).Inv := by
  cases u with
  | bank _ _ => exact .ite h (.retireBanks (.updCore h))
  | channel _ _ => exact .ite h (.updHealth h)
  | core _ => exact .retireUnit h
  | port _ _ => exact .retireUnit h
  | lane _ _ => exact .retireUnit h

theorem OutInv.execPowerOn {b : BootIn} {s : State} (h : s.Inv) : OutInv (execPowerOn b s) :=
  .happens h (.ite .none
    (.ite (.some h) (.ite (.some h)
    (.ite (.some h) (.ite (.some h)
    (.ite (.some h) (.some (Memory.filter_wfFrom (State.Inv.foldl (fun _ _ h1 => .retireUnit h1) (State.Inv.update h)) _))))))))

theorem State.Inv.bootOn (h : s.Inv) : s.bootOn.Inv := .ite h h

theorem State.Inv.heated {temp : Nat} (h : s.Inv) : (s.heated die temp).Inv := .update (.updHealth h)

theorem State.Inv.shutDown {temp : Nat} (h : s.Inv) : (s.shutDown die temp).Inv := .update (.afterReset h)

theorem State.Inv.junction {temp : Nat} (h : s.Inv) : (s.junction die temp).Inv := .ite (.shutDown h) (.ite (.heated h) (.updHealth h))

theorem State.Inv.setFw {f : Firmware → Firmware} (h : s.Inv) : (s.setFw f).Inv := h

theorem OutInv.execFwStageComplete {readOk : Bool} (h : s.Inv) : OutInv (execFwStageComplete readOk s) :=
  .happens h (.ite .none (.ite (.some (.setFw h)) (.ite (.some (.setFw h)) (.ite (.some (.setFw h)) (.some (.setFw (.clear_writeBytes h)))))))

theorem State.Inv.answer (h : s.Inv) : (s.answer off x).Inv := h

theorem OutInv.execGtsRead {half : Nat} (h : s.Inv) : OutInv (execGtsRead half s) := by
  match half with
  | 0 => exact .next (.answer h)
  | 1 => exact .next (.answer h)
  | _ + 2 => exact .next (.answer h)

theorem State.Inv.writeFeed {f v : Nat} (h : s.Inv) : (s.writeFeed f off v).Inv := .ite h (.updFeed h)

theorem State.Inv.writeRing {d v : Nat} (h : s.Inv) : (s.writeRing d off v).Inv := .ite h (.setDbg h)

theorem State.Inv.write32 {v : Nat} (h : s.Inv) : (s.write32 off v).Inv :=
  .ite (.ite (.setFw h) h) (.ite (.ite (.setFw h) h) (.ite (.ite (.setFw h) h) (.ite (.writeFeed h) (.ite (.setDbg h) (.ite (.setDbg h) (.ite (.setDbg
    h) (.ite (.setDbg h) (.ite (.writeRing h) h))))))))

theorem OutInv.execCommandLinkCommand {leaf : Nat} {down take : Bool} {cmd : List Byte} (h : s.Inv) :
    OutInv (execCommandLinkCommand leaf down take cmd s) := .happens h (.ite .none (.ite (.list .none fun _ _ => .some h) (.ite .none (.some h))))

theorem State.Inv.countEcc {u : UnitId} (h : s.Inv) : (s.countEcc u).Inv := .ite (.failUnit h) h

theorem OutInv.execEccCorrected {u : EccAt} (h : s.Inv) : OutInv (execEccCorrected u s) :=
  .next (.option (.updHealth h) fun _ => .countEcc (.updHealth h))

theorem State.Inv.dataTrap {detail : Nat} (h : s.Inv) : (s.dataTrap lk detail).Inv := .takeTrap h

theorem State.Inv.eccFault (h : s.Inv) : (s.eccFault cmd ord).Inv :=
  .getD (.option .none fun _ => .ite (.signalGo h) (.ite (.collGo h) (.engineGo h))) h

theorem State.Inv.eccRequest {s : State} {r : OwnerReq} {walk : Bool} (h : s.Inv) : (s.eccRequest r walk).Inv :=
  .ite h (.ite (.answerTo h) (.except (fun _ => h) fun _ => .answerTo (.look h)))

theorem OutInv.execEccUncorrectable {u : EccAt} (h : s.Inv) : OutInv (execEccUncorrectable u s) := by
  unfold Machine.execEccUncorrectable
  dsimp only
  cases eccReader u with
  | nobody => exact .next (.option (.updHealth h) fun _ => .failUnit (.updHealth h))
  | lane _ => exact .next (.option (.dataTrap (.updHealth h)) fun _ => .failUnit (.dataTrap (.updHealth h)))
  | engine _ _ => exact .next (.option (.eccFault (.updHealth h)) fun _ => .failUnit (.eccFault (.updHealth h)))
  | request _ _ => exact .next (.option (.eccRequest (.updHealth h)) fun _ => .failUnit (.eccRequest (.updHealth h)))

theorem State.Inv.copyFrame {src : Nat} (h : s.Inv) : (s.copyFrame die src dst page).Inv := .copyRange h

theorem State.Inv.writeFrame {frame : Nat} {valid : Bool} (h : s.Inv) : (s.writeFrame entry frame valid).Inv := .writeBytes h

theorem State.Inv.beginMove {f : Frame64} (h : s.Inv) : (s.beginMove part f entry dst).Inv := .update (.purgeLeaf (.writeFrame h))

theorem State.Inv.endMove {m : Move} (h : s.Inv) : (s.endMove m).Inv := .foldl (fun _ _ h1 => .future h1) (.update (.writeFrame (.copyFrame h)))

theorem State.Inv.moveFrame {f : Frame64} (h : s.Inv) : (s.moveFrame part f dst).Inv :=
  .option (.update (.copyFrame h)) fun _ => .ite (.purgeLeaf (.writeFrame (.copyFrame h))) (.update (.writeFrame (.copyFrame h)))

theorem State.Inv.takeFrame {f : Frame64} (h : s.Inv) : (s.takeFrame part f dst).Inv :=
  .option (.moveFrame h) fun _ => .ite (.beginMove h) (.moveFrame h)

theorem OutInv.execChannelMigrate {chan : Nat} (h : s.Inv) : OutInv (execChannelMigrate die chan s) :=
  .happens h (.ite .none (.option (.option (.some (.retireUnit h)) fun _ => .map (fun _ _ => .takeFrame h)) fun _ => .ite (.some (.endMove h)) .none))

/-! ## Digit transducers (Machine/Transducer) -/

theorem State.Inv.stepWord {f : XF} {row : XRow} {regs : Nat} (h : s.Inv) : (stepWord f row regs c s).2.Inv := .readSlot (.readSlot h)

theorem State.Inv.stepEff {f : XF} {row : XRow} {regs : Nat} (h : s.Inv) : (stepEff f row regs c s).Inv :=
  .except (fun _ => .stepWord h) fun _ => .ite (.updLane (.stepWord h)) (.writeOp (.updLane (.stepWord h)))

theorem State.Inv.xrstEff {f : XF} (h : s.Inv) : (xrstEff f c s).Inv := .updLane h

theorem State.Inv.xfinEff {f : XF} (h : s.Inv) : (xfinEff f c s).Inv := .writeOp (.updLane h)

theorem State.Inv.xcmpEff {f : XF} (h : s.Inv) : (xcmpEff f c s).Inv := .updLane h

theorem State.Inv.xstrEff {f : XF} (h : s.Inv) : (xstrEff f c s).Inv := .writeOp h

theorem State.Inv.xstwEff {f : XF} (h : s.Inv) : (xstwEff f c s).Inv := .updLane (.readOp h)

theorem State.Inv.xlenEff {f : XF} (h : s.Inv) : (xlenEff f c s).Inv := .writeOp (.readOp h)

theorem State.Inv.xqryEff {f : XF} (h : s.Inv) : (xqryEff f c s).Inv := .writeOp h

theorem State.Inv.xtldEff {f : XF} (h : s.Inv) : (xtldEff f c s).Inv := .leave (.foldl (fun _ _ h1 => .leave h1) (.updLane h))

theorem State.Inv.xtrlEff {f : XF} (h : s.Inv) : (xtrlEff f c s).Inv := .leave h

theorem State.Inv.setContext {ci xc : Nat} {x : Context} (h : s.Inv) : (s.setContext tk ci xc x).Inv := .updTeam h

theorem State.Inv.emptyContexts {xc : Nat} (h : s.Inv) : (s.emptyContexts tk xc).Inv := .foldl (fun _ _ h1 => .setContext h1) h

theorem State.Inv.endContexts (h : s.Inv) : (s.endContexts st).Inv :=
  .foldl (fun _ _ h1 => .option h1 fun _ => .ite (.bump (.updGroup (.setContext h1))) (.foldl (fun _ _ h2 => .updLane h2) (.emptyContexts h1))) h

theorem State.Inv.watchImage {img : Nat} (h : s.Inv) : (s.watchImage gk o img n).Inv := .foldl (fun _ _ h1 => .watchLane h1) h

theorem OutInv.execXtldComplete {op : Nat} (h : s.Inv) : OutInv (execXtldComplete gk op core s) := by
  refine .happens h (.option .none fun o => ?_)
  dsimp only
  cases o.kind with
  | xtld _ _ _ _ _ _ =>
    refine .ite .none (.ite (.some (.setContext h)) (.ite (.some (.dropOp (.setContext ?_))) (.some (.updGroup (.setContext ?_))))) <;>
      exact .ite h (.watchImage h)
  | _ => exact .none

/-! ## Issue steps (Machine/Issue) -/

theorem State.Inv.fetchClause (h : s.Inv) : (s.fetchClause gk off).2.Inv := by
  refine .ite_snd h ?_
  split
  · rename_i e
    exact .snd_of_eq (State.Inv.readVaFrom h) e
  · rename_i t1 e1
    have ht1 : t1.Inv := .snd_of_eq (State.Inv.readVaFrom h) e1
    refine .ite_snd ht1 ?_
    split <;>
      · rename_i e
        exact .snd_of_eq (State.Inv.readVaFrom ht1) e

theorem State.Inv.enterClause {c : Clause} (h : s.Inv) : (s.enterClause lk c).Inv := .ite (.updLane h) (.updLane h)

theorem State.Inv.useCache {c : Clause} (h : s.Inv) : (s.useCache gk c).Inv := .updCore h

theorem State.Inv.enterCached (h : s.Inv) : (s.enterCached gk).Inv :=
  .foldl (fun _ _ h1 => .ite (.option h1 fun _ => .enterClause (.useCache h1)) h1) h

theorem OutInv.execClauseFetchComplete {gk lane : Nat} {s : State} (h : s.Inv) : OutInv (execClauseFetchComplete gk lane s) := by
  refine .happens h (.ite .none ?_)
  cases s.cached gk (s.lane (laneKey gk lane)).pc.toNat with
  | some _ => exact .some (.enterClause (.useCache h))
  | none =>
    rcases e : s.fetchClause gk (s.lane (laneKey gk lane)).pc.toNat with ⟨_ | _, t⟩
    · exact .none
    · have ht := State.Inv.snd_of_eq (State.Inv.fetchClause h) e
      exact .some (.enterClause (.ite (.useCache (.updGroup ht)) (.updGroup ht)))

theorem State.Inv.refreshGroup (h : s.Inv) : (s.refreshGroup gk).Inv := .checkWaits (.updateBarriers (.enterCached h))

theorem State.Inv.refresh (h : s.Inv) : (s.refresh core port).Inv := .wakeLaunchers (.foldl (fun _ _ h1 => .refreshGroup h1) h)

theorem State.Inv.takeBreak {b : Breakpoint} (h : s.Inv) : (s.takeBreak gk k b ps).Inv :=
  .ite (.updTeam (.takeStop (.takeTrap h))) (.takeStop (.takeTrap h))

theorem State.Inv.sample {mask : BitVec 32} {cls tag : Nat} {idle : Bool} (h : s.Inv) : (s.sample gk mask cls tag idle).Inv := .updCore h

theorem State.Inv.stepTaken (h : s.Inv) : (s.stepTaken gk).Inv := by
  refine .ite ?_ h
  extract_lets s1
  have h1 : s1.Inv := .ite (.foldl (fun _ _ h0 => .updLanes h0) (.setDbg h)) h
  exact .ite (.setDbg (.stepsOver h1)) (.setDbg h1)

theorem State.Inv.countPerf (h : s.Inv) : (s.countPerf gk k n).Inv := .updGroup h

theorem State.Inv.takeBadClause (h : s.Inv) : (s.takeBadClause gk ps).Inv := .sample (.takeTrap (.foldl (fun _ _ h1 => .updLane h1) h))

theorem State.Inv.issueClass {cls : Nat} {ready : List (Nat × Nat)} (h : s.Inv) : (s.issueClass gk cls ready).Inv :=
  .option (.option (.setTurn (.bump (.sample h))) fun _ => .sample (.brkStop (.takeTrap (.countPerf h)))) fun _ => .sample (.takeBreak (.countPerf h))

theorem State.Inv.serveGroup {slot : Nat} (h : s.Inv) : (s.serveGroup core port slot gk).Inv :=
  .ite (.stepTaken (.takeBadClause (.countPerf (.updGroup (.updCore h)))))
    (.option (.updGroup (.updCore h)) fun _ => .stepTaken (.issueClass (.updGroup (.updCore h))))

theorem State.Inv.noteWhy (h : s.Inv) : s.noteWhy.Inv := .option h fun _ => .ite (.setDbg h) h

theorem OutInv.execIssueOpportunity (h : s.Inv) : OutInv (execIssueOpportunity core port s) :=
  .happens h (.ite .none (.option (.ite .none (.some (.noteWhy (.refresh h)))) fun _ => .some (.serveGroup (.noteWhy (.refresh h)))))

theorem State.Inv.applyPend {p : Pend} (h : s.Inv) : (s.applyPend gk p).Inv :=
  .literal (.configure h) (.literal (.setBarrier h) (.literal (.updTeam h) h))

theorem State.Inv.traceMark {op kind : Nat} (h : s.Inv) : (s.traceMark st op kind).Inv := .option h fun _ => .trace h

theorem State.Inv.applyPends (h : s.Inv) : (s.applyPends st).Inv :=
  .traceMark (.traceMark (.wakeLaunchers (.foldl (fun _ _ h1 => .closeWindowsOf h1) (.endPctx (.endPswr (.endWpset (.endContexts (.foldl (fun _ _ h1
    => .applyPend h1) h))))))))

theorem State.Inv.countStep (h : s.Inv) : (s.countStep st).Inv := .updCore (.updGroup (.countPerf (.countPerf (.countPerf h))))

theorem State.Inv.endHandler {mode : Nat} (h : s.Inv) : (s.endHandler gk mode).Inv := .setTurn (.ite (.beginEnd h) (.leaveHandler h))

theorem State.Inv.endIssueStep (h : s.Inv) : (endIssueStep st s).Inv :=
  .option (.enterCached
    (.checkWaits (.pruneFences (.updateBarriers (.endSeals (.endRendezvous (.setTurn (.applyPends (.updGroup (.countStep h)))))))))) fun _ =>
    .endHandler (.setTurn (.applyPends (.updGroup (.countStep h))))

theorem State.Inv.haltOverdue (h : s.Inv) : s.haltOverdue.Inv := .foldl (fun _ _ h1 => .foldl (fun _ _ h2 => .ite (.receiveHalt h2) h2) h1) h

theorem State.Inv.windowsOverdue (h : s.Inv) : s.windowsOverdue.Inv := .foldl (fun _ _ h1 => .closeWindow h1) h

theorem State.Inv.countTime (h : s.Inv) : s.countTime.Inv := .foldl (fun _ _ h1 => .updGrid h1) h

theorem State.Inv.selfActs (h : s.Inv) : s.selfActs.Inv := .freshenHealth (.retireBanks (.takeDump (.bootOn (.windowsOverdue (.haltOverdue h)))))

theorem State.Inv.enterAll (h : s.Inv) : s.enterAll.Inv := .foldl (fun _ _ h1 => .enterCached h1) h

theorem State.Inv.tick1 (h : s.Inv) : s.tick1.Inv := .selfActs (.update (.countTime (.writeSamples (.enterAll h))))

theorem State.Inv.tick {n : Nat} {s : State} (h : s.Inv) : (State.tick n s).Inv := by
  induction n generalizing s with
  | zero => exact h
  | succ n ih => exact ih (.tick1 h)

/-! ## The agent between steps (Machine/Agent) -/

theorem State.Inv.streamLost (h : s.Inv) : (s.streamLost tk).Inv := .streamTrap (.setTurn h)

theorem State.Inv.streamIllegal (h : s.Inv) : (s.streamIllegal tk).Inv := .streamTrap (.setTurn h)

theorem State.Inv.postService {d : BitVec 512} (h : s.Inv) : (s.postService d).Inv :=
  .ite h (.literal (.some_or (fun _ => .dispatch (.setGrid (.bump (.lookedUp h)))) (.reject (.setGrid (.bump (.lookedUp h)))))
    (.reject (.setGrid (.bump (.lookedUp h)))))

theorem State.Inv.outsideWrite (h : s.Inv) : (s.outsideWrite a bs).Inv := .ite (.answerTo (.updHealth h)) (.writeBytes h)

theorem State.Inv.setRoot {t : Option Nat} (h : s.Inv) : (s.setRoot owner part t).Inv := .ite h h

theorem State.Inv.runEntry {x : Sched} (h : s.Inv) : (s.runEntry x).Inv := by
  cases x with
  | ev _ => exact h
  | seq _ => exact .ite (.setTurn h) h
  | tick _ => exact .tick h
  | memWrite _ _ => exact .outsideWrite h
  | root _ _ _ => exact .setRoot h
  | service _ => exact .postService h

theorem State.Inv.undecodedTrap {x : StepLane} {e : DecodeError} (h : s.Inv) : (s.undecodedTrap st x e).Inv := .takeTrap h

/-! ## Late results (Machine/Divide) -/

theorem State.Inv.lateRRR {f : RRR} {divider : Bool} {fn : Fn} (h : s.Inv) : (lateRRR row f divider fn c s).Inv := .addOp (.readRRR h)

theorem State.Inv.landValue {writes : List (Nat × W32)} {flags : BitVec 9} (h : s.Inv) : (s.landValue gk o writes flags).Inv := .dropOp (.landRegs h)

theorem OutInv.execDivideComplete {op : Nat} (h : s.Inv) : OutInv (execDivideComplete gk op s) := by
  refine .happens h (.option .none fun o => ?_)
  dsimp only
  cases o.kind with
  | value _ _ divider =>
    cases divider with
    | true => exact .some (.landValue h)
    | false => exact .none
  | _ => exact .none

/-! ## Floating-point points (Machine/Floating) -/

theorem State.Inv.fcmp2Eff {F : Fmt} {f : RRR} (h : s.Inv) : (fcmp2Eff F row f c s).Inv := .updLane (.readRRR h)

theorem OutInv.execFspcComplete {op : Nat} (h : s.Inv) : OutInv (execFspcComplete gk op s) := by
  refine .happens h (.option .none fun o => ?_)
  dsimp only
  cases o.kind with
  | value _ _ divider =>
    cases divider with
    | true => exact .none
    | false => exact .some (.landValue h)
  | _ => exact .none

/-! ## The instructions (Machine/Dispatch) -/

-- The arms of `exec` have no match of their own, and reach their points faster with smart unfolding.
set_option smartUnfolding true in
/-- THE MEANINGS OF THE INSTRUCTIONS: every word through its point, every event through the operations that it calls. -/
theorem OutInv.exec {i : Instr} (h : s.Inv) : OutInv (exec i s) := by
  cases i with
  | powerOn _ => exact .execPowerOn h
  | coldReset => exact .next (.afterReset h)
  | thermalAlarm _ _ => exact .happens h (.ite .none (.some (.heated h)))
  | thermalShutdown _ _ => exact .happens h (.ite .none (.some (.shutDown h)))
  | fwStage => exact .next (.ite h (.ite (.setFw h) h))
  | fwStageComplete _ => exact .execFwStageComplete h
  | fwCommit | fwDiscard => exact .next (.ite (.setFw h) h)
  | fwCommitPoint | attestationQuote => exact .happens h (.ite .none (.some (.setFw h)))
  | gtsRead _ => exact .execGtsRead h
  | registerWrite _ _ _ => exact .happens h (.ite .none (.some (.ite (.write32 (.write32 h)) (.write32 h))))
  | feedEnable _ _ => exact .happens h (.ite .none (.ite (.some h) (.some (.updFeed h))))
  | feedDisable _ => exact .ite (.next h) (.next (.updFeed h))
  | feedTailWrite _ _ _ => exact .ite (.next h) (.ite (.next h) (.ite (.next (.updFeed h)) (.next (.updFeed h))))
  | feedTailRead _ => exact .next (.answer h)
  | feedRestart _ => exact .next (.ite (.updFeed h) h)
  | feedEntryDispatch _ => exact .execFeedEntryDispatch h
  | workRecordAppend _ => exact .execWorkRecordAppend h
  | commandLinkCommand _ _ _ _ => exact .execCommandLinkCommand h
  | teamPlace _ _ => exact .happens h (.ite .none (.startOn h))
  | clusterSteal _ _ => exact .execClusterSteal h
  | dieSteal _ _ => exact .execDieSteal h
  | grantServe _ => exact .happens h (.map (fun _ _ => .serveGrant h))
  | windowTimeout _ => exact .execWindowTimeout h
  | taskRun _ => exact .execTaskRun h
  | taskSteal _ => exact .execTaskSteal h
  | messageArrive _ => exact .execMessageArrive h
  | handlerRun _ => exact .execHandlerRun h
  | messageRetry _ => exact .execMessageRetry h
  | chuteRemotePushArrive _ _ => exact .execChuteRemotePushArrive h
  | chuteFreeNotice _ _ => exact .execChuteFreeNotice h
  | chuteForward _ _ => exact .execChuteForward h
  | chutePopNotice _ _ => exact .execChutePopNotice h
  | chuteWithdraw _ _ => exact .execChuteWithdraw h
  | chuteCloseNotice _ _ => exact .execChuteCloseNotice h
  | clauseFetchComplete _ _ => exact .execClauseFetchComplete h
  | issueOpportunity _ _ => exact .execIssueOpportunity h
  | parkExpire _ _ => exact .execParkExpire h
  | yieldExpire _ _ => exact .execYieldExpire h
  | divideComplete _ _ => exact .execDivideComplete h
  | fspcComplete _ _ => exact .execFspcComplete h
  | memsComplete _ _ => exact .execMemsComplete h
  | waitsWake _ _ => exact .execWaitsWake h
  | xtldComplete _ _ _ => exact .execXtldComplete h
  | fenceiComplete _ _ => exact .execFenceiComplete h
  | sealComplete _ _ => exact .execSealComplete h
  | engineRequestResponse _ _ _ => exact .execEngineRequestResponse h
  | signalUpdate _ _ => exact .happens h (.signalGo h)
  | collContribution _ _ => exact .happens h (.collGo h)
  | ownerTranslate _ => exact .execOwnerTranslate h
  | requestTimeout _ _ => exact .execRequestTimeout h
  | pageUnmap _ _ _ _ => exact .execPageUnmap h
  | purge _ _ => exact .execPurge h
  | purgeComplete _ => exact .execPurgeComplete h
  | flitReceive _ _ => exact .execFlitReceive h
  | replayRequest _ _ => exact .happens h (.ite .none (.ite (.some (.setLink h)) (.some (.pump (.setLink h)))))
  | linkDown _ => exact .happens h (.ite (.some (.setLink h)) .none)
  | haltReceive _ => exact .happens h (.ite (.some (.receiveHalt h)) .none)
  | handlerStart _ => exact .execHandlerStart h
  | launchEnd _ => exact .execLaunchEnd h
  | teamSave _ => exact .execTeamSave h
  | pageMapped _ _ => exact .happens h (.ite .none (.some (.future h)))
  | teamRestore _ => exact .execTeamRestore h
  | timeSliceExpire _ => exact .execTimeSliceExpire h
  | spatialPreempt _ => exact .execSpatialPreempt h
  | spatialWindowExpire => exact .execSpatialWindowExpire h
  | groupRetire _ => exact .execGroupRetire h
  | launchComplete _ => exact .execLaunchComplete h
  | reportRingControl _ _ _ => exact .happens h (.ite .none (.some h))
  | dbgAttachWrite _ => exact .next (.setDbg (.ite (.disarm h) h))
  | dbgStopTeam _ | dbgStopCluster _ | dbgStopDie _ | dbgStopDevice _ => exact .dbgStop h
  | dbgResumeTeam _ | dbgResumeCluster _ | dbgResumeDie _ | dbgResumeDevice _ => exact .dbgResume h
  | dbgStep _ => exact .execDbgStep h
  | dbgStepCancel => exact .ite (.next (.dbgError h)) (.next (.stepsOver h))
  | dbgDump _ => exact .execDbgDump h
  | dumpComplete _ => exact .happens h (.ite .none (.some (.setDbg (.ite (.writeBytes h) h))))
  | breakpointSet _ _ _ => exact .execBreakpointSet h
  | watchpointSet _ _ => exact .execWatchpointSet h
  | dbgTrcWrite _ => exact .next (.setDbg h)
  | traceSample _ _ => exact .happens h (.map (fun _ _ => .writeSample h))
  | roceRequestWhileHalted _ | nvmeofKeepAlive _ | mailboxWhileHalted _ => exact .bark h
  | eccCorrected _ => exact .execEccCorrected h
  | eccUncorrectable _ => exact .execEccUncorrectable h
  | channelMigrate _ _ => exact .execChannelMigrate h
  | scrub | partReportedAbsent _ => exact .next h
  | healthRecordUpdate _ => exact .happens h (.ite .none (.some (.junction h)))
  | nop _ | trap _ => exact .laneWord (fun _ _ h => h) h
  | bra _ => exact .laneWord (fun _ _ h => .jumpTo h) h
  | brp _ => exact .laneWord (fun _ _ h => .brpEff h) h
  | brrZ _ | brrNz _ | brrLt _ | brrGe _ => exact .laneWord (fun _ _ h => .brrEff h) h
  | loop _ => exact .laneWord (.plain fun _ _ h => .loopEff h) h
  | call _ => exact .laneWord (fun _ _ h => .callEff h) h
  | calli _ => exact .laneWord (fun _ _ h => .calliEff h) h
  | ret _ => exact .laneWord (fun _ _ h => .retEff h) h
  | jmpi _ => exact .laneWord (fun _ _ h => .jmpiEff h) h
  | brt _ => exact .laneWord (fun _ _ h => .brtEff h) h
  | exit _ => exact .laneWord (fun _ _ h => .exitEff h) h
  | park _ => exact .laneWord (fun _ _ h => .parkEff h) h
  | yield _ => exact .laneWord (fun _ _ h => .yieldEff h) h
  | add _ | sub _ | neg _ | abs _ | minS _ | minN _ | maxS _ | maxN _ | and _ | or _ | xor _ | andn _ | not _ | shl _ | shr _ | sar _
  | rol _ | clz _ | popc _ | brev _ | sel _ | mov _ | iset _ | add64 _ | sub64 _ | mul _ | mulhS _ | mulhN _ | mad _ | madhS _ | madhN _
  | mul64S _ | mul64N _ | mad64S _ | mad64N _ | dot4Ss _ | dot4Nn _ | dot4Sn _ | dot2 _ | bfxS _ | bfxN _ | bfi _ | prmb _ | unpk3 _
  | pack3 _ | satnS _ | satnN _ | pk16 _ | upk8S _ | upk8N _ | upk4S _ | upk4N _ | pkb _ | msk _ | faddF32 _ | faddF16x2 _ | faddBf16x2 _
  | fsubF32 _ | fsubF16x2 _ | fsubBf16x2 _ | fmulF32 _ | fmulF16x2 _ | fmulBf16x2 _ | fmaF32 _ | fmaF16x2 _ | fmaBf16x2 _ | fminF32 _
  | fminF16x2 _ | fminBf16x2 _ | fmaxF32 _ | fmaxF16x2 _ | fmaxBf16x2 _ | fsetF32 _ | fsetF16x2 _ | fsetBf16x2 _ | fclsF32 _ | fclsF16x2 _
  | fclsBf16x2 _ | fsel _ | fdot2F16 _ | fdot2Bf16 _ | fscl _ | ffrc _ => exact .laneWord (fun _ _ h => .computeRRR h) h
  | addc _ | subb _ => exact .laneWord (fun _ _ h => .computeBoth h) h
  | movi _ | lea _ => exact .laneWord (fun _ _ h => .riEff h) h
  | cmpS _ | cmpN _ | fcmpF32 _ => exact .laneWord (fun _ _ h => .computePred h) h
  | plog _ => exact .laneWord (fun _ _ h => .plogEff h) h
  | divS _ | divN _ | remS _ | remN _ | divrS _ | divrN _ | div64S _ | div64N _ | fdivF32 _ | fdivF16 _ | fsqrtF32 _ | fsqrtF16 _ | frcp _
  | frsq _ | fexp2 _ | flog2 _ | fsin _ | fcos _ | frndF32 _ | frndF16x2 _ | frndBf16x2 _ | cvtF32S32 _ | cvtF32N32 _ | cvtS32F32 _
  | cvtN32F32 _ | cvtF16F32 _ | cvtF32F16 _ | cvtBf16F32 _ | cvtF32Bf16 _ | cvtF16x2F32 _ | cvtBf16x2F32 _ | cvtF32S64 _ | cvtS64F32 _
  | cvtF16Bf16 _ | cvtBf16F16 _ | cvtF16S32 _ => exact .laneWord (fun _ _ h => .lateRRR h) h
  | tacc _ => exact .laneWord (fun _ _ h => .taccEff h) h
  | fcmpF16x2 _ | fcmpBf16x2 _ => exact .laneWord (fun _ _ h => .fcmp2Eff h) h
  | xtld _ => exact .laneWord (fun _ _ h => .xtldEff h) h
  | xtrl _ => exact .laneWord (fun _ _ h => .xtrlEff h) h
  | xrst _ => exact .laneWord (fun _ _ h => .xrstEff h) h
  | xdg _ | xdg2 _ | xdu _ => exact .laneWord (fun _ _ h => .stepEff h) h
  | xfin _ => exact .laneWord (fun _ _ h => .xfinEff h) h
  | xcmp _ => exact .laneWord (fun _ _ h => .xcmpEff h) h
  | xstr _ => exact .laneWord (fun _ _ h => .xstrEff h) h
  | xstw _ => exact .laneWord (fun _ _ h => .xstwEff h) h
  | xlen _ => exact .laneWord (fun _ _ h => .xlenEff h) h
  | xqry _ => exact .laneWord (fun _ _ h => .xqryEff h) h
  | gsumI32 _ | gsumF32 _ | gsumS64 _ | gminS _ | gminN _ | gminF _ | gmaxS _ | gmaxN _ | gmaxF _ | gand _ | gor _ | gxor _ | gscanI32Inc _
  | gscanI32Exc _ | gscanF32Inc _ | gscanF32Exc _ | gsegI32 _ | gsegF32 _ | gbcast _ | gshuf _ | gshufx _ | gvote _ | gcnt _ | gelect _
  | grank _ | gsync _ | grow _ | shrink _ => exact .laneWord (fun _ _ h => .arriveEff h) h
  | ld8s _ | ld8n _ | ld16s _ | ld16n _ | ld32 _ | ld64 _ | ld128 _ => exact .laneWord (fun _ _ h => .loadEff (.accessM h)) h
  | st8 _ | st16 _ | st32 _ | st64 _ | st128 _ => exact .laneWord (fun _ _ h => .storeEff (.accessM h)) h
  | atom _ | atom64 _ | red _ | red64 _ => exact .laneWord (fun _ _ h => .atomEff h) h
  | cas _ | cas64 _ => exact .laneWord (fun _ _ h => .casEff h) h
  | ldsp _ => exact .laneWord (fun _ _ h => .loadEff (.accessSpill h)) h
  | stsp _ => exact .laneWord (fun _ _ h => .storeEff (.accessSpill h)) h
  | brld _ => exact .laneWord (fun _ _ h => .brldEff h) h
  | chcfg _ => exact .laneWord (fun _ _ h => .chcfgEff h) h
  | chrd _ => exact .laneWord (fun _ _ h => .chrdEff h) h
  | chwr _ => exact .laneWord (fun _ _ h => .chwrEff h) h
  | chcnt _ => exact .laneWord (fun _ _ h => .chcntEff h) h
  | chcls _ => exact .laneWord (fun _ _ h => .chclsEff h) h
  | cpy _ | cpy2 _ | cpyx _ | cpyt _ | mcast _ | fill _ | gath _ | gath64 _ | scat _ | scata _ | scata64 _ | sump _ | sumpw _ | sigAdd _
  | sigSet _ | swait _ | coll _ | ccan _ | cstat _ | probe _ => exact .laneWord (fun _ _ h => .commandEff h) h
  | waitc _ => exact .laneWord (fun _ _ h => .waitcEff h) h
  | rdc _ => exact .laneWord (fun _ _ h => .rdcEff h) h
  | ecan _ => exact .laneWord (fun _ _ h => .ecanEff h) h
  | fencee _ => exact .laneWord (fun _ _ h => .fenceeEff h) h
  | ttset _ => exact .laneWord (fun _ _ h => .ttsetEff h) h
  | ttget _ => exact .laneWord (fun _ _ h => .ttgetEff h) h
  | mstart _ => exact .laneWord (fun _ _ h => .mstartEff h) h
  | mstop _ => exact .laneWord (fun _ _ h => .mstopEff h) h
  | mstat _ => exact .laneWord (fun _ _ h => .mstatEff h) h
  | mmac _ => exact .streamWord .mmacPoint h
  | mzero f => exact show OutInv (execMzero f s) from .streamWord (fun _ _ h => .nextWord (.updTeam h)) h
  | mdrain _ => exact .streamWord (fun _ _ h => .nextWord (.noteMatrix (.watchSeq (.foldl (fun _ _ h1 => .ite h1 (.putBytes h1)) h)))) h
  | mbara f => exact show OutInv (execMbara f s) from .streamWord (fun _ _ h => .mbaraEff h) h
  | mbarw f => exact show OutInv (execMbarw f s) from .streamWord (fun _ _ h => .mbarwEff h) h
  | mloop _ => exact .streamWord (fun _ _ h => .nextWord (.updSeqr h)) h
  | mloopEnd _ => exact .streamWord .mloopEndPoint h
  | mjmp f => exact show OutInv (execMjmp f s) from .streamWord (fun _ _ h => .mjmpEff h) h
  | mend f => exact show OutInv (execMend f s) from .streamWord (fun _ _ h => .mendEff h) h
  | mred f => exact show OutInv (execMred f s) from .streamWord (fun _ _ h => .nextWord (.setRed h)) h
  | mldacc _ => exact .streamWord (fun _ _ h => .nextWord (.watchSeq (.updTeam h))) h
  | mstacc _ => exact .streamWord (fun _ _ h => .nextWord (.watchSeq (.putBytes h))) h
  | msel f => exact show OutInv (execMsel f s) from .streamWord (fun _ _ h => .nextWord (.updTeam h)) h
  | mscl f => exact show OutInv (execMscl f s) from .streamWord (fun _ _ h => .nextWord (.updTeam h)) h
  | mwaitc f => exact show OutInv (execMwaitc f s) from .streamWord (fun _ _ h => .mwaitcEff h) h
  | mnop f => exact show OutInv (execMnop f s) from .streamWord (fun _ _ h => .nextWord h) h
  | fence _ => exact .laneWord (fun _ _ h => .fenceEff h) h
  | bar _ => exact .laneWord (fun _ _ h => .barEff h) h
  | bara _ | gbara _ => exact .laneWord (fun _ _ h => .baraEff h) h
  | barw _ | gbarw _ => exact .laneWord (fun _ _ h => .barwEff h) h
  | bari _ => exact .laneWord (.plain fun _ _ h => .bariEff h) h
  | sealRange _ => exact .laneWord (fun _ _ h => .sealEff h) h
  | unsealEntry _ => exact .laneWord (fun _ _ h => .unsealEff h) h
  | waits _ => exact .laneWord (fun _ _ h => .waitsEff h) h
  | fencei _ => exact .laneWord (fun _ _ h => .fenceiEff h) h
  | srd _ => exact .laneWord (fun _ _ h => .srdEff h) h
  | swr _ => exact .laneWord (fun _ _ h => .swrEff h) h
  | brk _ => exact .execBrk h
  | reth _ => exact .laneWord (fun _ _ h => .rethEff h) h
  | launch _ => exact .laneWord (fun _ _ h => .launchEff h) h
  | launchw _ => exact .laneWord (fun _ _ h => .launchwEff h) h
  | task _ => exact .laneWord (fun _ _ h => .taskEff h) h
  | taskp _ => exact .laneWord (fun _ _ h => .taskpEff h) h
  | tasks _ => exact .laneWord (fun _ _ h => .tasksEff h) h
  | amsg _ => exact .laneWord (fun _ _ h => .amsgEff h) h
  | amsgr _ => exact .laneWord (fun _ _ h => .amsgrEff h) h
  | region _ => exact .laneWord (fun _ _ h => .regionEff h) h
  | perf _ => exact .laneWord (fun _ _ h => .perfEff h) h
  | stamp _ => exact .laneWord (fun _ _ h => .stampEff h) h
  | wpset _ => exact .laneWord (fun _ _ h => .wpsetEff h) h
  | wpclr _ => exact .laneWord (fun _ _ h => .wpclrEff h) h
  | hint _ => exact .laneWord (fun _ _ h => .hintEff h) h
  | pswr _ => exact .laneWord (fun _ _ h => .pswrEff h) h
  | pctx _ => exact .laneWord (fun _ _ h => .pctxEff h) h
  | linkRetrainComplete _ _ => exact .execLinkRetrainComplete h

/-! ## The step (Machine/Step) -/

theorem OptInv.firstEvent {is : List Instr} {s : State} (h : s.Inv) : OptInv (firstEvent is s) := by
  induction is with
  | nil => exact .none
  | cons i is ih =>
    unfold Machine.firstEvent
    split
    · rename_i e
      exact .ite ih (.some (OutInv.exec h _ e))
    · exact ih

theorem OutInv.stepIssue {st : IssueStep} {s : State} (h : s.Inv) : OutInv (stepIssue st s) :=
  .list (.next (.endIssueStep h)) fun _ _ => .except (fun _ => .ite .fault (.next (.undecodedTrap h))) fun _ => .exec h

theorem OutInv.stepStream {tk : Nat} {s : State} (h : s.Inv) : OutInv (stepStream tk s) :=
  .option (.next (.streamLost h)) fun _ => .except (fun _ => .next (.streamIllegal h)) fun _ => .ite (.exec h) (.next (.streamIllegal h))

theorem OutInv.stepIdle {s : State} (h : s.Inv) : OutInv (stepIdle s) := by
  refine .list (.option_eq (.next h) fun t e => .next (OptInv.firstEvent h t e)) fun x _ => ?_
  cases x with
  | ev _ => exact .exec (.update h)
  | _ => exact .next (.runEntry (.update h))

/-- Each of the three turns of the machine keeps the form. -/
theorem OutInv.step {s : State} (h : s.Inv) : OutInv (step s) := by
  unfold Machine.step
  cases s.turn with
  | issue _ => exact .stepIssue h
  | stream _ => exact .stepStream h
  | idle => exact .stepIdle h

end Operations

/-- Settles O60: every event, lane word, stream word and end of a step writes memory only through `Memory.write`, `Memory.clear` and filters of the
list, each of which keeps the canonical form. -/
theorem stepKeepsInvariant : Obligations.StepKeepsInvariant := by
  unfold Obligations.StepKeepsInvariant
  intro s t h e
  exact OutInv.step h t e

end Sys2Proof.Machine
end

section
/-! SUPPORT. THE CODE OF A WORD: the parts of each format read back from its word and its word from its parts, the rows of the cells, the views of
the constructors, and the round trip of decoder and encoder (02 R43 to R50). -/

namespace Sys2Proof

/-! ## A field read back -/

theorem bits_lt (n hi lo : Nat) : bits n hi lo < 2 ^ (hi + 1 - lo) := Nat.mod_lt _ (by positivity)

theorem bits_at (w p k : Nat) : bits w (p + k) p = w / 2 ^ p % 2 ^ (k + 1) := by
  rw [bits, Nat.add_assoc, Nat.add_sub_cancel_left]

theorem b2n_le (b : Bool) : b2n b ≤ 1 := by cases b <;> decide

theorem b2n_beq_one {n : Nat} (h : n < 2) : b2n (n == 1) = n := by
  obtain rfl | rfl := Nat.le_one_iff_eq_zero_or_eq_one.mp (Nat.le_of_lt_succ h)
  · rfl
  · rfl

theorem beq_one_eq {k : Nat} {b : Bool} (h : k = b2n b) : (k == 1) = b := by
  subst h
  cases b <;> rfl

theorem fin_eq {n k : Nat} {hn : 0 < n} {x : Fin n} (h : k = x.val) : fin n k hn = x := by
  subst h
  exact Fin.ext (Nat.mod_eq_of_lt x.isLt)

theorem ofNat_eq {w k : Nat} {x : BitVec w} (h : k = x.toNat) : BitVec.ofNat w k = x := by
  subst h
  exact (BitVec.ofNat_toNat w x).trans (BitVec.setWidth_eq x)

/-! ## Operands -/

theorem Operand.code_le (o : Operand) : o.code ≤ 264 := by
  induction o with
  | v n => exact n.isLt.le.trans (show 256 ≤ 264 by decide)
  | q n => exact Nat.add_le_add_left n.isLt.le 256
  | z => exact Nat.le_refl 264

theorem Operand.code_lt (o : Operand) : o.code < 2 ^ 9 := Nat.lt_of_le_of_lt o.code_le (by decide)

theorem Operand.ofCode_eq {n : Nat} {o : Operand} (h : n = o.code) : Operand.ofCode n = o := by
  subst h
  induction o with
  | v n => exact dif_pos n.isLt
  | q n =>
    have hn : 256 + n.val - 256 = n.val := Nat.add_sub_cancel_left 256 n.val
    exact (dif_neg (Nat.not_lt.mpr (Nat.le_add_right 256 n.val))).trans
      ((dif_pos (show 256 + n.val - 256 < 8 from hn.symm ▸ n.isLt)).trans (congrArg Operand.q (Fin.ext hn)))
  | z => rfl

theorem Operand.code_ofCode {n : Nat} (h : n ≤ 264) : (Operand.ofCode n).code = n := by
  unfold Operand.ofCode
  split
  · rfl
  · next hv =>
    have hv := Nat.le_of_not_lt hv
    split
    · exact Nat.add_sub_cancel' hv
    · next hq => exact Nat.le_antisymm (Nat.add_le_of_le_sub' hv (Nat.le_of_not_lt hq)) h

/-! ## Checks taken apart -/

theorem and_left {a b : Bool} (h : (a && b) = true) : a = true := (Bool.and_eq_true_iff.mp h).1

theorem and_right {a b : Bool} (h : (a && b) = true) : b = true := (Bool.and_eq_true_iff.mp h).2

/-- A field that holds a plain number allows none of the operand space's reserved values. -/
def Slot.fits (s : Slot) : Bool := match s with | .num m => m ≤ 264 | _ => true

/-- The value of a field whose checks hold names an operand: it is 264 or less. -/
theorem Slot.le_of_ok {s : Slot} {n : Nat} (hf : s.fits = true) (h2 : s.ok2 n = true) (h3 : s.ok3 n = true) : n ≤ 264 := by
  induction s with
  | unused => exact (eq_of_beq h2).le.trans (Nat.zero_le _)
  | num m => exact (of_decide_eq_true h2).trans (of_decide_eq_true hf)
  | reg w _ _ _ => exact of_decide_eq_true (and_left h3)
  | chute => exact (of_decide_eq_true (and_right h2)).le
  | evenV => exact (of_decide_eq_true (and_left h2)).le.trans (show 256 ≤ 264 by decide)
  | mult32 => exact of_decide_eq_true h3
  | lax => exact of_decide_eq_true h3

theorem Slot.le_two {a b : Slot} {m n : Nat} (hf : (a.fits && b.fits) = true) (h2 : (a.ok2 m && b.ok2 n) = true) (h3 : (a.ok3 m && b.ok3 n) = true) :
    m ≤ 264 ∧ n ≤ 264 :=
  ⟨le_of_ok (and_left hf) (and_left h2) (and_left h3), le_of_ok (and_right hf) (and_right h2) (and_right h3)⟩

theorem Slot.le_three {a b c : Slot} {m n k : Nat} (hf : (a.fits && b.fits && c.fits) = true) (h2 : (a.ok2 m && b.ok2 n && c.ok2 k) = true)
    (h3 : (a.ok3 m && b.ok3 n && c.ok3 k) = true) : m ≤ 264 ∧ n ≤ 264 ∧ k ≤ 264 :=
  ⟨(le_two (and_left hf) (and_left h2) (and_left h3)).1, (le_two (and_left hf) (and_left h2) (and_left h3)).2,
    le_of_ok (and_right hf) (and_right h2) (and_right h3)⟩

theorem Slot.le_four {a b c d : Slot} {m n k l : Nat} (hf : (a.fits && b.fits && c.fits && d.fits) = true)
    (h2 : (a.ok2 m && b.ok2 n && c.ok2 k && d.ok2 l) = true) (h3 : (a.ok3 m && b.ok3 n && c.ok3 k && d.ok3 l) = true) :
    m ≤ 264 ∧ n ≤ 264 ∧ k ≤ 264 ∧ l ≤ 264 := by
  obtain ⟨ha, hb, hc⟩ := le_three (and_left hf) (and_left h2) (and_left h3)
  exact ⟨ha, hb, hc, le_of_ok (and_right hf) (and_right h2) (and_right h3)⟩

/-! ## The parts of a word -/

-- Parts are never compared with one another.
set_option genInjectivity false in
/-- A part of a word: what it holds, the bits it takes, how they are laid out and read, and which of their values have a meaning. -/
structure Part where
  Val : Type
  width : Nat
  pack : Val → Nat
  read : Nat → Nat → Val
  ok : Nat → Prop
  pack_lt : ∀ x, pack x < 2 ^ width
  read_eq : ∀ {w p x}, w / 2 ^ p % 2 ^ width = pack x → read w p = x
  pack_read : ∀ {w p}, ok (w / 2 ^ p % 2 ^ width) → pack (read w p) = w / 2 ^ p % 2 ^ width

/-- The four bits of a guard: the predicate's three and the sense above them. -/
theorem guard_bits (w p : Nat) : w / 2 ^ p % 2 ^ 4 = bits w (p + 2) p + 8 * bits w (p + 3) (p + 3) := by
  change w / 2 ^ p % (2 ^ 3 * 2) = _ + 2 ^ 3 * bits w (p + 3 + 0) (p + 3)
  rw [Nat.mod_mul, bits_at, bits_at, Nat.div_div_eq_div_mul, ← pow_add]
  rfl

theorem guard_eq {w p : Nat} {g : Guard} (h : w / 2 ^ p % 2 ^ 4 = g.pack) :
    (⟨fin 8 (bits w (p + 2) p), bits w (p + 3) (p + 3) == 1⟩ : Guard) = g := by
  rw [guard_bits, Guard.pack] at h
  have hlt : bits w (p + 2) p < 8 := bits_at w p 2 ▸ Nat.mod_lt _ (by decide)
  have hpg : bits w (p + 2) p = g.pg.val := by
    rw [← Nat.mod_eq_of_lt hlt, ← Nat.add_mul_mod_self_left _ 8 (bits w (p + 3) (p + 3)), h, Nat.add_mul_mod_self_left, Nat.mod_eq_of_lt g.pg.isLt]
  rw [hpg] at h
  exact congrArg₂ Guard.mk (fin_eq hpg) (beq_one_eq (Nat.eq_of_mul_eq_mul_left (by decide) (Nat.add_left_cancel h)))

theorem guard_pack (w p : Nat) : (⟨fin 8 (bits w (p + 2) p), bits w (p + 3) (p + 3) == 1⟩ : Guard).pack = w / 2 ^ p % 2 ^ 4 := by
  have hn : bits w (p + 3) (p + 3) < 2 := bits_at w (p + 3) 0 ▸ Nat.mod_lt _ (by decide)
  rw [guard_bits, Guard.pack, b2n_beq_one hn]
  exact congrArg (· + 8 * bits w (p + 3) (p + 3)) (Nat.mod_eq_of_lt (bits_at w p 2 ▸ Nat.mod_lt _ (by decide)))

theorem Guard.pack_lt (g : Guard) : g.pack < 2 ^ 4 :=
  Nat.lt_of_lt_of_le (Nat.add_lt_add_right g.pg.isLt _) (Nat.add_le_add_left (Nat.mul_le_mul_left 8 (b2n_le g.neg)) 8)

noncomputable def Part.guard : Part where
  Val := Guard
  width := 4
  pack := Guard.pack
  read w p := ⟨fin 8 (bits w (p + 2) p), bits w (p + 3) (p + 3) == 1⟩
  ok _ := True
  pack_lt := Guard.pack_lt
  read_eq := guard_eq
  pack_read _ := guard_pack _ _

noncomputable def Part.operand : Part where
  Val := Operand
  width := 9
  pack := Operand.code
  read w p := .ofCode (bits w (p + 8) p)
  ok n := n ≤ 264
  pack_lt := Operand.code_lt
  read_eq h := Operand.ofCode_eq ((bits_at _ _ 8).trans h)
  pack_read h := bits_at _ _ 8 ▸ Operand.code_ofCode (bits_at _ _ 8 ▸ h)

/-- A number of `k + 1` bits. -/
noncomputable def Part.num (n k : Nat) (hn : 2 ^ (k + 1) = n) (h : 0 < n := by decide) : Part where
  Val := Fin n
  width := k + 1
  pack := Fin.val
  read w p := fin n (bits w (p + k) p) h
  ok _ := True
  pack_lt x := hn ▸ x.isLt
  read_eq h := fin_eq ((bits_at _ _ k).trans h)
  pack_read _ := by
    subst hn
    exact (congrArg (· % 2 ^ (k + 1)) (bits_at _ _ k)).trans (Nat.mod_mod _ _)

/-- A bit string of `k + 1` bits. -/
noncomputable def Part.word (k : Nat) : Part where
  Val := BitVec (k + 1)
  width := k + 1
  pack := BitVec.toNat
  read w p := BitVec.ofNat (k + 1) (bits w (p + k) p)
  ok _ := True
  pack_lt x := x.isLt
  read_eq h := ofNat_eq ((bits_at _ _ k).trans h)
  pack_read _ := by rw [BitVec.toNat_ofNat, bits_at, Nat.mod_mod]

noncomputable def Part.flag : Part where
  Val := Bool
  width := 1
  pack := b2n
  read w p := bits w p p == 1
  ok _ := True
  pack_lt b := Nat.lt_succ_of_le (b2n_le b)
  read_eq h := beq_one_eq ((bits_at _ _ 0).trans h)
  pack_read _ := by
    rw [b2n_beq_one (bits_at _ _ 0 ▸ Nat.mod_lt _ (by decide))]
    exact bits_at _ _ 0

/-- Bits that every word leaves 0. -/
noncomputable def Part.zero (k : Nat) : Part where
  Val := Unit
  width := k
  pack _ := 0
  read _ _ := ()
  ok n := n = 0
  pack_lt _ := by positivity
  read_eq _ := rfl
  pack_read h := h.symm

/-! ## Words laid out part by part -/

/-- What parts hold. -/
noncomputable def Vals : List Part → Type
  | [] => Unit
  | p :: ps => p.Val × Vals ps

noncomputable def total : List Part → Nat
  | [] => 0
  | p :: ps => p.width + total ps

/-- Parts laid out from a position on, above what stands below it. -/
noncomputable def lay (acc pos : Nat) : (ps : List Part) → Vals ps → Nat
  | [], _ => acc
  | p :: ps, x => lay (acc + 2 ^ pos * p.pack x.1) (pos + p.width) ps x.2

/-- The same number in mixed radix. -/
noncomputable def mixed : (ps : List Part) → Vals ps → Nat
  | [], _ => 0
  | p :: ps, x => p.pack x.1 + 2 ^ p.width * mixed ps x.2

/-- What a word holds in parts that stand from a position on. -/
noncomputable def readAll (w pos : Nat) : (ps : List Part) → Vals ps
  | [] => ()
  | p :: ps => (p.read w pos, readAll w (pos + p.width) ps)

/-- Every part holds a value that has a meaning. -/
noncomputable def AllOk (w pos : Nat) : List Part → Prop
  | [] => True
  | p :: ps => p.ok (w / 2 ^ pos % 2 ^ p.width) ∧ AllOk w (pos + p.width) ps

theorem lay_cons (acc pos : Nat) (p : Part) (ps : List Part) (x : Vals (p :: ps)) :
    lay acc pos (p :: ps) x = lay (acc + 2 ^ pos * p.pack x.1) (pos + p.width) ps x.2 := rfl

theorem mixed_cons (p : Part) (ps : List Part) (x : Vals (p :: ps)) : mixed (p :: ps) x = p.pack x.1 + 2 ^ p.width * mixed ps x.2 := rfl

theorem pow_total_cons (p : Part) (ps : List Part) : 2 ^ total (p :: ps) = 2 ^ p.width * 2 ^ total ps := pow_add ..

theorem lay_eq (acc pos : Nat) (ps : List Part) (x : Vals ps) : lay acc pos ps x = acc + 2 ^ pos * mixed ps x := by
  induction ps generalizing acc pos with
  | nil => rfl
  | cons p ps ih => rw [lay_cons, ih, mixed_cons, pow_add, Nat.mul_add, Nat.add_assoc, Nat.mul_assoc]

theorem mixed_lt (ps : List Part) (x : Vals ps) : mixed ps x < 2 ^ total ps := by
  induction ps with
  | nil => exact Nat.one_pos
  | cons p ps ih =>
    rw [mixed_cons, pow_total_cons]
    calc p.pack x.1 + 2 ^ p.width * mixed ps x.2 < 2 ^ p.width + 2 ^ p.width * mixed ps x.2 := Nat.add_lt_add_right (p.pack_lt x.1) _
      _ = 2 ^ p.width * (mixed ps x.2 + 1) := by rw [Nat.mul_add, Nat.mul_one, Nat.add_comm]
      _ ≤ 2 ^ p.width * 2 ^ total ps := Nat.mul_le_mul_left _ (ih x.2)

/-- Parts read back from their number. -/
theorem readAll_eq {w pos : Nat} (ps : List Part) (x : Vals ps) (h : w / 2 ^ pos % 2 ^ total ps = mixed ps x) : readAll w pos ps = x := by
  induction ps generalizing pos with
  | nil => rfl
  | cons p ps ih =>
    rw [pow_total_cons, mixed_cons] at h
    have hp : w / 2 ^ pos % 2 ^ p.width = p.pack x.1 := by
      rw [← Nat.mod_mul_right_mod _ _ (2 ^ total ps), h, Nat.add_mul_mod_self_left, Nat.mod_eq_of_lt (p.pack_lt x.1)]
    have hr : w / 2 ^ (pos + p.width) % 2 ^ total ps = mixed ps x.2 := by
      rw [pow_add, ← Nat.div_div_eq_div_mul, ← Nat.mod_mul_right_div_self, h, Nat.add_mul_div_left _ _ (by positivity),
        Nat.div_eq_of_lt (p.pack_lt x.1), Nat.zero_add]
    exact Prod.ext (p.read_eq hp) (ih x.2 hr)

/-- The number of what a word holds. -/
theorem mixed_readAll {w pos : Nat} (ps : List Part) (h : AllOk w pos ps) : mixed ps (readAll w pos ps) = w / 2 ^ pos % 2 ^ total ps := by
  induction ps generalizing pos with
  | nil => exact (Nat.mod_one _).symm
  | cons p ps ih =>
    obtain ⟨hp, hr⟩ := h
    rw [mixed_cons, pow_total_cons, Nat.mod_mul, Nat.div_div_eq_div_mul, ← pow_add]
    exact congrArg₂ (· + 2 ^ p.width * ·) (p.pack_read hp) (ih hr)

/-! ## Words of 64 bits: the opcode in 9 of them, and the parts above -/

section
variable {ps : List Part} {op w : Nat}

theorem lay_head (x : Vals ps) (ht : total ps = 55) (h : op < 512) : lay op 9 ps x < 2 ^ 64 ∧ bits (lay op 9 ps x) 8 0 = op := by
  have hm := mixed_lt ps x
  rw [ht] at hm
  rw [lay_eq]
  constructor
  · calc op + 2 ^ 9 * mixed ps x < 2 ^ 9 + 2 ^ 9 * mixed ps x := Nat.add_lt_add_right h _
      _ = 2 ^ 9 * (mixed ps x + 1) := by rw [Nat.mul_add, Nat.mul_one, Nat.add_comm]
      _ ≤ 2 ^ 9 * 2 ^ 55 := Nat.mul_le_mul_left _ hm
  · change (op + 2 ^ 9 * _) / 1 % 2 ^ 9 = op
    rw [Nat.div_one, Nat.add_mul_mod_self_left, Nat.mod_eq_of_lt (show op < 2 ^ 9 from h)]

theorem head_of_eq {x : Vals ps} (hw : w = lay op 9 ps x) (ht : total ps = 55) (h : op < 512) : w < 2 ^ 64 ∧ bits w 8 0 = op :=
  hw ▸ lay_head x ht h

theorem readAll_lay (x : Vals ps) (h : op < 512) : readAll (lay op 9 ps x) 9 ps = x := by
  refine readAll_eq ps x ?_
  rw [lay_eq, Nat.add_mul_div_left _ _ (by decide), Nat.div_eq_of_lt (show op < 2 ^ 9 from h), Nat.zero_add, Nat.mod_eq_of_lt (mixed_lt ps x)]

theorem lay_readAll (ht : total ps = 55) (hw : w < 2 ^ 64) (h : AllOk w 9 ps) : lay (bits w 8 0) 9 ps (readAll w 9 ps) = w := by
  have hlt : w / 2 ^ 9 < 2 ^ 55 := Nat.div_lt_of_lt_mul hw
  rw [lay_eq, mixed_readAll ps h, ht, Nat.mod_eq_of_lt hlt]
  change w / 1 % 2 ^ 9 + 2 ^ 9 * (w / 2 ^ 9) = w
  rw [Nat.div_one, Nat.mod_add_div]

end

/-! ## Formats -/

noncomputable def RRR.parts : List Part := [.guard, .operand, .operand, .operand, .operand, .num 4 1 rfl, .num 8 2 rfl, .flag, .num 8 2 rfl, .num 64 5 rfl]

noncomputable def RRR.vals (f : RRR) : Vals parts := (f.g, f.d, f.a, f.b, f.c, f.fsel, f.rm, f.sat, f.pd, f.mod, ())

theorem RRR.pack_eq (op : Nat) (f : RRR) : f.pack op = lay op 9 parts f.vals := rfl

theorem RRR.ofWord_pack (f : RRR) {op : Nat} (h : op < 512) : RRR.ofWord (f.pack op) = f := by
  rw [pack_eq]
  exact congrArg (fun x => (⟨x.1, x.2.1, x.2.2.1, x.2.2.2.1, x.2.2.2.2.1, x.2.2.2.2.2.1, x.2.2.2.2.2.2.1, x.2.2.2.2.2.2.2.1, x.2.2.2.2.2.2.2.2.1, x.2.2.2.2.2.2.2.2.2.1⟩ : RRR)) (readAll_lay f.vals h)

noncomputable def RI.parts : List Part := [.guard, .operand, .operand, .word 31, .zero 1]

noncomputable def RI.vals (f : RI) : Vals parts := (f.g, f.d, f.a, f.imm, (), ())

theorem RI.pack_eq (op : Nat) (f : RI) : f.pack op = lay op 9 parts f.vals := (Nat.add_zero _).symm

theorem RI.ofWord_pack (f : RI) {op : Nat} (h : op < 512) : RI.ofWord (f.pack op) = f := by
  rw [pack_eq]
  exact congrArg (fun x => (⟨x.1, x.2.1, x.2.2.1, x.2.2.2.1⟩ : RI)) (readAll_lay f.vals h)

noncomputable def MF.parts : List Part := [.guard, .operand, .num 64 5 rfl, .operand, .word 23, .num 4 1 rfl, .zero 1]

noncomputable def MF.vals (f : MF) : Vals parts := (f.g, f.d, f.slot, f.idx, f.off, f.fsel, (), ())

theorem MF.pack_eq (op : Nat) (f : MF) : f.pack op = lay op 9 parts f.vals := (Nat.add_zero _).symm

theorem MF.ofWord_pack (f : MF) {op : Nat} (h : op < 512) : MF.ofWord (f.pack op) = f := by
  rw [pack_eq]
  exact congrArg (fun x => (⟨x.1, x.2.1, x.2.2.1, x.2.2.2.1, x.2.2.2.2.1, x.2.2.2.2.2.1⟩ : MF)) (readAll_lay f.vals h)

noncomputable def AF.parts : List Part := [.guard, .operand, .num 64 5 rfl, .operand, .operand, .num 16 3 rfl, .num 8 2 rfl, .num 4 1 rfl, .num 64 5 rfl, .num 4 1 rfl, .zero 1]

noncomputable def AF.vals (f : AF) : Vals parts := (f.g, f.d, f.slot, f.idx, f.a, f.aop, f.scope, f.ord, f.aoff, f.fsel, (), ())

theorem AF.pack_eq (op : Nat) (f : AF) : f.pack op = lay op 9 parts f.vals := (Nat.add_zero _).symm

theorem AF.ofWord_pack (f : AF) {op : Nat} (h : op < 512) : AF.ofWord (f.pack op) = f := by
  rw [pack_eq]
  exact congrArg (fun x => (⟨x.1, x.2.1, x.2.2.1, x.2.2.2.1, x.2.2.2.2.1, x.2.2.2.2.2.1, x.2.2.2.2.2.2.1, x.2.2.2.2.2.2.2.1, x.2.2.2.2.2.2.2.2.1, x.2.2.2.2.2.2.2.2.2.1⟩ : AF)) (readAll_lay f.vals h)

noncomputable def GF.parts : List Part := [.guard, .operand, .num 64 5 rfl, .operand, .operand, .operand, .num 8 2 rfl, .num 64 5 rfl]

noncomputable def GF.vals (f : GF) : Vals parts := (f.g, f.d, f.tag, f.a, f.b, f.c, f.pd, f.imm, ())

theorem GF.pack_eq (op : Nat) (f : GF) : f.pack op = lay op 9 parts f.vals := rfl

theorem GF.ofWord_pack (f : GF) {op : Nat} (h : op < 512) : GF.ofWord (f.pack op) = f := by
  rw [pack_eq]
  exact congrArg (fun x => (⟨x.1, x.2.1, x.2.2.1, x.2.2.2.1, x.2.2.2.2.1, x.2.2.2.2.2.1, x.2.2.2.2.2.2.1, x.2.2.2.2.2.2.2.1⟩ : GF)) (readAll_lay f.vals h)

noncomputable def EF.parts : List Part := [.guard, .operand, .num 64 5 rfl, .num 64 5 rfl, .num 64 5 rfl, .operand, .operand, .num 16 3 rfl, .num 4 1 rfl]

noncomputable def EF.vals (f : EF) : Vals parts := (f.g, f.d, f.sd, f.ss, f.sx, f.cnt, f.aux, f.chan, f.oclass, ())

theorem EF.pack_eq (op : Nat) (f : EF) : f.pack op = lay op 9 parts f.vals := rfl

theorem EF.ofWord_pack (f : EF) {op : Nat} (h : op < 512) : EF.ofWord (f.pack op) = f := by
  rw [pack_eq]
  exact congrArg (fun x => (⟨x.1, x.2.1, x.2.2.1, x.2.2.2.1, x.2.2.2.2.1, x.2.2.2.2.2.1, x.2.2.2.2.2.2.1, x.2.2.2.2.2.2.2.1, x.2.2.2.2.2.2.2.2.1⟩ : EF)) (readAll_lay f.vals h)

noncomputable def XF.parts : List Part := [.guard, .operand, .num 8 2 rfl, .operand, .operand, .num 8 2 rfl, .num 64 5 rfl, .num 1024 9 rfl, .num 4 1 rfl]

noncomputable def XF.vals (f : XF) : Vals parts := (f.g, f.d, f.xc, f.a, f.b, f.pd, f.slot, f.toff, f.fsel, ())

theorem XF.pack_eq (op : Nat) (f : XF) : f.pack op = lay op 9 parts f.vals := rfl

theorem XF.ofWord_pack (f : XF) {op : Nat} (h : op < 512) : XF.ofWord (f.pack op) = f := by
  rw [pack_eq]
  exact congrArg (fun x => (⟨x.1, x.2.1, x.2.2.1, x.2.2.2.1, x.2.2.2.2.1, x.2.2.2.2.2.1, x.2.2.2.2.2.2.1, x.2.2.2.2.2.2.2.1, x.2.2.2.2.2.2.2.2.1⟩ : XF)) (readAll_lay f.vals h)

noncomputable def BF.parts : List Part := [.guard, .zero 9, .word 31, .operand, .flag]

noncomputable def BF.vals (f : BF) : Vals parts := (f.g, (), f.disp, f.reg, f.link, ())

theorem BF.pack_eq (op : Nat) (f : BF) : f.pack op = lay op 9 parts f.vals := rfl

theorem BF.ofWord_pack (f : BF) {op : Nat} (h : op < 512) : BF.ofWord (f.pack op) = f := by
  rw [pack_eq]
  exact congrArg (fun x => (⟨x.1, x.2.2.1, x.2.2.2.1, x.2.2.2.2.1⟩ : BF)) (readAll_lay f.vals h)

noncomputable def SF.parts : List Part := [.guard, .operand, .word 11, .operand, .operand, .word 11]

noncomputable def SF.vals (f : SF) : Vals parts := (f.g, f.d, f.sr, f.a, f.b, f.imm, ())

theorem SF.pack_eq (op : Nat) (f : SF) : f.pack op = lay op 9 parts f.vals := rfl

theorem SF.ofWord_pack (f : SF) {op : Nat} (h : op < 512) : SF.ofWord (f.pack op) = f := by
  rw [pack_eq]
  exact congrArg (fun x => (⟨x.1, x.2.1, x.2.2.1, x.2.2.2.1, x.2.2.2.2.1, x.2.2.2.2.2.1⟩ : SF)) (readAll_lay f.vals h)

noncomputable def MSF.parts : List Part := [.zero 4, .num 4 1 rfl, .num 8 2 rfl, .word 7, .num 16 3 rfl, .word 7, .word 7, .word 7, .word 7, .num 4 1 rfl]

noncomputable def MSF.vals (f : MSF) : Vals parts := ((), f.acc, f.oslot, f.tt, f.nb, f.k0, f.kn, f.ti, f.tj, f.mode, ())

theorem MSF.pack_eq (op : Nat) (f : MSF) : f.pack op = lay op 9 parts f.vals := rfl

theorem MSF.ofWord_pack (f : MSF) {op : Nat} (h : op < 512) : MSF.ofWord (f.pack op) = f := by
  rw [pack_eq]
  exact congrArg (fun x => (⟨x.2.1, x.2.2.1, x.2.2.2.1, x.2.2.2.2.1, x.2.2.2.2.2.1, x.2.2.2.2.2.2.1, x.2.2.2.2.2.2.2.1, x.2.2.2.2.2.2.2.2.1, x.2.2.2.2.2.2.2.2.2.1⟩ : MSF)) (readAll_lay f.vals h)

theorem MSF.mode_pack (f : MSF) {op : Nat} (h : op < 512) : bits (f.pack op) 63 62 = f.mode.val :=
  (Nat.mod_eq_of_lt (bits_lt _ 63 62)).symm.trans (congrArg (·.mode.val) (f.ofWord_pack h))

/-! ## Rows -/

/-- The row of a cell, by its class, its index and the mode field that tells MLOOP and MLOOP.end apart. -/
noncomputable def rowCell (cls n mode : Nat) : Option Row :=
  match cls with
  | 0 => rowCtrl n
  | 1 => rowIalu n
  | 2 => rowImul n
  | 3 => rowIdiv n
  | 4 => rowPack n
  | 5 => rowFalu n
  | 6 => rowFspc n
  | 7 => rowXduc n
  | 8 => rowGrup n
  | 9 => rowMems n
  | 10 => rowEngn n
  | 11 => rowMtrx n mode
  | 12 => rowSync n
  | 13 => rowSyst n
  | _ => none

theorem rowOf_eq_rowCell (w : Nat) : rowOf w = rowCell (bits w 8 5) (bits w 4 0) (bits w 63 62) := rfl

/-- The row of a cell, by its opcode. -/
noncomputable def rowAt (op mode : Nat) : Option Row := rowCell (op / 32) (op % 32) mode

theorem rowOf_eq_rowAt (w : Nat) : rowOf w = rowAt (bits w 8 0) (bits w 63 62) := by
  have hc : bits w 8 0 / 32 = bits w 8 5 := by
    change w / 1 % (2 ^ 5 * 2 ^ 4) / 2 ^ 5 = w / 2 ^ 5 % 2 ^ 4
    rw [Nat.mod_mul_right_div_self, Nat.div_one]
  have hn : bits w 8 0 % 32 = bits w 4 0 := Nat.mod_mod_of_dvd _ (show 2 ^ 5 ∣ 2 ^ 9 by decide)
  rw [rowOf_eq_rowCell, rowAt, hc, hn]

/-- Classes 14 and 15 have no rows. -/
theorem rowCell_beyond (k n mode : Nat) : rowCell (k + 14) n mode = none := rfl

theorem rowAt_lt {op mode : Nat} {r : Row} (h : rowAt op mode = some r) : op < 448 := by
  by_contra hlt
  obtain ⟨k, hk⟩ := Nat.exists_eq_add_of_le' ((Nat.le_div_iff_mul_le (show 0 < 32 by decide)).mpr (show 14 * 32 ≤ op from Nat.le_of_not_lt hlt))
  rw [rowAt, hk, rowCell_beyond] at h
  cases h

/-- Every operand field of a row fits the operand space. -/
noncomputable def Row.fits : Row → Bool
  | .rrr r => r.d.fits && r.a.fits && r.b.fits && r.c.fits
  | .ri r => r.d.fits && r.a.fits
  | .m r => r.d.fits && r.idx.fits
  | .a r => r.d.fits && r.a.fits
  | .g r => r.d.fits && r.a.fits && r.b.fits && r.c.fits
  | .e r => r.d.fits && r.cnt.fits && r.aux.fits
  | .x r => r.d.fits && r.a.fits && r.b.fits
  | .b r => r.reg.fits
  | .s r => r.d.fits && r.a.fits && r.b.fits
  | .ms _ => true

theorem rowAt_fits : ∀ op < 512, ∀ mode < 4, (rowAt op mode).all Row.fits = true := by decide +kernel

theorem rowOf_fits {w : Nat} {r : Row} (h : rowOf w = some r) : r.fits = true := by
  have := rowAt_fits _ (bits_lt w 8 0) _ (bits_lt w 63 62)
  rw [← rowOf_eq_rowAt, h] at this
  exact this

/-! ## Words whose checks hold are the words of their fields -/

theorem RRRRow.pack_ofWord {r : RRRRow} {w : Nat} (hw : w < 2 ^ 64) (hf : (Row.rrr r).fits = true) (h2 : r.ok2 w = true) (h3 : r.ok3 w = true) :
    (RRR.ofWord w).pack (bits w 8 0) = w := by
  obtain ⟨hd, ha, hb, hc⟩ := Slot.le_four hf (and_left (and_left (and_left (and_left (and_left (h2)))))) h3
  exact (RRR.pack_eq _ _).trans (lay_readAll rfl hw ⟨trivial, hd, ha, hb, hc, trivial, trivial, trivial, trivial, trivial, trivial⟩)

theorem RIRow.pack_ofWord {r : RIRow} {w : Nat} (hw : w < 2 ^ 64) (hf : (Row.ri r).fits = true) (h2 : r.ok2 w = true) (h3 : r.ok3 w = true) :
    (RI.ofWord w).pack (bits w 8 0) = w := by
  obtain ⟨hd, ha⟩ := Slot.le_two hf (and_left (and_left (h2))) h3
  exact (RI.pack_eq _ _).trans (lay_readAll rfl hw ⟨trivial, hd, ha, trivial, eq_of_beq (and_right h2), trivial⟩)

theorem MRow.pack_ofWord {r : MRow} {w : Nat} (hw : w < 2 ^ 64) (hf : (Row.m r).fits = true) (h2 : r.ok2 w = true) (h3 : r.ok3 w = true) :
    (MF.ofWord w).pack (bits w 8 0) = w := by
  obtain ⟨hd, hi⟩ := Slot.le_two hf (and_left (and_left (and_left (and_left (h2))))) h3
  exact (MF.pack_eq _ _).trans (lay_readAll rfl hw ⟨trivial, hd, trivial, hi, trivial, trivial, eq_of_beq (and_right h2), trivial⟩)

theorem ARow.pack_ofWord {r : ARow} {w : Nat} (hw : w < 2 ^ 64) (hf : (Row.a r).fits = true) (h2 : r.ok2 w = true) (h3 : r.ok3 w = true) :
    (AF.ofWord w).pack (bits w 8 0) = w := by
  have hfi : (r.d.fits && idxSlot.fits && r.a.fits) = true := (Bool.and_true r.d.fits).symm ▸ hf
  obtain ⟨hd, hi, ha⟩ := Slot.le_three hfi (and_left (and_left (and_left (and_left (h2))))) h3
  exact (AF.pack_eq _ _).trans (lay_readAll rfl hw ⟨trivial, hd, trivial, hi, ha, trivial, trivial, trivial, trivial, trivial, eq_of_beq (and_right h2), trivial⟩)

theorem GRow.pack_ofWord {r : GRow} {w : Nat} (hw : w < 2 ^ 64) (hf : (Row.g r).fits = true) (h2 : r.ok2 w = true) (h3 : r.ok3 w = true) :
    (GF.ofWord w).pack (bits w 8 0) = w := by
  obtain ⟨hd, ha, hb, hc⟩ := Slot.le_four hf (and_left (and_left (and_left (and_left (h2))))) h3
  exact (GF.pack_eq _ _).trans (lay_readAll rfl hw ⟨trivial, hd, trivial, ha, hb, hc, trivial, trivial, trivial⟩)

theorem ERow.pack_ofWord {r : ERow} {w : Nat} (hw : w < 2 ^ 64) (hf : (Row.e r).fits = true) (h2 : r.ok2 w = true) (h3 : r.ok3 w = true) :
    (EF.ofWord w).pack (bits w 8 0) = w := by
  have h := and_left (and_left h2)
  have hd := Slot.le_of_ok (and_left (and_left hf)) (and_left (and_left (and_left (and_left (and_left h))))) (and_left (and_left h3))
  have hc := Slot.le_of_ok (and_right (and_left hf)) (and_right (and_left h)) (and_right (and_left h3))
  have ha := Slot.le_of_ok (and_right hf) (and_right h) (and_right h3)
  exact (EF.pack_eq _ _).trans (lay_readAll rfl hw ⟨trivial, hd, trivial, trivial, trivial, hc, ha, trivial, trivial, trivial⟩)

theorem XRow.pack_ofWord {r : XRow} {w : Nat} (hw : w < 2 ^ 64) (hf : (Row.x r).fits = true) (h2 : r.ok2 w = true) (h3 : r.ok3 w = true) :
    (XF.ofWord w).pack (bits w 8 0) = w := by
  have h := and_left (and_left (and_left (and_left (h2))))
  have hd := Slot.le_of_ok (and_left (and_left hf)) (and_left (and_left (and_left h))) (and_left (and_left h3))
  have ha := Slot.le_of_ok (and_right (and_left hf)) (and_right (and_left h)) (and_right (and_left h3))
  have hb := Slot.le_of_ok (and_right hf) (and_right h) (and_right h3)
  exact (XF.pack_eq _ _).trans (lay_readAll rfl hw ⟨trivial, hd, trivial, ha, hb, trivial, trivial, trivial, trivial, trivial⟩)

theorem BRow.pack_ofWord {r : BRow} {w : Nat} (hw : w < 2 ^ 64) (hf : (Row.b r).fits = true) (h2 : r.ok2 w = true) (h3 : r.ok3 w = true) :
    (BF.ofWord w).pack (bits w 8 0) = w := by
  have h := and_left h2
  exact (BF.pack_eq _ _).trans (lay_readAll rfl hw ⟨trivial, eq_of_beq (and_left (and_left h)), trivial, Slot.le_of_ok hf (and_right h) h3, trivial, trivial⟩)

theorem SRow.pack_ofWord {r : SRow} {w : Nat} (hw : w < 2 ^ 64) (hf : (Row.s r).fits = true) (h2 : r.ok2 w = true) (h3 : r.ok3 w = true) :
    (SF.ofWord w).pack (bits w 8 0) = w := by
  have h := and_left (and_left (h2))
  have hd := Slot.le_of_ok (and_left (and_left hf)) (and_left (and_left (and_left h))) (and_left (and_left h3))
  have ha := Slot.le_of_ok (and_right (and_left hf)) (and_right (and_left h)) (and_right (and_left h3))
  have hb := Slot.le_of_ok (and_right hf) (and_right h) (and_right h3)
  exact (SF.pack_eq _ _).trans (lay_readAll rfl hw ⟨trivial, hd, trivial, ha, hb, trivial, trivial⟩)

theorem MSRow.pack_ofWord {r : MSRow} {w : Nat} (hw : w < 2 ^ 64) (h2 : r.ok2 w = true) :
    (MSF.ofWord w).pack (bits w 8 0) = w := by
  exact (MSF.pack_eq _ _).trans (lay_readAll rfl hw ⟨eq_of_beq (and_left (and_left (and_left (and_left (and_left (and_left (and_left (and_left (and_left (and_left (and_left (and_left (h2))))))))))))), trivial, trivial, trivial, trivial, trivial, trivial, trivial, trivial, trivial, trivial⟩)

/-! ## Views -/

/-- The row of a view; an event has none. -/
noncomputable def View.row : View → Option Row
  | .rrr _ r _ => some (.rrr r)
  | .ri _ r _ => some (.ri r)
  | .m _ r _ => some (.m r)
  | .a _ r _ => some (.a r)
  | .g _ r _ => some (.g r)
  | .e _ r _ => some (.e r)
  | .x _ r _ => some (.x r)
  | .b _ r _ => some (.b r)
  | .s _ r _ => some (.s r)
  | .ms _ r _ => some (.ms r)
  | .event => none

theorem checked_of_ok {a b : Bool} {v : View} (ha : a = true) (hb : b = true) : checked a b v = .ok v := by
  rw [ha, hb]
  rfl

theorem ok_of_checked {a b : Bool} {u v : View} (h : checked a b u = .ok v) : a = true ∧ b = true ∧ u = v := by
  induction a with
  | false => cases h
  | true =>
    induction b with
    | false => cases h
    | true => exact ⟨rfl, rfl, Except.ok.inj h⟩

/-- The checks of a row, in the order of their traps (02 R52), and the view of a word of the row. -/
noncomputable def Row.ok2 (w : Nat) : Row → Bool
  | .rrr r => r.ok2 w
  | .ri r => r.ok2 w
  | .m r => r.ok2 w
  | .a r => r.ok2 w
  | .g r => r.ok2 w
  | .e r => r.ok2 w
  | .x r => r.ok2 w
  | .b r => r.ok2 w
  | .s r => r.ok2 w
  | .ms r => r.ok2 w

noncomputable def Row.ok3 (w : Nat) : Row → Bool
  | .rrr r => r.ok3 w
  | .ri r => r.ok3 w
  | .m r => r.ok3 w
  | .a r => r.ok3 w
  | .g r => r.ok3 w
  | .e r => r.ok3 w
  | .x r => r.ok3 w
  | .b r => r.ok3 w
  | .s r => r.ok3 w
  | .ms _ => true

noncomputable def Row.viewAt (w : Nat) : Row → View
  | .rrr r => .rrr (bits w 8 0) r (.ofWord w)
  | .ri r => .ri (bits w 8 0) r (.ofWord w)
  | .m r => .m (bits w 8 0) r (.ofWord w)
  | .a r => .a (bits w 8 0) r (.ofWord w)
  | .g r => .g (bits w 8 0) r (.ofWord w)
  | .e r => .e (bits w 8 0) r (.ofWord w)
  | .x r => .x (bits w 8 0) r (.ofWord w)
  | .b r => .b (bits w 8 0) r (.ofWord w)
  | .s r => .s (bits w 8 0) r (.ofWord w)
  | .ms r => .ms (bits w 8 0) r (.ofWord w)

theorem decodeView_eq (w : Nat) :
    decodeView w = (rowOf w).elim (.error .illegalInstruction) fun r => checked (r.ok2 w) (r.ok3 w) (r.viewAt w) := by
  rw [decodeView]
  generalize rowOf w = o
  induction o with
  | none => rfl
  | some r => induction r <;> rfl

theorem View.ok_eq (v : View) : v.ok = v.row.all fun r => r.ok2 (v.pack.getD 0) && r.ok3 (v.pack.getD 0) := by
  induction v with
  | ms => exact (Bool.and_true _).symm
  | _ => rfl

theorem Row.viewAt_row (w : Nat) (r : Row) : (r.viewAt w).row = some r := by induction r <;> rfl

theorem Row.viewAt_opcode (w : Nat) (r : Row) : (r.viewAt w).opcode = some (bits w 8 0) := by induction r <;> rfl

theorem Row.viewAt_pack {w : Nat} {r : Row} (hw : w < 2 ^ 64) (hf : r.fits = true) (h2 : r.ok2 w = true) (h3 : r.ok3 w = true) :
    (r.viewAt w).pack = some w := by
  induction r with
  | rrr r => exact congrArg some (r.pack_ofWord hw hf h2 h3)
  | ri r => exact congrArg some (r.pack_ofWord hw hf h2 h3)
  | m r => exact congrArg some (r.pack_ofWord hw hf h2 h3)
  | a r => exact congrArg some (r.pack_ofWord hw hf h2 h3)
  | g r => exact congrArg some (r.pack_ofWord hw hf h2 h3)
  | e r => exact congrArg some (r.pack_ofWord hw hf h2 h3)
  | x r => exact congrArg some (r.pack_ofWord hw hf h2 h3)
  | b r => exact congrArg some (r.pack_ofWord hw hf h2 h3)
  | s r => exact congrArg some (r.pack_ofWord hw hf h2 h3)
  | ms r => exact congrArg some (r.pack_ofWord hw h2)

/-- What a word decodes to packs to the word, passes its checks, and has the opcode and the row of the word's cell. -/
theorem decodeView_sound {w : Nat} {v : View} (hw : w < 2 ^ 64) (h : decodeView w = .ok v) :
    v.pack = some w ∧ v.ok = true ∧ v.opcode = some (bits w 8 0) ∧ v.row = rowOf w := by
  rw [decodeView_eq] at h
  cases hr : rowOf w with
  | none => rw [hr] at h; cases h
  | some r =>
    rw [hr] at h
    obtain ⟨h2, h3, rfl⟩ := ok_of_checked h
    have hp := r.viewAt_pack hw (rowOf_fits hr) h2 h3
    have hrow := r.viewAt_row w
    refine ⟨hp, ?_, r.viewAt_opcode w, hrow⟩
    rw [View.ok_eq, hp, hrow]
    exact (congrArg₂ and h2 h3)

/-- Every view but an event has a row. -/
theorem View.row_isSome (v : View) : v.row.isSome = v.opcode.isSome := by induction v <;> rfl

/-- The word of a view has 64 bits and the view's opcode. -/
theorem View.pack_head {v : View} (hv : v.row.isSome = true) (h : v.opcode.getD 0 < 512) :
    v.pack.getD 0 < 2 ^ 64 ∧ bits (v.pack.getD 0) 8 0 = v.opcode.getD 0 := by
  induction v with
  | event => cases hv
  | rrr op _ f => exact head_of_eq (f.pack_eq op) rfl h
  | ri op _ f => exact head_of_eq (f.pack_eq op) rfl h
  | m op _ f => exact head_of_eq (f.pack_eq op) rfl h
  | a op _ f => exact head_of_eq (f.pack_eq op) rfl h
  | g op _ f => exact head_of_eq (f.pack_eq op) rfl h
  | e op _ f => exact head_of_eq (f.pack_eq op) rfl h
  | x op _ f => exact head_of_eq (f.pack_eq op) rfl h
  | b op _ f => exact head_of_eq (f.pack_eq op) rfl h
  | s op _ f => exact head_of_eq (f.pack_eq op) rfl h
  | ms op _ f => exact head_of_eq (f.pack_eq op) rfl h

/-- A view is that of its word and its row. -/
theorem View.viewAt_word {v : View} (hv : v.row.isSome = true) (h : v.opcode.getD 0 < 512) :
    v.row.map (Row.viewAt (v.pack.getD 0)) = v.row.map fun _ => v := by
  have hb := (View.pack_head hv h).2
  induction v with
  | event => rfl
  | rrr _ r f => exact congrArg some (congrArg₂ (View.rrr · r) hb (f.ofWord_pack h))
  | ri _ r f => exact congrArg some (congrArg₂ (View.ri · r) hb (f.ofWord_pack h))
  | m _ r f => exact congrArg some (congrArg₂ (View.m · r) hb (f.ofWord_pack h))
  | a _ r f => exact congrArg some (congrArg₂ (View.a · r) hb (f.ofWord_pack h))
  | g _ r f => exact congrArg some (congrArg₂ (View.g · r) hb (f.ofWord_pack h))
  | e _ r f => exact congrArg some (congrArg₂ (View.e · r) hb (f.ofWord_pack h))
  | x _ r f => exact congrArg some (congrArg₂ (View.x · r) hb (f.ofWord_pack h))
  | b _ r f => exact congrArg some (congrArg₂ (View.b · r) hb (f.ofWord_pack h))
  | s _ r f => exact congrArg some (congrArg₂ (View.s · r) hb (f.ofWord_pack h))
  | ms _ r f => exact congrArg some (congrArg₂ (View.ms · r) hb (f.ofWord_pack h))

/-- The word of a view whose checks hold decodes to that view, where the view's row is that of its cell. -/
theorem decodeView_complete {v : View} (hv : v.row.isSome = true) (h : v.opcode.getD 0 < 512) (hok : v.ok = true)
    (hr : rowOf (v.pack.getD 0) = v.row) : decodeView (v.pack.getD 0) = .ok v := by
  obtain ⟨r, hs⟩ := Option.isSome_iff_exists.mp hv
  have hview := View.viewAt_word hv h
  rw [View.ok_eq, hs] at hok
  rw [hs] at hview
  rw [decodeView_eq, hr, hs, Option.elim_some, Option.some.inj hview]
  exact checked_of_ok (and_left hok) (and_right hok)

/-! ## Constructors and views -/

/-- MLOOP and MLOOP.end have one opcode; the mode field picks the row and the constructor. -/
theorem rowAt_mloop (mode : Nat) : rowAt 0x175 mode = if mode = 1 then some (.ms Rows.mloopEnd) else some (.ms Rows.mloop) := rfl

theorem instrMSF_mloop (f : MSF) : instrMSF 0x175 f = if f.mode.val = 1 then some (.mloopEnd f) else some (.mloop f) := rfl

/-- A row and a constructor that an opcode names. -/
abbrev Named := Option (Option Row × Option Instr)

/-- The row of the cell of an instruction's word, and the constructor that its opcode names. -/
noncomputable def Instr.named (i : Instr) : Named :=
  i.view.opcode.map fun op => (rowAt op (bits (encode i) 63 62), i.view.instr)

/-- The row of an instruction's view, and the instruction. -/
noncomputable def Instr.own (i : Instr) : Named := i.view.opcode.map fun _ => (i.view.row, some i)

/-- The view of a well-formed word stands in its cell, with the row of its opcode, and its opcode names its constructor. -/
noncomputable def Instr.NamesItself (i : Instr) : Prop := i.wf = true → i.named = i.own

theorem Instr.NamesItself.of_eq {i : Instr} (h : i.named = i.own) : i.NamesItself := fun _ => h

set_option tactic.hygienic false in
/-- The constructors of the word instructions but MLOOP's agree by evaluation, and the events have no opcode. -/
theorem Instr.namesItself (i : Instr) : i.NamesItself := by
  induction i with
  | mloop f =>
    intro hw
    have hm : f.mode.val ≠ 1 := by
      rw [← f.mode_pack (show 0x175 < 512 by decide)]
      exact Nat.ne_of_lt (Nat.lt_succ_of_le (of_decide_eq_true (and_right hw)))
    have hb : bits (encode (.mloop f)) 63 62 ≠ 1 := (f.mode_pack (show 0x175 < 512 by decide)).symm ▸ hm
    exact congrArg some (Prod.ext ((rowAt_mloop _).trans (if_neg hb)) ((instrMSF_mloop f).trans (if_neg hm)))
  | mloopEnd f =>
    intro hw
    have hb : bits (encode (.mloopEnd f)) 63 62 = 1 :=
      Nat.le_antisymm (of_decide_eq_true (and_right hw)) (of_decide_eq_true (and_right (and_left hw)))
    have hm : f.mode.val = 1 := (f.mode_pack (show 0x175 < 512 by decide)).symm.trans hb
    exact congrArg some (Prod.ext ((rowAt_mloop _).trans (if_pos hb)) ((instrMSF_mloop f).trans (if_pos hm)))
  | _ => exact .of_eq rfl

theorem Instr.view_names {i : Instr} (hw : i.wf = true) {op : Nat} (ho : i.view.opcode = some op) :
    i.view.row = rowAt op (bits (encode i) 63 62) ∧ i.view.instr = some i := by
  have h := i.namesItself hw
  rw [Instr.named, Instr.own, ho] at h
  obtain ⟨hr, hi⟩ := Prod.mk.inj (Option.some.inj h)
  exact ⟨hr.symm, hi⟩

/-- What a word and its checks follow from: the opcode, the word and the row of its cell. -/
noncomputable def View.cell (v : View) : Option Nat × Option Nat × Option Row := (v.opcode, v.pack, v.row)

theorem View.ok_of_cell {u v : View} (h : u.cell = v.cell) : u.ok = v.ok := by
  obtain ⟨-, h⟩ := Prod.mk.inj h
  obtain ⟨hp, hr⟩ := Prod.mk.inj h
  rw [ok_eq, ok_eq, hp, hr]

/-- In every cell, the constructor that the opcode names in a format has the opcode and the word of that format, and the cell's row. -/
noncomputable def CellsAgree (mode : Nat) (v : Nat → View) : Prop :=
  ((List.range 14).map fun c => (List.range 32).map fun n => (v (32 * c + n)).instr.map fun i => i.view.cell)
    = (List.range 14).map fun c => (List.range 32).map fun n =>
        (v (32 * c + n)).instr.bind fun _ => some ((v (32 * c + n)).opcode, (v (32 * c + n)).pack, rowAt (32 * c + n) mode)

theorem CellsAgree.view_instr {mode : Nat} {v : Nat → View} (h : CellsAgree mode v) {op : Nat} {i : Instr} (hi : (v op).instr = some i)
    (hr : (v op).row = rowAt op mode) (hlt : op < 448) : i.view.cell = (v op).cell := by
  have hc := List.map_inj_left.mp h (op / 32) (List.mem_range.mpr (Nat.div_lt_of_lt_mul hlt))
  have he := List.map_inj_left.mp hc (op % 32) (List.mem_range.mpr (Nat.mod_lt _ (by decide)))
  rw [Nat.div_add_mod, hi, ← hr] at he
  exact Option.some.inj he

/-- What holds in each of the four modes. -/
theorem forall_mode {P : Nat → Prop} (h0 : P 0) (h1 : P 1) (h2 : P 2) (h3 : P 3) {m : Nat} (hm : m < 4) : P m := by
  rcases m with _ | _ | _ | _ | m
  · exact h0
  · exact h1
  · exact h2
  · exact h3
  · exact absurd hm (Nat.not_lt.mpr (Nat.le_add_left 4 m))

theorem rrr_cells (r : RRRRow) (f : RRR) (m : Nat) : CellsAgree m (View.rrr · r f) := by rfl

theorem ri_cells (r : RIRow) (f : RI) (m : Nat) : CellsAgree m (View.ri · r f) := by rfl

theorem m_cells (r : MRow) (f : MF) (m : Nat) : CellsAgree m (View.m · r f) := by rfl

theorem a_cells (r : ARow) (f : AF) (m : Nat) : CellsAgree m (View.a · r f) := by rfl

theorem g_cells (r : GRow) (f : GF) (m : Nat) : CellsAgree m (View.g · r f) := by rfl

theorem e_cells (r : ERow) (f : EF) (m : Nat) : CellsAgree m (View.e · r f) := by rfl

theorem x_cells (r : XRow) (f : XF) (m : Nat) : CellsAgree m (View.x · r f) := by rfl

theorem b_cells (r : BRow) (f : BF) (m : Nat) : CellsAgree m (View.b · r f) := by rfl

theorem s_cells (r : SRow) (f : SF) (m : Nat) : CellsAgree m (View.s · r f) := by rfl

theorem ms_cells (r : MSRow) (f : MSF) : CellsAgree f.mode.val (View.ms · r f) := by
  obtain ⟨acc, oslot, tt, nb, k0, kn, ti, tj, ⟨m, hm⟩⟩ := f
  refine forall_mode (P := fun m => ∀ hm, CellsAgree m (View.ms · r ⟨acc, oslot, tt, nb, k0, kn, ti, tj, ⟨m, hm⟩⟩)) ?_ ?_ ?_ ?_ hm hm
  all_goals exact fun _ => by rfl

/-- The constructor that the opcode of a view names has the opcode, the word and the row of this view. -/
theorem View.view_instr {v : View} {i : Instr} (hi : v.instr = some i) (hr : v.row = rowAt (v.opcode.getD 0) (bits (v.pack.getD 0) 63 62)) :
    i.view.cell = v.cell := by
  induction v with
  | event => cases hi
  | rrr _ r f => exact (rrr_cells r f _).view_instr hi hr (rowAt_lt hr.symm)
  | ri _ r f => exact (ri_cells r f _).view_instr hi hr (rowAt_lt hr.symm)
  | m _ r f => exact (m_cells r f _).view_instr hi hr (rowAt_lt hr.symm)
  | a _ r f => exact (a_cells r f _).view_instr hi hr (rowAt_lt hr.symm)
  | g _ r f => exact (g_cells r f _).view_instr hi hr (rowAt_lt hr.symm)
  | e _ r f => exact (e_cells r f _).view_instr hi hr (rowAt_lt hr.symm)
  | x _ r f => exact (x_cells r f _).view_instr hi hr (rowAt_lt hr.symm)
  | b _ r f => exact (b_cells r f _).view_instr hi hr (rowAt_lt hr.symm)
  | s _ r f => exact (s_cells r f _).view_instr hi hr (rowAt_lt hr.symm)
  | ms _ r f =>
    have hlt := Nat.lt_of_lt_of_le (rowAt_lt hr.symm) (show 448 ≤ 512 by decide)
    exact (ms_cells r f).view_instr hi (hr.trans (congrArg (rowAt _) (f.mode_pack hlt))) (rowAt_lt hr.symm)

theorem decodeWord_of_view {w : Nat} {v : View} {i : Instr} (hv : decodeView w = .ok v) (hi : v.instr = some i) : decodeWord w = .ok i := by
  rw [decodeWord, hv]
  dsimp only
  rw [hi]

theorem view_of_decodeWord {w : Nat} {i : Instr} (h : decodeWord w = .ok i) : ∃ v, decodeView w = .ok v ∧ v.instr = some i := by
  rw [decodeWord] at h
  cases hv : decodeView w with
  | error e => rw [hv] at h; cases h
  | ok v =>
    rw [hv] at h
    dsimp only at h
    cases hi : v.instr with
    | none => rw [hi] at h; cases h
    | some j =>
      rw [hi] at h
      exact ⟨v, rfl, hi.trans (congrArg some (Except.ok.inj h))⟩

/-- The word of a well-formed word instruction decodes to it. -/
theorem decode_encode {i : Instr} (hi : i.isWord = true) (hw : i.wf = true) : encode i < 2 ^ 64 ∧ decodeWord (encode i) = .ok i := by
  obtain ⟨op, ho⟩ := Option.isSome_iff_exists.mp hi
  obtain ⟨hr, hn⟩ := Instr.view_names hw ho
  have hv : i.view.row.isSome = true := i.view.row_isSome.trans hi
  obtain ⟨r, hs⟩ := Option.isSome_iff_exists.mp hv
  have hlt : i.view.opcode.getD 0 < 512 := by
    rw [ho]
    exact Nat.lt_of_lt_of_le (rowAt_lt (hr.symm.trans hs)) (by decide)
  obtain ⟨h64, hb⟩ := View.pack_head hv hlt
  rw [ho] at hb
  have hrow : rowOf (encode i) = i.view.row := by rw [rowOf_eq_rowAt, hr, encode, hb]; rfl
  exact ⟨h64, decodeWord_of_view (decodeView_complete hv hlt hw hrow) hn⟩

/-- A word that decodes is the word of the well-formed instruction it decodes to. -/
theorem encode_decode {w : Nat} {i : Instr} (hw : w < 2 ^ 64) (h : decodeWord w = .ok i) : i.isWord = true ∧ i.wf = true ∧ encode i = w := by
  obtain ⟨v, hv, hi⟩ := view_of_decodeWord h
  obtain ⟨hp, hok, ho, hr⟩ := decodeView_sound hw hv
  have hc : i.view.cell = v.cell := View.view_instr hi (by rw [hr, ho, hp, rowOf_eq_rowAt]; rfl)
  obtain ⟨hio, hip⟩ := Prod.mk.inj hc
  exact ⟨by rw [Instr.isWord, hio, ho]; rfl, (View.ok_of_cell hc).trans hok, by rw [encode, (Prod.mk.inj hip).1, hp]; rfl⟩

/-- Settles O51: each format's fields are read back from its word and its word from its fields, and a constructor, its row and its opcode name one
another. -/
theorem encodingRoundTrips : Obligations.EncodingRoundTrips := by
  unfold Obligations.EncodingRoundTrips
  exact ⟨fun _ => decode_encode, fun _ _ => encode_decode⟩

end Sys2Proof
end

section
/-! SUPPORT. CELLS AND OPERANDS: the reserved cells of the opcode space, the operand space, and the step as it follows the decoder (02 R44, R49, R51). -/

namespace Sys2Proof.Machine

/-! ## Reserved cells -/

/-- A word whose cell has no point is an illegal instruction. -/
theorem decodeWord_reserved {w : Nat} (h : Sys2Proof.rowOf w = none) : decodeWord w = .error .illegalInstruction := by
  rw [decodeWord, decodeView_eq, h]
  rfl

/-- Classes 14 and 15 have no points. -/
theorem rowOf_high {w : Nat} (h : 14 ≤ bits w 8 5) : Sys2Proof.rowOf w = none := by
  obtain ⟨k, hk⟩ := Nat.exists_eq_add_of_le' h
  rw [rowOf_eq_rowCell, hk, rowCell_beyond]

theorem Clause.valid_high {c : Clause} {size : Nat} (h : 14 ≤ c.cls) : c.valid size = false := by
  have hc : decide (c.cls ≤ 13) = false := decide_eq_false (Nat.not_le.mpr h)
  simp only [Clause.valid, hc, Bool.and_false, Bool.false_and]

/-- The words of a clause that is entered are of its class, and its class is one of 0 to 13. -/
theorem Clause.valid_word_high {c : Clause} {size w : Nat} (hw : w ∈ c.words) (h : 14 ≤ bits w 8 5) : c.valid size = false := by
  by_cases hc : 14 ≤ c.cls
  · exact valid_high hc
  · have hall : c.words.all (fun w => bits w 8 5 == c.cls) = false :=
      List.all_eq_false.mpr ⟨w, hw, fun e => hc (eq_of_beq e ▸ h)⟩
    rw [Clause.valid, hall, Bool.and_false]

/-- A word of an unchecked step that fails the order-2 check in its lane takes the illegal-instruction trap, whatever its guard says (02 R52). -/
theorem laneWord_order2 {v : View} {p : Point} {s : State} {st : IssueStep} {x : StepLane} {rest : List StepLane} (ht : s.turn = .issue st)
    (hx : st.todo = x :: rest) (hc : st.checked = false) (h2 : order2 (ctxOf st x) v s = true) :
    laneWord v p s = .next (takeTrap s st.group trap2 (1#32 <<< x.pos) (BitVec.ofNat 32 x.pc) false) := by
  have hv : viewTrap (ctxOf st x) v p s = some trap2 := if_pos h2
  simp only [laneWord, ht, hx, hc, laneCheck, hv, Bool.false_eq_true, if_false]

/-- PSWR and PCTX may stand only in a team that Fiaris placed (21 R298, R299). -/
theorem order2_service {c : Ctx} {op : Nat} {r : SRow} {f : SF} {s : State} (ho : op = 0x1B2 ∨ op = 0x1B3) (hk : (s.team c.tk).kind ≠ .service) :
    order2 c (.s op r f) s = true := by
  have hs : ((s.team c.tk).kind != .service) = true := bne_iff_ne.mpr hk
  have hop : (op == 0x1B2 || op == 0x1B3) = true := by obtain rfl | rfl := ho <;> rfl
  show (selBad _ _ || (_ || (op == 0x1B2 || op == 0x1B3) && (s.team c.tk).kind != .service || _ || _)) = true
  rw [hs, hop, Bool.and_self, Bool.or_true, Bool.true_or, Bool.true_or, Bool.or_true]

/-- Settles O53: a word with a reserved cell has no row, a clause's words are of its class, and the order-2 check refuses PSWR and PCTX. -/
theorem reservedCellsRefused : Obligations.ReservedCellsRefused := by
  unfold Obligations.ReservedCellsRefused
  refine ⟨fun w h => decodeWord_reserved (rowOf_high h), fun w h => decodeWord_reserved h, by decide +kernel, fun w h => decodeWord_reserved ?_,
    fun c size h => Clause.valid_high h, fun c size w hw h => Clause.valid_word_high hw h, fun f s st x rest ht hx hc hk i hi => ?_⟩
  · rw [rowOf_eq_rowAt, h]; rfl
  · simp only [List.mem_cons, List.not_mem_nil, or_false] at hi
    obtain rfl | rfl := hi
    · exact laneWord_order2 ht hx hc (order2_service (.inl rfl) hk)
    · exact laneWord_order2 ht hx hc (order2_service (.inr rfl) hk)

/-! ## The operand space -/

/-- A slot whose field names an operand (02 R44). -/
def NamesOperand (s : Slot) : Prop := (∃ w d c z, s = .reg w d c z) ∨ (∃ d, s = .lax d) ∨ s = .mult32

theorem NamesOperand.ok3_reserved {s : Slot} (h : NamesOperand s) {n : Nat} (hn : 265 ≤ n) : s.ok3 n = false := by
  have hb : decide (n ≤ 264) = false := decide_eq_false (Nat.not_le.mpr hn)
  obtain ⟨w, d, c, z, rfl⟩ | ⟨d, rfl⟩ | rfl := h
  · exact congrArg (· && (n == 264 || (256 ≤ n && w != 4) || (n < 256 && n % w == 0))) hb
  · exact hb
  · exact hb

/-- A reserved value of any operand field of a word whose fields are otherwise defined. -/
theorem decodeWord_reservedOperand {w : Nat} {ok2 ok3 : Bool} {v : View} {ps : List (Slot × Nat)} (hd : decodeView w = checked ok2 ok3 v)
    (h2 : ok2 = true) (h3 : ok3 = ps.all (fun p => p.1.ok3 p.2)) :
    ∀ p ∈ ps, NamesOperand p.1 → 265 ≤ p.2 → decodeWord w = .error .illegalOperand := by
  intro p hp hn hge
  have hf : ok3 = false := h3.trans (List.all_eq_false.mpr ⟨p, hp, by simp [hn.ok3_reserved hge]⟩)
  simp only [decodeWord, hd, checked, h2, hf, if_true, Bool.false_eq_true, if_false]

theorem all_two {α : Type} (p : α → Bool) (a b : α) : (p a && p b) = [a, b].all p := by
  rw [List.all_cons, List.all_cons, List.all_nil, Bool.and_true]

theorem all_three {α : Type} (p : α → Bool) (a b c : α) : (p a && p b && p c) = [a, b, c].all p := by
  rw [List.all_cons, ← all_two, Bool.and_assoc]

theorem all_four {α : Type} (p : α → Bool) (a b c d : α) : (p a && p b && p c && p d) = [a, b, c, d].all p := by
  rw [List.all_cons, ← all_three, Bool.and_assoc, Bool.and_assoc, Bool.and_assoc]

theorem ofCode_below {n : Nat} (h : n < 256) : Operand.ofCode n = .v ⟨n, h⟩ := dif_pos h

theorem writeOp_v_written (s : State) (lk w y : Nat) (n : Fin 256) : Written (.v n) w y (s.lane lk) ((s.writeOp lk (.v n) w y).lane lk) := by
  show Written (.v n) w y (s.lane lk) ((s.setLane lk ((s.lane lk).write (.v n) w y)).lane lk)
  rw [State.setLane_lane_self]
  exact Lane.write_written _ _ _ _

/-- Settles O54: the operand of each value, the slot check that refuses a value beyond 264, and what reading and writing an operand is. -/
theorem operandSpace : Obligations.OperandSpace := by
  unfold Obligations.OperandSpace
  refine ⟨fun n _ => ⟨fun h => ofCode_below h, fun k hk e => ⟨⟨k, hk⟩, rfl, Operand.ofCode_eq e⟩, fun e => by subst e; rfl,
    fun h sl hs => NamesOperand.ok3_reserved hs h⟩, ?_, ?_, ?_, ?_, ?_, ?_, ?_, ?_, ?_, fun s lk w y => ⟨fun n => ⟨rfl, writeOp_v_written s lk w y n⟩,
    fun q => ⟨rfl, rfl⟩, rfl, rfl⟩⟩
  all_goals
    intro w r hr h2
    let ok3 (p : Slot × Nat) : Bool := p.1.ok3 p.2
  · exact decodeWord_reservedOperand (by rw [decodeView_eq, hr]; rfl) h2 (all_four ok3 _ _ _ _)
  · exact decodeWord_reservedOperand (by rw [decodeView_eq, hr]; rfl) h2 (all_two ok3 _ _)
  · exact decodeWord_reservedOperand (by rw [decodeView_eq, hr]; rfl) h2 (all_two ok3 _ _)
  · exact decodeWord_reservedOperand (by rw [decodeView_eq, hr]; rfl) h2 (all_three ok3 _ _ _)
  · exact decodeWord_reservedOperand (by rw [decodeView_eq, hr]; rfl) h2 ((Bool.and_true _).symm)
  · exact decodeWord_reservedOperand (by rw [decodeView_eq, hr]; rfl) h2 (all_three ok3 _ _ _)
  · exact decodeWord_reservedOperand (by rw [decodeView_eq, hr]; rfl) h2 (all_four ok3 _ _ _ _)
  · exact decodeWord_reservedOperand (by rw [decodeView_eq, hr]; rfl) h2 (all_three ok3 _ _ _)
  · exact decodeWord_reservedOperand (by rw [decodeView_eq, hr]; rfl) h2 (all_three ok3 _ _ _)

/-- Settles O52: each word is decoded by evaluation. -/
theorem wordsDecode : Obligations.WordsDecode := by
  unfold Obligations.WordsDecode
  exact ⟨rfl, rfl, rfl, rfl⟩

/-! ## The step -/

section
variable {s : State} {st : IssueStep} {x : StepLane} {rest : List StepLane} {i : Instr} {e : DecodeError} {tk w n : Nat} {r : List Sched}

theorem step_issue (ht : s.turn = .issue st) : step s = stepIssue st s := by rw [step, ht]

theorem step_word (ht : s.turn = .issue st) (hx : st.todo = x :: rest) (hd : decodeWord x.word = .ok i) : step s = exec i s := by
  rw [step_issue ht, stepIssue, hx]
  dsimp only
  rw [hd]

theorem step_undecoded (ht : s.turn = .issue st) (hx : st.todo = x :: rest) (hd : decodeWord x.word = .error e) (hc : st.checked = false) :
    step s = .next (s.undecodedTrap st x e) := by
  rw [step_issue ht, stepIssue, hx]
  dsimp only
  rw [hd, hc]
  rfl

theorem step_endIssue (ht : s.turn = .issue st) (hx : st.todo = []) : step s = .next (endIssueStep st s) := by
  rw [step_issue ht, stepIssue, hx]

theorem step_streamTurn (ht : s.turn = .stream tk) : step s = stepStream tk s := by rw [step, ht]

theorem step_stream (ht : s.turn = .stream tk) (hw : s.streamAt tk = some w) (hd : decodeWord w = .ok i) (hs : isStreamWord w = true) :
    step s = exec i s := by
  rw [step_streamTurn ht, stepStream, hw]
  dsimp only
  rw [hd, hs]
  rfl

/-- A word that is no stream word ends the stream, whether it decodes or not. -/
theorem step_streamIllegal (ht : s.turn = .stream tk) (hw : s.streamAt tk = some w) (hs : isStreamWord w = false) :
    step s = .next (s.streamIllegal tk) := by
  rw [step_streamTurn ht, stepStream, hw]
  dsimp only
  rw [hs]
  cases decodeWord w <;> rfl

theorem step_idle (ht : s.turn = .idle) : step s = stepIdle s := by rw [step, ht]

theorem step_event (ht : s.turn = .idle) (hr : s.schedule = .ev i :: r) : step s = exec i { s with schedule := r } := by
  rw [step_idle ht, stepIdle, hr]

theorem step_sequencer (ht : s.turn = .idle) (hr : s.schedule = .seq tk :: r) (hk : s.streamReady tk = true) :
    step s = .next ({ s with schedule := r }.setTurn (.stream tk)) := by
  rw [step_idle ht, stepIdle, hr]
  exact congrArg Host.Outcome.next (if_pos hk)

theorem step_tick (ht : s.turn = .idle) (hr : s.schedule = .tick n :: r) : step s = .next (State.tick n { s with schedule := r }) := by
  rw [step_idle ht, stepIdle, hr]
  rfl

end

/-- Settles O58: by the turn of the machine and the word or entry that stands next. -/
theorem stepRunsTheDecoded : Obligations.StepRunsTheDecoded := by
  unfold Obligations.StepRunsTheDecoded
  refine fun s => ⟨fun st x rest ht hx => ⟨fun i hd => step_word ht hx hd, fun e hd hc => step_undecoded ht hx hd hc⟩, fun st ht hx => step_endIssue ht hx,
    fun tk ht => ⟨fun w i hw hd hs => step_stream ht hw hd hs, fun w hw hs => step_streamIllegal ht hw hs⟩, fun i r ht hr => step_event ht hr,
    fun tk r ht hr hk => step_sequencer ht hr hk, fun n r ht hr => step_tick ht hr, fun st => ⟨fun p hp => ?_, fun hp => ?_, rfl⟩⟩
  · rw [endIssueStep, hp]
  · change st.pend.filter (fun p => p.op == 0x1A4) = [] at hp
    rw [endIssueStep, hp]
    rfl

end Sys2Proof.Machine
end

section
/-! A STEP WHOSE CHECKS FAIL (02 R52, R53, 21 R285, R289). O32 says of any state that the step executes in no lane and that its group is halted, and where
a team counts more than 128 groups it fails: a key has room for 128 groups of a team, so group 128 of a team has the key of group 0 of the next one. -/

namespace Sys2Proof.Machine

/-- A group at BRK with an imm of 0. -/
def atBreak : State := State.reset.placeWord 0xFA3

/-- The group at BRK is group 0 of team 1, whose key is 128. Team 0, of the same grid, counts 129 groups, and the slice of the grid, which selected team 0,
has expired in this cycle; a debugger is armed. -/
def sharedGroup : State :=
  { atBreak with
    turn := .idle, cycle := 100, groups := [(128, atBreak.group 0)], lanes := [(laneKey 128 0, atBreak.lane 0)]
    teams := [(0, { atBreak.team 0 with groups := 129, saveFor := some (1, 0) }), (1, atBreak.team 0)]
    grids := [((atBreak.team 0).grid, { atBreak.grid (atBreak.team 0).grid with sliceAt := 100 })]
    dbg := { atBreak.dbg with att := true, brk := true } }

/-- The step takes the trap of BRK, and its group is not halted after it. -/
theorem sharedGroup_runs_on : ((sharedGroup.issueClass 128 13 [(0, 13)]).group 128).halted = false := by decide +kernel

/-- Refutes O32: the team stop of a BRK takes the slice expiry back from the teams of its grid, and team 0, which runs on, resumes the 129 groups that it
counts, the group that has just been halted among them. -/
theorem not_failingStepExecutesNowhere : ¬ Obligations.FailingStepExecutesNowhere := by
  unfold Obligations.FailingStepExecutesNowhere
  intro h
  obtain ⟨-, hh, -⟩ := h sharedGroup 128 13 [(0, 13)] (by decide +kernel) ⟨191, 31, 0⟩ 1 8 (by decide +kernel)
  rw [sharedGroup_runs_on] at hh
  exact Bool.false_ne_true hh

end Sys2Proof.Machine
end
